-- ==== Sys2Proof/Word.lean ====
section
/-! DEFINITION. The widths of the quantities that the JT-16 keeps or sends as bits (spec/00_scope.md section 3,
spec/11_record_and_frame_layouts.md section 11.1). Counts, phases, offsets and lengths are plain natural numbers; what
wraps at a width, or travels as octets, is a bit vector. -/

namespace Sys2Proof

/-- One octet of the line link, the printer port or the reader port. -/
abbrev Byte := BitVec 8

/-- A copy sequence number: 24 bits, compared modulo 16,777,216 (R41). -/
abbrev Seq := BitVec 24

/-- A bundle ordinal or a bundle number: 16 bits; ordinals wrap from 65,535 to 0 (R112, R135). -/
abbrev Word16 := BitVec 16

/-- The pitch index: 32 bits, wrapping (R8). -/
abbrev PitchIndex := BitVec 32

/-- A print tag, 0 to 15, given in turn modulo 16 (R100). -/
abbrev Tag := BitVec 4

/-- A station number, 0 to 15 (spec/02_stations_and_firing.md section 2.1). -/
abbrev StationNo := Fin 16

/-- A plan code, 0 to 63 (spec/03_copy_admission_and_the_plan_table.md section 3.6). -/
abbrev PlanCode := Fin 64

end Sys2Proof
end

