-- ==== Sys2Proof/Config.lean ====
section
/-! DEFINITION. What the spec leaves open and the model leaves free: the order in which the pieces of work that fall due at
one announced count are taken (R25, R85, R125, R163: "either may be taken first"). The free value is an opaque constant:
nothing in Lean can evaluate it. -/

namespace Sys2Proof

/-- One piece of work of the Firing Unit or the Check Unit that falls due at an announced count. -/
inductive CountTask where
  /-- the station takes its fire point (R25) -/
  | firePoint (i : StationNo)
  /-- the station takes its window close (R77) -/
  | windowClose (i : StationNo)
  /-- the CALIPER station begins its measurement or takes its samples (R82, R83) -/
  | caliper (i : StationNo)
  /-- the station's jam run has reached its jam length (R92) -/
  | jam (i : StationNo)
  deriving DecidableEq, Repr

/-- FREE VALUE (notes/assumptions/1.md). The rank of a task at the n-th announced count: tasks due at one count are taken in
rising rank, equal ranks in the order the model lists them. Any order of the tasks is the order of some rank, so a
statement that holds for this constant holds for every order. -/
opaque Config.rank : Nat → CountTask → Nat

end Sys2Proof
end

