-- ==== Sys2Proof/Syntax.lean ====
section
/-! DEFINITION. The commands of the JT-16: one constructor of `Instr` for each row of spec/opcode_table.json. A command is one
event the part takes, with the levels of its input pins at that event and the octets or values the event carries. -/

namespace Sys2Proof

/-- The input pins whose level the part reads at an event, as they stand at that event (spec/00_scope.md section 6). The
encoder pins come with ENCODER_EDGE and POWER_ON_RESET, the serial inputs octet by octet. -/
structure Pins where
  /-- SNS0 to SNS15: bit n is 1 while presence-sensor input n is active, product present (R76). -/
  sns : BitVec 16
  /-- CAL0: the values of the successive conversions of caliper channel 0 from this event on; the last one stands, and an
  empty list converts to 0 (R83). -/
  cal0 : List (BitVec 10)
  /-- CAL1, as `cal0` for caliper channel 1. -/
  cal1 : List (BitVec 10)
  /-- ESTOP: true while the emergency-stop input is active (R161). -/
  estop : Bool
  /-- LRDY_IN: true while the line computer's ready input is active (R171). -/
  lrdyIn : Bool
  deriving DecidableEq, Repr

/-- The result a DONE message carries (spec/11_record_and_frame_layouts.md section 11.8). -/
inductive PrintResult where
  | ok
  | fail
  deriving DecidableEq, Repr

/-- A command of the part. `pins` is in every command the levels of the input pins at the event. A link record is given by
its reference octet `ref` and the octets `rest` that follow in its payload those the command's name already fixes (the
table code of a table access, the subcommand of a line command); so a record of a wrong length or with fields out of range
is a command too, and is refused as the spec says. -/
inductive Instr where
  /-- POWER_ON_RESET (R169): the end of reset, with the encoder pins as they stand. -/
  | powerOnReset (pins : Pins) (encA encB : Bool)
  /-- ENCODER_EDGE (R3): a new state of the encoder pin pair. -/
  | encoderEdge (pins : Pins) (encA encB : Bool)
  /-- SIMULATED_COUNT (R5): the time of the next count of the simulated source. -/
  | simulatedCount (pins : Pins)
  /-- SPEED_WINDOW_EXPIRY (R12). -/
  | speedWindowExpiry (pins : Pins)
  /-- READ (R88): a READ reader message has arrived whole, with its value. -/
  | read (pins : Pins) (value : BitVec 16)
  /-- NOREAD (R88). -/
  | noRead (pins : Pins)
  /-- READER_MESSAGE_DISCARD (R87): a reader message fails its check or names a wrong kind. -/
  | readerMessageDiscard (pins : Pins)
  /-- READER_OCTET_TIMEOUT (R87): more than 5 ms between octets of a reader message. -/
  | readerOctetTimeout (pins : Pins)
  /-- CLEARED (R99): a CLEARED printer message has arrived whole. -/
  | cleared (pins : Pins)
  /-- TAKEN (R103). -/
  | taken (pins : Pins) (tag : Tag)
  /-- DONE (R106). -/
  | done (pins : Pins) (tag : Tag) (result : PrintResult)
  /-- PRINTER_MESSAGE_DISCARD (R97). -/
  | printerMessageDiscard (pins : Pins)
  /-- PRINTER_OCTET_TIMEOUT (R97). -/
  | printerOctetTimeout (pins : Pins)
  /-- LINK_OCTET (R173): an octet received on LRXD. -/
  | linkOctet (pins : Pins) (octet : Byte)
  /-- FRAME_TIMEOUT (R175). -/
  | frameTimeout (pins : Pins)
  /-- HELD_FRAME_TAKEN (R176). -/
  | heldFrameTaken (pins : Pins)
  /-- UNKNOWN_KIND (R177): a good frame with this kind octet. -/
  | unknownKind (pins : Pins) (kind ref : Byte) (rest : List Byte)
  /-- COPY (R39). -/
  | copy (pins : Pins) (ref : Byte) (rest : List Byte)
  /-- RESOLUTION_COMPLETE (R51): the resolution in progress comes to its end. -/
  | resolutionComplete (pins : Pins)
  /-- BUNDLE_OPEN (R134). -/
  | bundleOpen (pins : Pins) (ref : Byte) (rest : List Byte)
  /-- LINE_PROFILE_WRITE (R1): `rest` is the entry index and the entry. -/
  | lineProfileWrite (pins : Pins) (ref : Byte) (rest : List Byte)
  /-- STATION_WRITE (R17). -/
  | stationWrite (pins : Pins) (ref : Byte) (rest : List Byte)
  /-- CURVE_WRITE (R19). -/
  | curveWrite (pins : Pins) (ref : Byte) (rest : List Byte)
  /-- OUTPUT_MAP_WRITE (R34). -/
  | outputMapWrite (pins : Pins) (ref : Byte) (rest : List Byte)
  /-- PLAN_WRITE (R53). -/
  | planWrite (pins : Pins) (ref : Byte) (rest : List Byte)
  /-- TABLE_WRITE (R178): a TABLE-WRITE whose table code, the first octet of `rest`, names no table. -/
  | tableWrite (pins : Pins) (ref : Byte) (rest : List Byte)
  /-- LINE_PROFILE_READ (R1): `rest` is the entry index. -/
  | lineProfileRead (pins : Pins) (ref : Byte) (rest : List Byte)
  /-- STATION_READ (R18). -/
  | stationRead (pins : Pins) (ref : Byte) (rest : List Byte)
  /-- CURVE_READ (R21). -/
  | curveRead (pins : Pins) (ref : Byte) (rest : List Byte)
  /-- OUTPUT_MAP_READ (R34). -/
  | outputMapRead (pins : Pins) (ref : Byte) (rest : List Byte)
  /-- PLAN_READ (R53). -/
  | planRead (pins : Pins) (ref : Byte) (rest : List Byte)
  /-- STATUS_READ (R181). -/
  | statusRead (pins : Pins) (ref : Byte) (rest : List Byte)
  /-- NOTICE_MASK (R183). -/
  | noticeMask (pins : Pins) (ref : Byte) (rest : List Byte)
  /-- FLAG_CLEAR (R183). -/
  | flagClear (pins : Pins) (ref : Byte) (rest : List Byte)
  /-- PROTECT (R179). -/
  | protect (pins : Pins) (ref : Byte) (rest : List Byte)
  /-- START (R155). -/
  | start (pins : Pins) (ref : Byte) (rest : List Byte)
  /-- HOLD (R156). -/
  | hold (pins : Pins) (ref : Byte) (rest : List Byte)
  /-- RESUME (R156). -/
  | resume (pins : Pins) (ref : Byte) (rest : List Byte)
  /-- RUN_OUT (R157). -/
  | runOut (pins : Pins) (ref : Byte) (rest : List Byte)
  /-- STOP_NOW (R158). -/
  | stopNow (pins : Pins) (ref : Byte) (rest : List Byte)
  /-- CLEAR_FAULT (R165). -/
  | clearFault (pins : Pins) (ref : Byte) (rest : List Byte)
  /-- SET_OVERRIDE (R33): `rest` is the DIVERT-ALL code and the PASS-ALL code. -/
  | setOverride (pins : Pins) (ref : Byte) (rest : List Byte)
  /-- RUN_RESET (R167). -/
  | runReset (pins : Pins) (ref : Byte) (rest : List Byte)
  /-- ESTOP_ACTIVE (R161): the emergency-stop input becomes active. -/
  | estopActive (pins : Pins)
  /-- LRDY_IN_ACTIVE (R172): the line computer's ready input becomes active. -/
  | lrdyInActive (pins : Pins)
  /-- UPSTREAM_FRAME_SENT (R172): the last octet of the upstream frame being sent has gone out. -/
  | upstreamFrameSent (pins : Pins)
  /-- PRINTER_MESSAGE_SENT (R97): the last octet of the message being sent on PTXD has gone out. -/
  | printerMessageSent (pins : Pins)
  /-- RESET_ENTRY (R169): the supply falls or the RESET pin goes active. -/
  | resetEntry (pins : Pins)
  /-- READER_PORT_OCTET (R87): an octet received on RRXD. -/
  | readerPortOctet (pins : Pins) (octet : Byte)
  /-- PRINTER_PORT_OCTET (R97): an octet received on PRXD. -/
  | printerPortOctet (pins : Pins) (octet : Byte)
  deriving DecidableEq, Repr

end Sys2Proof
end

