-- ==== Sys2Proof/Decode.lean ====
section
/-! DEFINITION. The command a table word spells. spec/opcode_table.json gives bits to none of its rows (every row's "fields" is
empty and none has a pattern), so no word spells a command. -/

namespace Sys2Proof

/-- No row of spec/opcode_table.json gives bits: every word answers none. -/
def decodeTableWord (_nbits _w : Nat) : Option Instr := none

end Sys2Proof
end

