-- ==== Sys2Proof/Machine/State.lean ====
section
/-! DEFINITION. The state of the JT-16, unit by unit as the spec's chapters give it (spec/00_scope.md section 2), the queue of
waiting commands, the reasons a step can stop, and the state right after power-on reset. -/

namespace Sys2Proof.Machine

/-! ## Motion Unit (chapter 01) -/

/-- Where counts come from (section 1.2). -/
inductive MotionSource where
  | encoder
  | simulated
  deriving DecidableEq, Repr

/-- The one entry of the LINE_PROFILE table (section 1.2). -/
structure LineProfile where
  /-- whole part P of the pitch length -/
  p : Nat
  /-- fractional part F, in 1/256 count -/
  f : Nat
  source : MotionSource
  /-- simulated rate R, counts per millisecond -/
  rate : Nat
  deriving DecidableEq, Repr

/-- The simulated source: stopped, or within a millisecond of `rate` counts of which `issued` have been issued (R5). -/
inductive SimSource where
  | stopped
  | generating (rate issued : Nat)
  deriving DecidableEq, Repr

/-- The Motion Unit (MU). -/
structure MotionUnit where
  profile : LineProfile
  phase : Nat
  /-- current pitch length L -/
  len : Nat
  /-- fractional accumulator A -/
  acc : Nat
  pitch : PitchIndex
  /-- speed-window count, signed (R11) -/
  windowCount : Int
  /-- speed S -/
  speed : Nat
  /-- last encoder state: ENC_A and ENC_B -/
  encA : Bool
  encB : Bool
  sim : SimSource
  motionErrors : Nat
  reverseAbsorbed : Nat
  deriving DecidableEq, Repr

/-! ## Firing Unit (chapter 02) -/

/-- Station kinds (section 2.1). -/
inductive StationKind where
  | none
  | feed
  | insert
  | carrier
  | print
  | caliper
  | verify
  | seal
  | gate
  | stack
  deriving DecidableEq, Repr

/-- One entry of the station table (section 2.1). -/
structure StationEntry where
  kind : StationKind
  offset : Nat
  /-- fire phase Φ -/
  phi : Nat
  pulseLength : Nat
  curve : Option (Fin 4)
  sensor : Option (Fin 16)
  windowStart : Nat
  windowEnd : Nat
  minDetect : Nat
  faultLimit : Nat
  feeder : Nat
  printLead : Nat
  /-- sample exponent m -/
  sampleExp : Nat
  /-- caliper channel: false is CAL0, true is CAL1 -/
  channel : Bool
  zmax : Nat
  driftLimit : Nat
  jamLength : Nat
  deriving DecidableEq, Repr

/-- The thirteen fields of an advance curve (section 2.3). -/
structure Curve where
  s1 : Nat
  s2 : Nat
  s3 : Nat
  a0 : Nat
  a1 : Nat
  a2 : Nat
  a3 : Nat
  k0 : Nat
  k1 : Nat
  k2 : Nat
  k3 : Nat
  amin : Nat
  amax : Nat
  deriving DecidableEq, Repr

/-- A curve's active copy, its shadow and its pending flag (section 2.3). -/
structure CurveSlot where
  active : Curve
  shadow : Curve
  pending : Bool
  deriving DecidableEq, Repr

/-- A station's outcome in the pitch in progress (section 2.4). -/
inductive PitchOutcome where
  | none
  | fired
  | declined
  | skipped
  deriving DecidableEq, Repr

/-- The Firing Unit's working state of one station (section 2.4). -/
structure FireWork where
  /-- fire point E of the current pitch -/
  e : Nat
  fired : Bool
  outcome : PitchOutcome
  /-- pulse active -/
  pulse : Bool
  pulseEnd : Nat
  deriving DecidableEq, Repr

/-- What an output line may show (section 2.9). -/
inductive OutputSource where
  | station (i : StationNo)
  | bundleKick
  | trayKick
  | driveRun
  | driveStopRequest
  | lineHolding
  | lineFaulted
  | off
  deriving DecidableEq, Repr

/-- One entry of the output map (section 2.9). -/
structure OutputEntry where
  source : OutputSource
  inverted : Bool
  deriving DecidableEq, Repr

/-- The Firing Unit (FU). -/
structure FiringUnit where
  stations : Vector StationEntry 16
  curves : Vector CurveSlot 4
  work : Vector FireWork 16
  /-- latched speed S_L -/
  latchedSpeed : Nat
  outputs : Vector OutputEntry 24
  divertAll : Bool
  passAll : Bool
  /-- the BUNDLE_KICK pulse is active (R30) -/
  bundleKick : Bool
  /-- the TRAY_KICK pulse is active (R30) -/
  trayKick : Bool
  /-- the phase at which the kick pulses end (R30, R31) -/
  kickEnd : Nat
  /-- the MODEL's own field: a kick has been taken in the pitch in progress, which takes at most one (R30, R147, R193).
  DEDUCED: the rules need it and no table names it (notes/assumptions/38.md) -/
  kickTaken : Bool
  deriving DecidableEq, Repr

/-! ## Copies, plans and the copy track (chapters 03 and 04) -/

/-- The plan values a copy carries from its resolution (section 3.1, section 4.1); bit n − 1 of `inserts` is feeder n. -/
structure PlanValues where
  inserts : BitVec 8
  low1 : Nat
  high1 : Nat
  low2 : Nat
  high2 : Nat
  verify : Bool
  deriving DecidableEq, Repr

/-- One entry of the plan table (section 3.6). -/
structure PlanEntry where
  valid : Bool
  values : PlanValues
  deriving DecidableEq, Repr

/-- The fields of a copy from its acceptance on (section 3.1). -/
structure StagedCopy where
  seq : Seq
  bundleNo : Word16
  ordinal : Word16
  plan : PlanCode
  lineCount : Nat
  /-- the pool blocks that hold the text, in order -/
  blocks : List Nat
  deriving DecidableEq, Repr

/-- A staging entry in its state (section 3.1); the re-resolve request stands only in RESOLVING (R55). -/
inductive StagingEntry where
  | free
  | receiving
  | arrived (c : StagedCopy)
  | resolving (c : StagedCopy) (again : Bool)
  | resolved (c : StagedCopy) (v : PlanValues)
  deriving DecidableEq, Repr

/-- A resolution in progress: the entry and the plan entry as read at its start (R50). -/
structure Resolution where
  entry : Fin 16
  read : PlanEntry
  deriving DecidableEq, Repr

/-- The octets of the text pool: address and octet, in the canonical form of `Memory.wf` (Machine/Memory.lean). Octet j of
block b has the address 64 b + j. -/
abbrev Memory := List Host.Cell

/-- The Admission Unit (AU). -/
structure AdmissionUnit where
  staging : Vector StagingEntry 16
  /-- arrival order, oldest first (R47) -/
  order : List (Fin 16)
  resolver : Option Resolution
  /-- text pool blocks in use: bit n is block n (section 3.1) -/
  blocksUsed : BitVec 384
  pool : Memory
  lastSeq : Option Seq
  plans : Vector PlanEntry 64
  deriving DecidableEq, Repr

/-- The marks of a copy (R60); bit n − 1 of `insertMiss` is INSERT_MISS(n). -/
structure MarkSet where
  mainMiss : Bool
  insertExtra : Bool
  carrierMiss : Bool
  thin : Bool
  thick : Bool
  printFail : Bool
  printUnconfirmed : Bool
  verifyAbsent : Bool
  verifyMismatch : Bool
  suspect : Bool
  forced : Bool
  insertMiss : BitVec 8
  deriving DecidableEq, Repr

/-- One mark (R60). -/
inductive Mark where
  | mainMiss
  | insertMiss (feeder : Nat)
  | insertExtra
  | carrierMiss
  | thin
  | thick
  | printFail
  | printUnconfirmed
  | verifyAbsent
  | verifyMismatch
  | suspect
  | forced
  deriving DecidableEq, Repr

/-- Where an attempt was released from (section 4.1). -/
inductive Origin where
  | main
  | remake
  deriving DecidableEq, Repr

/-- A reader result (section 4.1). -/
inductive ReadResult where
  | value (v : BitVec 16)
  | noRead
  deriving DecidableEq, Repr

/-- The copy context from its first release on (section 4.1). -/
structure Context where
  copy : StagedCopy
  values : PlanValues
  origin : Origin
  attempts : Nat
  faulted : Nat
  marks : MarkSet
  tag : Option Tag
  verifyResult : Option ReadResult
  deriving DecidableEq, Repr

/-- What a track position holds (section 4.2). -/
inductive Content where
  | empty
  | copy (c : Context)
  | ghost (tag : Option Tag)
  deriving DecidableEq, Repr

/-- The Track Unit (TU). The list is the track from position 0 to T − 1, so T is its length. -/
structure TrackUnit where
  track : List Content
  /-- gate position g, or none before the first START (R61) -/
  gate : Option Nat
  starvedRun : Bool
  starved : Nat
  deriving DecidableEq, Repr

/-! ## Check Unit (chapter 05) -/

/-- Measurement state of a CALIPER station (section 5.1). -/
inductive MeasureState where
  | idle
  | measuring
  | done
  | notTaken
  deriving DecidableEq, Repr

/-- The Check Unit's working state of one station (section 5.1). -/
structure CheckWork where
  presenceRun : Nat
  detected : Bool
  windowClosed : Bool
  measure : MeasureState
  nextSample : Nat
  sampleSum : Nat
  /-- consecutive-fault counter -/
  faultRun : Nat
  /-- drift counter -/
  drift : Nat
  jamRun : Nat
  jamRaised : Bool
  deriving DecidableEq, Repr

/-- The receive state of the reader or printer port: idle, or the octets of the message arriving, from its length octet on
(section 5.1, section 6.2, R191). -/
inductive PortReceive where
  | idle
  | arriving (octets : List Byte)
  deriving DecidableEq, Repr

/-- The Check Unit (CU). -/
structure CheckUnit where
  work : Vector CheckWork 16
  reader : PortReceive
  strayProduct : Nat
  strayRead : Nat
  readerErrors : Nat
  deriving DecidableEq, Repr

/-! ## Printer Port (chapter 06) -/

/-- An outstanding print job (section 6.2). -/
structure Job where
  tag : Tag
  lead : Nat
  dispatch : PitchIndex
  /-- state TAKEN (true) or SENT (false) -/
  taken : Bool
  triggered : Bool
  deriving DecidableEq, Repr

/-- A message of the printer transmit queue (section 6.1). -/
inductive PrinterMessage where
  | clear
  | job (tag : Tag) (seq : Seq) (lines : List (List Byte))
  deriving DecidableEq, Repr

/-- The Printer Port (PP). The head of the transmit queue, if any, is the message being sent (notes/assumptions/8.md). -/
structure PrinterPort where
  synchronised : Bool
  clears : Nat
  jobs : List Job
  nextTag : Tag
  transmit : List PrinterMessage
  receive : PortReceive
  errors : Nat
  stray : Nat
  deriving DecidableEq, Repr

/-! ## Gate and Make-up Unit, Bundle Unit (chapters 07 and 08) -/

/-- The Gate and Make-up Unit (GM). -/
structure GateUnit where
  /-- make-up queue, head first -/
  queue : List Context
  decided : Bool
  ghostDiverts : Nat
  deriving DecidableEq, Repr

/-- Bundle mode (section 8.1). -/
inductive BundleMode where
  | remake
  | short
  deriving DecidableEq, Repr

/-- A bundle record (section 8.1). -/
structure Bundle where
  ordinal : Word16
  number : Word16
  expected : Nat
  mode : BundleMode
  retryLimit : Nat
  trayBreak : Bool
  /-- receipt RECEIVING (true) or ENDED (false) -/
  receiving : Bool
  received : Nat
  delivered : Nat
  excepted : Nat
  truncated : Bool
  digest : Word16
  /-- state COMPLETE (true) or OPEN (false) -/
  complete : Bool
  deriving DecidableEq, Repr

/-- The Bundle Unit (BU). -/
structure BundleUnit where
  /-- bundles opened and not yet closed, in ordinal order, lowest first -/
  table : List Bundle
  nextOrdinal : Word16
  /-- ordinal of the receiving bundle, or none -/
  receiving : Option Word16
  /-- pending kicks, oldest first: whether a tray kick follows -/
  kicks : List Bool
  deriving DecidableEq, Repr

/-! ## Line Control Unit (chapter 09) -/

/-- Line states (section 9.2). -/
inductive LineState where
  | stopped
  | running
  | holding
  | runOut
  | faulted
  deriving DecidableEq, Repr

/-- Hold causes (R159). -/
inductive HoldCause where
  | command
  | stationLimit
  | caliperDrift
  | linkBacklog
  deriving DecidableEq, Repr

/-- The hold-cause set (section 9.1). -/
structure HoldSet where
  command : Bool
  stationLimit : Bool
  caliperDrift : Bool
  linkBacklog : Bool
  deriving DecidableEq, Repr

/-- Causes of a stop-class fault (section 9.5). -/
inductive FaultCause where
  | estop
  | jam
  | motion
  | printSync
  | printOrder
  | printBacklog
  deriving DecidableEq, Repr

/-- The fault-cause set (section 9.1). -/
structure FaultSet where
  estop : Bool
  jam : Bool
  motion : Bool
  printSync : Bool
  printOrder : Bool
  printBacklog : Bool
  deriving DecidableEq, Repr

/-- The fault locator (R164). -/
structure Locator where
  cause : FaultCause
  station : Option StationNo
  pitch : PitchIndex
  seq : Option Seq
  deriving DecidableEq, Repr

/-- The Line Control Unit (LC). -/
structure LineControl where
  line : LineState
  holds : HoldSet
  faults : FaultSet
  locator : Option Locator
  armed : Bool
  further : Nat
  displaced : Bool
  deriving DecidableEq, Repr

/-! ## Line Link Controller (chapter 10) -/

/-- Receive states of the line link (R173). -/
inductive ReceiveState where
  | search
  | length
  | kind
  | payload
  | crcHigh
  | crcLow
  | held
  deriving DecidableEq, Repr

/-- The receive frame buffer (section 10.1). -/
structure FrameBuffer where
  length : Byte
  kind : Byte
  payload : List Byte
  crcHigh : Byte
  crcLow : Byte
  deriving DecidableEq, Repr

/-- Reply statuses (R177). -/
inductive Status where
  | ok
  | format
  | range
  | state
  | protectedTable
  | locked
  | sequence
  | noBundle
  | overcount
  | duplicate
  | full
  | config
  deriving DecidableEq, Repr

/-- Outcomes of an attempt (R126). -/
inductive AttemptOutcome where
  | diverted
  | swept
  | exception
  | delivered
  deriving DecidableEq, Repr

/-- Reasons of an EXCEPTION (R126). -/
inductive ExceptionReason where
  | planVacant
  | retryLimit
  | shortMode
  | lost
  deriving DecidableEq, Repr

/-- The values of an ATTEMPT record (R126). -/
structure Attempt where
  outcome : AttemptOutcome
  reason : Option ExceptionReason
  seq : Seq
  bundleNo : Word16
  plan : PlanCode
  origin : Option Origin
  attempts : Nat
  faulted : Nat
  marks : MarkSet
  pitch : PitchIndex
  deriving DecidableEq, Repr

/-- Why a reader message is stray (R88). -/
inductive StrayReason where
  | gap
  | ghost
  | answered
  | noStation
  deriving DecidableEq, Repr

/-- Why a pitch is starved (R69). -/
inductive StarvedReason where
  | emptyStaging
  | unresolved
  deriving DecidableEq, Repr

/-- A notice with the values of its kind (R182). -/
inductive Notice where
  | fault (cause : FaultCause) (station : Option StationNo) (seq : Option Seq) (further : Nat)
  | holdEntered (holds : HoldSet)
  | holdLeft
  | stationLimit (station : StationNo) (kind : StationKind) (mark : Mark) (seq : Seq)
  | caliperDrift (station : StationNo) (reading : Nat)
  | sequenceGap (first : Seq) (skipped : Nat)
  | textSubst (seq : Seq) (replaced : Nat)
  | crcDiscard (length kind : Byte)
  | strayRead (reason : StrayReason) (result : ReadResult)
  | bundleTruncated (number ordinal : Word16) (expected received : Nat)
  | starved (reason : StarvedReason)
  deriving DecidableEq, Repr

/-- A record of the upstream queue (R184). -/
inductive Record where
  | reply (ref kind : Byte) (status : Status) (detail : Byte) (data : List Byte)
  | attempt (a : Attempt)
  | bundleClose (number : Word16) (expected delivered excepted : Nat) (truncated : Bool) (digest : Word16)
  | notice (n : Notice) (pitch : PitchIndex)
  deriving DecidableEq, Repr

/-- The Line Link Controller (LL). Bit n of the flags and of the mask is notice kind n (section 11.6; a mask bit at 1 is
ENABLED); bit n − 1 of the write-enable set is table code n (section 11.3). -/
structure LinkController where
  receive : ReceiveState
  buffer : FrameBuffer
  upstream : List Record
  /-- transmit state: sending the head record (true) or idle (false) -/
  sending : Bool
  flags : BitVec 11
  mask : BitVec 11
  writeEnable : BitVec 5
  lock : Bool
  crcErrors : Nat
  frameTimeouts : Nat
  lengthErrors : Nat
  receiveOverruns : Nat
  noticesDropped : Nat
  deriving DecidableEq, Repr

/-! ## The whole part -/

/-- Why the machine stops with a fault: nobody raises one. The spec gives every command an effect in every state it can
reach, so this type has no constructor (safe: a run never ends in a fault). -/
inductive Fault where
  deriving DecidableEq, Repr

/-- Why a command has no meaning. -/
inductive Refusal where
  /-- Raised by `exec` alone, for a row that has no meaning yet (no arm uses it). Safe: the model stops. -/
  | notModelled (mnemonic : String)
  deriving DecidableEq, Repr

/-- The state of the part: its ten units, its input pins as last seen, whether it stands in reset, and the queue of
commands that wait. -/
structure State where
  mu : MotionUnit
  fu : FiringUnit
  au : AdmissionUnit
  tu : TrackUnit
  cu : CheckUnit
  pp : PrinterPort
  gm : GateUnit
  bu : BundleUnit
  lc : LineControl
  ll : LinkController
  pins : Pins
  /-- reset lasts: from RESET_ENTRY to POWER_ON_RESET (section 9.8) -/
  inReset : Bool
  /-- the MODEL's own field: the number of announced counts so far, at which `Config.rank` is read -/
  countIndex : Nat
  pending : List Instr
  deriving DecidableEq, Repr

/-! ## The values after power-on reset ("After POR" columns) -/

/-- Section 1.2 and section 1.8; the encoder pins are taken as (0, 0) (notes/assumptions/6.md). -/
def MotionUnit.por : MotionUnit :=
  { profile := { p := 2000, f := 0, source := .encoder, rate := 20 }
    phase := 0, len := 2000, acc := 0, pitch := 0, windowCount := 0, speed := 0
    encA := false, encB := false, sim := .stopped, motionErrors := 0, reverseAbsorbed := 0 }

/-- Section 2.1. -/
def StationEntry.por : StationEntry :=
  { kind := .none, offset := 0, phi := 0, pulseLength := 1, curve := none, sensor := none
    windowStart := 0, windowEnd := 0, minDetect := 1, faultLimit := 0, feeder := 1, printLead := 1
    sampleExp := 0, channel := false, zmax := 0, driftLimit := 0, jamLength := 0 }

/-- Section 2.3. -/
def Curve.por : Curve :=
  { s1 := 1024, s2 := 2048, s3 := 3072, a0 := 0, a1 := 0, a2 := 0, a3 := 0
    k0 := 0, k1 := 0, k2 := 0, k3 := 0, amin := 0, amax := 0 }

/-- Section 2.4. -/
def FireWork.por : FireWork :=
  { e := 0, fired := false, outcome := .none, pulse := false, pulseEnd := 0 }

/-- R37. -/
def FiringUnit.por : FiringUnit :=
  { stations := Vector.replicate 16 StationEntry.por
    curves := Vector.replicate 4 { active := Curve.por, shadow := Curve.por, pending := false }
    work := Vector.replicate 16 FireWork.por
    latchedSpeed := 0
    outputs := Vector.replicate 24 { source := .off, inverted := false }
    divertAll := false, passAll := false, bundleKick := false, trayKick := false, kickEnd := 0, kickTaken := false }

/-- Section 3.6. -/
def PlanEntry.por : PlanEntry :=
  { valid := false, values := { inserts := 0, low1 := 0, high1 := 1023, low2 := 0, high2 := 1023, verify := false } }

/-- R56; the octets of the pool read as 00h (notes/assumptions/7.md). -/
def AdmissionUnit.por : AdmissionUnit :=
  { staging := Vector.replicate 16 .free, order := [], resolver := none, blocksUsed := 0, pool := []
    lastSeq := none, plans := Vector.replicate 64 PlanEntry.por }

/-- R73: T is 64 and g is none. -/
def TrackUnit.por : TrackUnit :=
  { track := List.replicate 64 .empty, gate := none, starvedRun := false, starved := 0 }

/-- Section 5.1. -/
def CheckWork.por : CheckWork :=
  { presenceRun := 0, detected := false, windowClosed := false, measure := .idle, nextSample := 0, sampleSum := 0
    faultRun := 0, drift := 0, jamRun := 0, jamRaised := false }

/-- R94. -/
def CheckUnit.por : CheckUnit :=
  { work := Vector.replicate 16 CheckWork.por, reader := .idle, strayProduct := 0, strayRead := 0, readerErrors := 0 }

/-- R109: UNSYNCHRONISED with one clear outstanding, and the CLEAR in the transmit queue. -/
def PrinterPort.por : PrinterPort :=
  { synchronised := false, clears := 1, jobs := [], nextTag := 0, transmit := [.clear], receive := .idle
    errors := 0, stray := 0 }

/-- R131. -/
def GateUnit.por : GateUnit := { queue := [], decided := false, ghostDiverts := 0 }

/-- R149. -/
def BundleUnit.por : BundleUnit := { table := [], nextOrdinal := 0, receiving := none, kicks := [] }

/-- Section 9.1. -/
def LineControl.por : LineControl :=
  { line := .stopped
    holds := { command := false, stationLimit := false, caliperDrift := false, linkBacklog := false }
    faults := { estop := false, jam := false, motion := false, printSync := false, printOrder := false
                printBacklog := false }
    locator := none, armed := true, further := 0, displaced := false }

/-- R186: the mask reads 02FFh (section 11.3) and all five tables are write-enabled. -/
def LinkController.por : LinkController :=
  { receive := .search, buffer := { length := 0, kind := 0, payload := [], crcHigh := 0, crcLow := 0 }
    upstream := [], sending := false, flags := 0, mask := 0x2FF#11, writeEnable := 0x1F#5, lock := false
    crcErrors := 0, frameTimeouts := 0, lengthErrors := 0, receiveOverruns := 0, noticesDropped := 0 }

/-- The machine right after power-on reset (R169), with every input pin inactive at that moment (notes/assumptions/6.md) and
no command waiting. -/
def State.reset : State :=
  { mu := .por, fu := .por, au := .por, tu := .por, cu := .por, pp := .por, gm := .por, bu := .por, lc := .por
    ll := .por
    pins := { sns := 0, cal0 := [], cal1 := [], estop := false, lrdyIn := false }
    inReset := false, countIndex := 0, pending := [] }

end Sys2Proof.Machine
end

