-- ==== Sys2Proof/Machine/Memory.lean ====
section
/-! DEFINITION. The text pool: 384 blocks of 64 octets, each free or in use (spec/03_copy_admission_and_the_plan_table.md sections
3.1 and 3.3). Its octets are a list of cells in one canonical form. -/

namespace Sys2Proof.Machine

/-- What an octet of the pool reads as that nothing has written: 00h (notes/assumptions/7.md). -/
def poolBlank : Byte := 0

/-- The octet at an address. -/
def Memory.read (m : Memory) (a : Nat) : Byte :=
  match m with
  | [] => poolBlank
  | (k, v) :: t => if k = a then v else Memory.read t a

/-- Writes one octet and keeps the canonical form. -/
def Memory.write (m : Memory) (a : Nat) (b : Byte) : Memory :=
  match m with
  | [] => if b = poolBlank then [] else [(a, b)]
  | (k, v) :: t =>
    if a < k then (if b = poolBlank then (k, v) :: t else (a, b) :: (k, v) :: t)
    else if a = k then (if b = poolBlank then t else (a, b) :: t)
    else (k, v) :: Memory.write t a b

/-- The canonical form: addresses strictly rising, and no entry equal to what an unlisted address reads as. -/
def Memory.wf : Memory → Bool
  | [] => true
  | (k, v) :: t => t.all (fun c => decide (k < c.1)) && (decide (v ≠ poolBlank) && Memory.wf t)

/-- Writes a run of octets from an address up. -/
def Memory.writeRun (m : Memory) (a : Nat) : List Byte → Memory
  | [] => m
  | b :: t => Memory.writeRun (m.write a b) (a + 1) t

/-- Reads a run of octets from an address up. -/
def Memory.readRun (m : Memory) (a : Nat) : Nat → List Byte
  | 0 => []
  | n + 1 => m.read a :: Memory.readRun m (a + 1) n

/-- Octets in one pool block. -/
def blockSize : Nat := 64

/-- Number of pool blocks. -/
def blockCount : Nat := 384

/-- Stores octets into the named blocks in order, 64 to a block, the last filled as far as they reach (R45). -/
def Memory.storeBlocks (m : Memory) (octets : List Byte) : List Nat → Memory
  | [] => m
  | b :: t => (m.writeRun (blockSize * b) (octets.take blockSize)).storeBlocks (octets.drop blockSize) t

/-- The octets of the named blocks, in order. -/
def Memory.loadBlocks (m : Memory) (blocks : List Nat) : List Byte :=
  blocks.flatMap (fun b => m.readRun (blockSize * b) blockSize)

/-- The stored form of address lines: each line one length octet and its characters (R45). -/
def storedText (lines : List (List Byte)) : List Byte :=
  lines.flatMap (fun l => BitVec.ofNat 8 l.length :: l)

/-- The address lines read back from their stored form. -/
def readText (n : Nat) (octets : List Byte) : List (List Byte) :=
  match n, octets with
  | 0, _ => []
  | _ + 1, [] => []
  | n + 1, l :: t => t.take l.toNat :: readText n (t.drop l.toNat)

/-- The blocks that the octets of a stored form fill: ceil(octets / 64) (R45). -/
def blocksNeeded (octets : Nat) : Nat := (octets + (blockSize - 1)) / blockSize

/-- The free blocks with the lowest block numbers, as many as wanted (R45). -/
def lowestFree (used : BitVec 384) (wanted : Nat) : List Nat :=
  ((List.range blockCount).filter (fun b => !used.getLsbD b)).take wanted

/-- Marks blocks in use. -/
def useBlocks (used : BitVec 384) (blocks : List Nat) : BitVec 384 :=
  blocks.foldl (fun u b => u ||| BitVec.twoPow 384 b) used

/-- Returns blocks to the free set (R46). -/
def releaseBlocks (used : BitVec 384) (blocks : List Nat) : BitVec 384 :=
  blocks.foldl (fun u b => u &&& ~~~(BitVec.twoPow 384 b)) used

end Sys2Proof.Machine
end

