-- ==== Sys2Proof/Machine/Codec.lean ====
section
/-! DEFINITION. Octets: byte order, the CRC, the codes of kinds, sets and states, and the layouts of the table entries, the
upstream records, the printer messages and the STATUS-READ data (spec/11_record_and_frame_layouts.md). -/

namespace Sys2Proof.Machine

/-! ## Byte order (R188) -/

/-- A two-octet field, most significant octet first. -/
def octets2 (n : Nat) : List Byte := [BitVec.ofNat 8 (n / 256), BitVec.ofNat 8 n]

/-- A three-octet field, most significant octet first. -/
def octets3 (n : Nat) : List Byte := BitVec.ofNat 8 (n / 65536) :: octets2 n

/-- A four-octet field, most significant octet first. -/
def octets4 (n : Nat) : List Byte := BitVec.ofNat 8 (n / 16777216) :: octets3 n

/-- Octet `i` of a list of octets. -/
def octetAt (l : List Byte) (i : Nat) : Nat := (l.getD i 0).toNat

/-- The two-octet field at octet `i`. -/
def fieldAt2 (l : List Byte) (i : Nat) : Nat := octetAt l i * 256 + octetAt l (i + 1)

/-- The three-octet field at octet `i`. -/
def fieldAt3 (l : List Byte) (i : Nat) : Nat := octetAt l i * 65536 + fieldAt2 l (i + 1)

/-- A yes/no code: 00h or 01h in the order the field's table gives. -/
def boolOctet (b : Bool) : Byte := if b then 1 else 0

/-- A station number given as none is FFh. -/
def stationOrNone : Option StationNo → Byte
  | none => 0xFF
  | some i => BitVec.ofNat 8 i.val

/-- A sequence-or-none: presence octet and value, four octets. -/
def seqOrNone : Option Seq → List Byte
  | none => [0xFF, 0, 0, 0]
  | some q => 0x00 :: octets3 q.toNat

/-- A bundle-number-or-none: presence octet and value, three octets. -/
def bundleOrNone : Option Word16 → List Byte
  | none => [0xFF, 0, 0]
  | some n => 0x00 :: octets2 n.toNat

/-! ## The CRC and the frame (R174, section 11.2) -/

/-- One bit of the CRC of R174. -/
def crcBit (r : BitVec 16) (b : Bool) : BitVec 16 :=
  if xor r.msb b then (r <<< 1) ^^^ 0x1021#16 else r <<< 1

/-- One octet of the CRC, its bits from the most significant down. -/
def crcOctet (r : BitVec 16) (o : Byte) : BitVec 16 :=
  [7, 6, 5, 4, 3, 2, 1, 0].foldl (fun r i => crcBit r (o.getLsbD i)) r

/-- The CRC of R174: the register starts at FFFFh and is not inverted at the end. -/
def crc16 (l : List Byte) : BitVec 16 := l.foldl crcOctet 0xFFFF#16

/-- The length octet of a payload. -/
def lengthOctet (payload : List Byte) : Byte := BitVec.ofNat 8 payload.length

/-- A whole frame or port message: start octet, length, kind, payload, CRC high octet first. -/
def frameOctets (kind : Byte) (payload : List Byte) : List Byte :=
  0xA5 :: lengthOctet payload :: kind :: payload ++ octets2 (crc16 (lengthOctet payload :: kind :: payload)).toNat

/-! ## Codes (sections 11.4 to 11.6) -/

/-- Station kind codes (section 11.5). -/
def kindCode : StationKind → Byte
  | .none => 0x00
  | .feed => 0x01
  | .insert => 0x02
  | .carrier => 0x03
  | .print => 0x04
  | .caliper => 0x05
  | .verify => 0x06
  | .seal => 0x07
  | .gate => 0x08
  | .stack => 0x09

/-- The station kind of a code, or none for a code naming no kind. -/
def kindOfCode : Nat → Option StationKind
  | 0 => some .none
  | 1 => some .feed
  | 2 => some .insert
  | 3 => some .carrier
  | 4 => some .print
  | 5 => some .caliper
  | 6 => some .verify
  | 7 => some .seal
  | 8 => some .gate
  | 9 => some .stack
  | _ => none

/-- Output source codes (section 11.5). -/
def sourceCode : OutputSource → Byte
  | .station i => BitVec.ofNat 8 i.val
  | .bundleKick => 0x10
  | .trayKick => 0x11
  | .driveRun => 0x12
  | .driveStopRequest => 0x13
  | .lineHolding => 0x14
  | .lineFaulted => 0x15
  | .off => 0x16

/-- The output source of a code, or none for a code naming no source. -/
def sourceOfCode (n : Nat) : Option OutputSource :=
  if h : n < 16 then some (.station ⟨n, h⟩) else
  match n with
  | 16 => some .bundleKick
  | 17 => some .trayKick
  | 18 => some .driveRun
  | 19 => some .driveStopRequest
  | 20 => some .lineHolding
  | 21 => some .lineFaulted
  | 22 => some .off
  | _ => none

/-- Line state codes (section 11.4). -/
def lineCode : LineState → Byte
  | .stopped => 0x00
  | .running => 0x01
  | .holding => 0x02
  | .runOut => 0x03
  | .faulted => 0x04

/-- Fault cause codes of the locator and of the FAULT notice (section 11.6). -/
def faultCode : FaultCause → Byte
  | .estop => 0x01
  | .jam => 0x02
  | .motion => 0x03
  | .printSync => 0x04
  | .printOrder => 0x05
  | .printBacklog => 0x06

/-- Reply status codes (section 11.4). -/
def statusCode : Status → Byte
  | .ok => 0x00
  | .format => 0x01
  | .range => 0x02
  | .state => 0x03
  | .protectedTable => 0x04
  | .locked => 0x05
  | .sequence => 0x06
  | .noBundle => 0x07
  | .overcount => 0x08
  | .duplicate => 0x09
  | .full => 0x0A
  | .config => 0x0B

/-- A set octet or set field from its bits, bit 0 first (R188). -/
def bitsNat : List Bool → Nat
  | [] => 0
  | b :: t => (if b then 1 else 0) + 2 * bitsNat t

/-- The hold-cause set octet (section 11.6). -/
def holdOctet (h : HoldSet) : Byte :=
  BitVec.ofNat 8 (bitsNat [h.command, h.stationLimit, h.caliperDrift, h.linkBacklog])

/-- The fault-cause set octet (section 11.6). -/
def faultOctet (f : FaultSet) : Byte :=
  BitVec.ofNat 8 (bitsNat [f.estop, f.jam, f.motion, f.printSync, f.printOrder, f.printBacklog])

/-- The mark set field, without INSERT_MISS (section 11.6). -/
def markField (m : MarkSet) : Nat :=
  bitsNat [m.mainMiss, m.insertExtra, m.carrierMiss, m.thin, m.thick, m.printFail, m.printUnconfirmed,
    m.verifyAbsent, m.verifyMismatch, m.suspect, m.forced]

/-- The mark code of a STATION_LIMIT notice: bit number plus 1, or 0Ch for INSERT_MISS (section 11.4). -/
def markCode : Mark → Byte
  | .mainMiss => 0x01
  | .insertExtra => 0x02
  | .carrierMiss => 0x03
  | .thin => 0x04
  | .thick => 0x05
  | .printFail => 0x06
  | .printUnconfirmed => 0x07
  | .verifyAbsent => 0x08
  | .verifyMismatch => 0x09
  | .suspect => 0x0A
  | .forced => 0x0B
  | .insertMiss _ => 0x0C

/-- The feeder octet beside a mark code: the feeder of an INSERT_MISS, else 0. -/
def markFeeder : Mark → Nat
  | .insertMiss n => n
  | _ => 0

/-- Notice kind codes (section 11.6). -/
def noticeCode : Notice → Nat
  | .fault .. => 0
  | .holdEntered _ => 1
  | .holdLeft => 2
  | .stationLimit .. => 3
  | .caliperDrift .. => 4
  | .sequenceGap .. => 5
  | .textSubst .. => 6
  | .crcDiscard .. => 7
  | .strayRead .. => 8
  | .bundleTruncated .. => 9
  | .starved _ => 10

/-! ## Table entries (section 11.5) -/

/-- A field of 0 to n − 1 or none, none being FFh. -/
def finOrNone {n : Nat} : Option (Fin n) → Byte
  | none => 0xFF
  | some i => BitVec.ofNat 8 i.val

/-- The 23 octets of a station entry. -/
def stationOctets (e : StationEntry) : List Byte :=
  kindCode e.kind :: BitVec.ofNat 8 e.offset :: octets2 e.phi ++ octets2 e.pulseLength ++
  [finOrNone e.curve, finOrNone e.sensor] ++ octets2 e.windowStart ++ octets2 e.windowEnd ++
  [BitVec.ofNat 8 e.minDetect, BitVec.ofNat 8 e.faultLimit, BitVec.ofNat 8 e.feeder, BitVec.ofNat 8 e.printLead,
   BitVec.ofNat 8 e.sampleExp, boolOctet e.channel] ++ octets2 e.zmax ++ [BitVec.ofNat 8 e.driftLimit] ++
  octets2 e.jamLength

/-- The 26 octets of a curve. -/
def curveOctets (c : Curve) : List Byte :=
  octets2 c.s1 ++ octets2 c.s2 ++ octets2 c.s3 ++ octets2 c.a0 ++ octets2 c.a1 ++ octets2 c.a2 ++ octets2 c.a3 ++
  octets2 c.k0 ++ octets2 c.k1 ++ octets2 c.k2 ++ octets2 c.k3 ++ octets2 c.amin ++ octets2 c.amax

/-- The 11 octets of a plan entry. -/
def planOctets (p : PlanEntry) : List Byte :=
  [boolOctet p.valid, p.values.inserts] ++ octets2 p.values.low1 ++ octets2 p.values.high1 ++
  octets2 p.values.low2 ++ octets2 p.values.high2 ++ [boolOctet p.values.verify]

/-- The 2 octets of an output map entry. -/
def outputOctets (e : OutputEntry) : List Byte := [sourceCode e.source, boolOctet e.inverted]

/-- The motion source code (section 11.5). -/
def motionSourceCode : MotionSource → Byte
  | .encoder => 0x00
  | .simulated => 0x01

/-- The 5 octets of the line profile. -/
def profileOctets (p : LineProfile) : List Byte :=
  octets2 p.p ++ [BitVec.ofNat 8 p.f, motionSourceCode p.source, BitVec.ofNat 8 p.rate]

/-! ## Upstream records (section 11.4) -/

/-- Outcome codes of an ATTEMPT record. -/
def outcomeCode : AttemptOutcome → Byte
  | .diverted => 0x01
  | .swept => 0x02
  | .exception => 0x03
  | .delivered => 0x04

/-- Reason codes of an ATTEMPT record, 00h absent. -/
def reasonCode : Option ExceptionReason → Byte
  | none => 0x00
  | some .planVacant => 0x01
  | some .retryLimit => 0x02
  | some .shortMode => 0x03
  | some .lost => 0x04

/-- Origin codes of an ATTEMPT record, 00h none. -/
def originCode : Option Origin → Byte
  | none => 0x00
  | some .main => 0x01
  | some .remake => 0x02

/-- The 18 octets of an ATTEMPT record. -/
def attemptOctets (a : Attempt) : List Byte :=
  [outcomeCode a.outcome, reasonCode a.reason] ++ octets3 a.seq.toNat ++ octets2 a.bundleNo.toNat ++
  [BitVec.ofNat 8 a.plan.val, originCode a.origin, BitVec.ofNat 8 a.attempts, BitVec.ofNat 8 a.faulted] ++
  octets2 (markField a.marks) ++ [a.marks.insertMiss] ++ octets4 a.pitch.toNat

/-- Reason codes of a STRAY_READ notice. -/
def strayCode : StrayReason → Byte
  | .gap => 0x01
  | .ghost => 0x02
  | .answered => 0x03
  | .noStation => 0x04

/-- The result and value of a STRAY_READ notice. -/
def readOctets : ReadResult → List Byte
  | .value v => 0x01 :: octets2 v.toNat
  | .noRead => [0x02, 0, 0]

/-- Reason codes of a STARVED notice. -/
def starvedCode : StarvedReason → Byte
  | .emptyStaging => 0x01
  | .unresolved => 0x02

/-- The values of a notice in the order of its kind. -/
def noticeValues : Notice → List Byte
  | .fault c st q n => [faultCode c, stationOrNone st] ++ seqOrNone q ++ [BitVec.ofNat 8 n]
  | .holdEntered h => [holdOctet h]
  | .holdLeft => []
  | .stationLimit st k m q =>
    [BitVec.ofNat 8 st.val, kindCode k, markCode m, BitVec.ofNat 8 (markFeeder m)] ++ octets3 q.toNat
  | .caliperDrift st r => BitVec.ofNat 8 st.val :: octets2 r
  | .sequenceGap f n => octets3 f.toNat ++ octets3 n
  | .textSubst q n => octets3 q.toNat ++ [BitVec.ofNat 8 n]
  | .crcDiscard l k => [l, k]
  | .strayRead r v => strayCode r :: readOctets v
  | .bundleTruncated n o e r => octets2 n.toNat ++ octets2 o.toNat ++ octets2 e ++ octets2 r
  | .starved r => [starvedCode r]

/-- The kind octet of an upstream record (section 11.2). -/
def recordKind : Record → Byte
  | .reply .. => 0x81
  | .attempt _ => 0x82
  | .bundleClose .. => 0x83
  | .notice .. => 0x84

/-- The payload of an upstream record. -/
def recordPayload : Record → List Byte
  | .reply ref kind st d data => [ref, kind, statusCode st, d] ++ data
  | .attempt a => attemptOctets a
  | .bundleClose n e d x t g =>
    octets2 n.toNat ++ octets2 e ++ octets2 d ++ octets2 x ++ [boolOctet t] ++ octets2 g.toNat
  | .notice n p => BitVec.ofNat 8 (noticeCode n) :: octets4 p.toNat ++ noticeValues n

/-- The frame in which an upstream record is sent on LTXD (R172). -/
def recordFrame (r : Record) : List Byte := frameOctets (recordKind r) (recordPayload r)

/-! ## Printer messages (section 11.8) -/

/-- The frame of a message sent on PTXD (R192). -/
def printerFrame : PrinterMessage → List Byte
  | .clear => frameOctets 0x01 []
  | .job tag seq lines =>
    frameOctets 0x02 (BitVec.ofNat 8 tag.toNat :: octets3 seq.toNat ++ BitVec.ofNat 8 lines.length ::
      lines.map lengthOctet ++ lines.flatten)

end Sys2Proof.Machine
end

