-- ==== Sys2Proof/Machine/Flags.lean ====
section
/-! DEFINITION. The sets of the part: marks (R60), hold causes (R159), fault causes (section 9.1), notice flags and mask (R182), and the
questions asked of them. -/

namespace Sys2Proof.Machine

/-- The empty mark set. -/
def MarkSet.empty : MarkSet :=
  { mainMiss := false, insertExtra := false, carrierMiss := false, thin := false, thick := false, printFail := false
    printUnconfirmed := false, verifyAbsent := false, verifyMismatch := false, suspect := false, forced := false
    insertMiss := 0 }

/-- The bit of a feeder number in a feeder set: bit n − 1 for feeder n (section 11.4). -/
def feederBit (n : Nat) : BitVec 8 := BitVec.twoPow 8 (n - 1)

/-- Adds a mark; one already present leaves the set as it was (R60). -/
def MarkSet.add (m : MarkSet) : Mark → MarkSet
  | .mainMiss => { m with mainMiss := true }
  | .insertMiss n => { m with insertMiss := m.insertMiss ||| feederBit n }
  | .insertExtra => { m with insertExtra := true }
  | .carrierMiss => { m with carrierMiss := true }
  | .thin => { m with thin := true }
  | .thick => { m with thick := true }
  | .printFail => { m with printFail := true }
  | .printUnconfirmed => { m with printUnconfirmed := true }
  | .verifyAbsent => { m with verifyAbsent := true }
  | .verifyMismatch => { m with verifyMismatch := true }
  | .suspect => { m with suspect := true }
  | .forced => { m with forced := true }

/-- The set holds a fault mark: any mark other than SUSPECT and FORCED (R60). -/
def MarkSet.hasFault (m : MarkSet) : Bool :=
  m.mainMiss || m.insertExtra || m.carrierMiss || m.thin || m.thick || m.printFail || m.printUnconfirmed ||
  m.verifyAbsent || m.verifyMismatch || decide (m.insertMiss ≠ 0)

/-- The set is empty: "has no marks" (R60). -/
def MarkSet.isEmpty (m : MarkSet) : Bool := decide (m = MarkSet.empty)

/-- The empty hold-cause set. -/
def HoldSet.empty : HoldSet :=
  { command := false, stationLimit := false, caliperDrift := false, linkBacklog := false }

/-- The hold-cause set holds no cause. -/
def HoldSet.isEmpty (h : HoldSet) : Bool := !(h.command || h.stationLimit || h.caliperDrift || h.linkBacklog)

/-- Adds a hold cause. -/
def HoldSet.add (h : HoldSet) : HoldCause → HoldSet
  | .command => { h with command := true }
  | .stationLimit => { h with stationLimit := true }
  | .caliperDrift => { h with caliperDrift := true }
  | .linkBacklog => { h with linkBacklog := true }

/-- The set without the causes RESUME removes: LINK_BACKLOG stays (R156). -/
def HoldSet.resumed (h : HoldSet) : HoldSet :=
  { command := false, stationLimit := false, caliperDrift := false, linkBacklog := h.linkBacklog }

/-- The empty fault-cause set. -/
def FaultSet.empty : FaultSet :=
  { estop := false, jam := false, motion := false, printSync := false, printOrder := false, printBacklog := false }

/-- The fault-cause set holds no cause. -/
def FaultSet.isEmpty (f : FaultSet) : Bool :=
  !(f.estop || f.jam || f.motion || f.printSync || f.printOrder || f.printBacklog)

/-- Adds a fault cause. -/
def FaultSet.add (f : FaultSet) : FaultCause → FaultSet
  | .estop => { f with estop := true }
  | .jam => { f with jam := true }
  | .motion => { f with motion := true }
  | .printSync => { f with printSync := true }
  | .printOrder => { f with printOrder := true }
  | .printBacklog => { f with printBacklog := true }

/-- The firing states RUNNING, HOLDING and RUN_OUT (section 9.2). -/
def LineState.firing : LineState → Bool
  | .running => true
  | .holding => true
  | .runOut => true
  | .stopped => false
  | .faulted => false

/-- The notice flags with the flag of a kind set (R182). -/
def setFlag (flags : BitVec 11) (kind : Nat) : BitVec 11 := flags ||| BitVec.twoPow 11 kind

/-- A feeder number is in an insert set. -/
def PlanValues.callsFor (v : PlanValues) (feeder : Nat) : Bool := decide (v.inserts &&& feederBit feeder ≠ 0)

end Sys2Proof.Machine
end

