-- ==== Sys2Proof/Machine/Operands.lean ====
section
/-! DEFINITION. The operands of the link records: the fields of each table entry as the octets of a TABLE-WRITE carry them, with the
range check of each field in layout order (R1, R17, R19, R34, R53, R188, section 11.5). The entry index is field 1. -/

namespace Sys2Proof.Machine

/-- The number of the first failing field, in layout order. -/
def firstFailing (checks : List (Nat × Bool)) : Option Nat := (checks.find? (fun c => !c.2)).map Prod.fst

/-- A field of 0 to n − 1 or none (FFh): `some` of the value, `none` where the code is neither. -/
def finOrNoneOfCode (n code : Nat) : Option (Option (Fin n)) :=
  if h : code < n then some (some ⟨code, h⟩) else if code = 255 then some none else none

/-- The checks of a station entry's fields (section 2.1, section 11.5). -/
def stationChecks (e : List Byte) : List (Nat × Bool) :=
  [(2, (kindOfCode (octetAt e 0)).isSome),
   (3, decide (octetAt e 1 ≤ 63)),
   (4, decide (fieldAt2 e 2 ≤ 8190)),
   (5, decide (1 ≤ fieldAt2 e 4 ∧ fieldAt2 e 4 ≤ 4095)),
   (6, (finOrNoneOfCode 4 (octetAt e 6)).isSome),
   (7, (finOrNoneOfCode 16 (octetAt e 7)).isSome),
   (8, decide (fieldAt2 e 8 ≤ 8190)),
   (9, decide (fieldAt2 e 8 ≤ fieldAt2 e 10 ∧ fieldAt2 e 10 ≤ 8190)),
   (10, decide (1 ≤ octetAt e 12)),
   (11, decide (octetAt e 13 ≤ 15)),
   (12, decide (1 ≤ octetAt e 14 ∧ octetAt e 14 ≤ 8)),
   (13, decide (1 ≤ octetAt e 15 ∧ octetAt e 15 ≤ 8)),
   (14, decide (octetAt e 16 ≤ 4)),
   (15, decide (octetAt e 17 ≤ 1)),
   (16, decide (fieldAt2 e 18 ≤ 1023)),
   (17, decide (octetAt e 20 ≤ 15))]

/-- The station entry that octets carry. -/
def stationOfOctets (e : List Byte) : StationEntry :=
  { kind := (kindOfCode (octetAt e 0)).getD .none
    offset := octetAt e 1
    phi := fieldAt2 e 2
    pulseLength := fieldAt2 e 4
    curve := (finOrNoneOfCode 4 (octetAt e 6)).getD none
    sensor := (finOrNoneOfCode 16 (octetAt e 7)).getD none
    windowStart := fieldAt2 e 8
    windowEnd := fieldAt2 e 10
    minDetect := octetAt e 12
    faultLimit := octetAt e 13
    feeder := octetAt e 14
    printLead := octetAt e 15
    sampleExp := octetAt e 16
    channel := decide (octetAt e 17 = 1)
    zmax := fieldAt2 e 18
    driftLimit := octetAt e 20
    jamLength := fieldAt2 e 21 }

/-- The checks of a curve's fields: each at most 4095, s1 < s2 < s3, amin ≤ amax (R19, section 11.5). -/
def curveChecks (e : List Byte) : List (Nat × Bool) :=
  [(2, decide (fieldAt2 e 0 ≤ 4095)),
   (3, decide (fieldAt2 e 0 < fieldAt2 e 2 ∧ fieldAt2 e 2 ≤ 4095)),
   (4, decide (fieldAt2 e 2 < fieldAt2 e 4 ∧ fieldAt2 e 4 ≤ 4095)),
   (5, decide (fieldAt2 e 6 ≤ 4095)),
   (6, decide (fieldAt2 e 8 ≤ 4095)),
   (7, decide (fieldAt2 e 10 ≤ 4095)),
   (8, decide (fieldAt2 e 12 ≤ 4095)),
   (9, decide (fieldAt2 e 14 ≤ 4095)),
   (10, decide (fieldAt2 e 16 ≤ 4095)),
   (11, decide (fieldAt2 e 18 ≤ 4095)),
   (12, decide (fieldAt2 e 20 ≤ 4095)),
   (13, decide (fieldAt2 e 22 ≤ 4095)),
   (14, decide (fieldAt2 e 22 ≤ fieldAt2 e 24 ∧ fieldAt2 e 24 ≤ 4095))]

/-- The curve that octets carry. -/
def curveOfOctets (e : List Byte) : Curve :=
  { s1 := fieldAt2 e 0, s2 := fieldAt2 e 2, s3 := fieldAt2 e 4
    a0 := fieldAt2 e 6, a1 := fieldAt2 e 8, a2 := fieldAt2 e 10, a3 := fieldAt2 e 12
    k0 := fieldAt2 e 14, k1 := fieldAt2 e 16, k2 := fieldAt2 e 18, k3 := fieldAt2 e 20
    amin := fieldAt2 e 22, amax := fieldAt2 e 24 }

/-- The checks of a plan entry's fields (R53, section 11.5). -/
def planChecks (e : List Byte) : List (Nat × Bool) :=
  [(2, decide (octetAt e 0 ≤ 1)),
   (4, decide (fieldAt2 e 2 ≤ 1023)),
   (5, decide (fieldAt2 e 2 ≤ fieldAt2 e 4 ∧ fieldAt2 e 4 ≤ 1023)),
   (6, decide (fieldAt2 e 6 ≤ 1023)),
   (7, decide (fieldAt2 e 6 ≤ fieldAt2 e 8 ∧ fieldAt2 e 8 ≤ 1023)),
   (8, decide (octetAt e 10 ≤ 1))]

/-- The plan entry that octets carry. -/
def planOfOctets (e : List Byte) : PlanEntry :=
  { valid := decide (octetAt e 0 = 1)
    values :=
      { inserts := BitVec.ofNat 8 (octetAt e 1)
        low1 := fieldAt2 e 2, high1 := fieldAt2 e 4, low2 := fieldAt2 e 6, high2 := fieldAt2 e 8
        verify := decide (octetAt e 10 = 1) } }

/-- The checks of an output map entry's fields (R34, section 11.5). -/
def outputChecks (e : List Byte) : List (Nat × Bool) :=
  [(2, (sourceOfCode (octetAt e 0)).isSome), (3, decide (octetAt e 1 ≤ 1))]

/-- The output map entry that octets carry. -/
def outputOfOctets (e : List Byte) : OutputEntry :=
  { source := (sourceOfCode (octetAt e 0)).getD .off, inverted := decide (octetAt e 1 = 1) }

/-- The checks of the line profile's fields (R1, section 11.5); every octet is in the range of F. -/
def profileChecks (e : List Byte) : List (Nat × Bool) :=
  [(2, decide (64 ≤ fieldAt2 e 0 ∧ fieldAt2 e 0 ≤ 8191)),
   (3, decide (octetAt e 2 ≤ 255)),
   (4, decide (octetAt e 3 ≤ 1)),
   (5, decide (1 ≤ octetAt e 4))]

/-- The line profile that octets carry. -/
def profileOfOctets (e : List Byte) : LineProfile :=
  { p := fieldAt2 e 0
    f := octetAt e 2
    source := if octetAt e 3 = 1 then .simulated else .encoder
    rate := octetAt e 4 }

/-- The five tables (section 11.3). -/
inductive Table where
  | station
  | curve
  | plan
  | outputMap
  | lineProfile
  deriving DecidableEq, Repr

/-- The table of a table code, or none. -/
def tableOfCode : Nat → Option Table
  | 1 => some .station
  | 2 => some .curve
  | 3 => some .plan
  | 4 => some .outputMap
  | 5 => some .lineProfile
  | _ => none

/-- Table codes (section 11.3). -/
def tableCode : Table → Nat
  | .station => 1
  | .curve => 2
  | .plan => 3
  | .outputMap => 4
  | .lineProfile => 5

/-- The payload length of a TABLE-WRITE to a table (section 11.3). -/
def tableWriteLength : Table → Nat
  | .station => 26
  | .curve => 29
  | .plan => 14
  | .outputMap => 5
  | .lineProfile => 8

/-! ## The COPY record (R40, R189) -/

/-- The line-length octets that a COPY payload carries. -/
def copyLengths (payload : List Byte) : List Nat :=
  ((payload.drop 8).take (octetAt payload 7)).map BitVec.toNat

/-- The text octets of a COPY payload. -/
def copyText (payload : List Byte) : List Byte := payload.drop (8 + octetAt payload 7)

/-- The FORMAT check of a COPY record: the detail of the first reason that applies (R40, R189). -/
def copyFormat (payload : List Byte) : Option Byte :=
  if payload.length < 8 then some 0x03
  else if octetAt payload 7 = 0 ∨ 6 < octetAt payload 7 then some 0x01
  else if (copyLengths payload).any (fun n => decide (40 < n)) then some 0x02
  else if (copyLengths payload).length < octetAt payload 7 ∨ (copyLengths payload).sum ≠ (copyText payload).length then
    some 0x03
  else none

/-- Cuts the text octets into lines of the given lengths. -/
def cutLines : List Nat → List Byte → List (List Byte)
  | [], _ => []
  | n :: t, l => l.take n :: cutLines t (l.drop n)

/-- A character outside 20h to 7Eh (R44). -/
def outsideText (c : Byte) : Bool := decide (c.toNat < 0x20 ∨ 0x7E < c.toNat)

/-- The character stored for a character received: a space for one outside 20h to 7Eh (R44). -/
def storedChar (c : Byte) : Byte := if outsideText c then 0x20 else c

end Sys2Proof.Machine
end

