-- ==== Sys2Proof/Machine/Ops.lean ====
section
/-! DEFINITION. The operations that the units share: reading a track position and marking it, the upstream queue and its room, notices,
the hold-cause set, leaving the firing states, stop-class faults and the track-clear report. Each takes the state last. -/

namespace Sys2Proof.Machine

/-- The sixteen station numbers in rising order. -/
def stationNos : List StationNo := [0, 1, 2, 3, 4, 5, 6, 7, 8, 9, 10, 11, 12, 13, 14, 15]

/-- One entry of a vector changed. -/
def modifyAt {α : Type} {n : Nat} (v : Vector α n) (i : Fin n) (f : α → α) : Vector α n :=
  v.set i.val (f v[i]) i.isLt

/-- Every entry of a vector changed, each by its own number. -/
def mapAll {α β : Type} {n : Nat} (v : Vector α n) (f : Fin n → α → β) : Vector β n :=
  Vector.ofFn (fun i => f i v[i])

/-- A 16-bit counter that saturates at 65,535 (section 10.9). -/
def bump (n : Nat) : Nat := min (n + 1) 65535

/-- A count held at 255 (R118, R163). -/
def bump255 (n : Nat) : Nat := min (n + 1) 255

/-- The entry of a station in the station table. -/
def State.station (s : State) (i : StationNo) : StationEntry := s.fu.stations[i]

/-- The Firing Unit's working state of a station. -/
def State.fireWork (s : State) (i : StationNo) : FireWork := s.fu.work[i]

/-- The Check Unit's working state of a station. -/
def State.checkWork (s : State) (i : StationNo) : CheckWork := s.cu.work[i]

/-- Changes the Firing Unit's working state of a station. -/
def setFireWork (i : StationNo) (f : FireWork → FireWork) (s : State) : State :=
  { s with fu := { s.fu with work := modifyAt s.fu.work i f } }

/-- Changes the Check Unit's working state of a station. -/
def setCheckWork (i : StationNo) (f : CheckWork → CheckWork) (s : State) : State :=
  { s with cu := { s.cu with work := modifyAt s.cu.work i f } }

/-- Runs an operation for every station, in station-number order. -/
def forStations (f : StationNo → State → State) (s : State) : State :=
  stationNos.foldl (fun s i => f i s) s

/-- The stations of a kind, in station-number order. -/
def State.stationsOf (s : State) (k : StationKind) : List StationNo :=
  stationNos.filter (fun i => decide ((s.station i).kind = k))

/-- The lowest-numbered station of a kind (R88, R101). -/
def State.firstOf (s : State) (k : StationKind) : Option StationNo := (s.stationsOf k).head?

/-- The line is in a firing state. -/
def State.firing (s : State) : Bool := s.lc.line.firing

/-! ## Track positions (R62, R63) -/

/-- The track length T. -/
def State.trackLen (s : State) : Nat := s.tu.track.length

/-- What a position holds; one at or beyond T holds EMPTY (R63). -/
def State.contentAt (s : State) (pos : Nat) : Content := s.tu.track.getD pos .empty

/-- Puts a content on a position of the track. -/
def setContent (pos : Nat) (c : Content) (s : State) : State :=
  { s with tu := { s.tu with track := s.tu.track.set pos c } }

/-- A content with its context changed; EMPTY and a GHOST stay. -/
def Content.mapContext (f : Context → Context) : Content → Content
  | .copy c => .copy (f c)
  | c => c

/-- Changes the context at a position, if it holds one. -/
def modifyContext (pos : Nat) (f : Context → Context) (s : State) : State :=
  { s with tu := { s.tu with track := s.tu.track.modify pos (Content.mapContext f) } }

/-- A context with a mark added (R60). -/
def Context.mark (m : Mark) (c : Context) : Context := { c with marks := c.marks.add m }

/-- Adds a mark to the context at a position, if it holds one. -/
def markAt (pos : Nat) (m : Mark) : State → State := modifyContext pos (Context.mark m)

/-- A request for SUSPECT on the context at a position; no effect on EMPTY and GHOST (R71). -/
def suspectAt (pos : Nat) : State → State := markAt pos .suspect

/-- The sequence of the context at a position, or none (R63, R164). -/
def State.seqAt (s : State) (pos : Nat) : Option Seq :=
  match s.contentAt pos with
  | .copy c => some c.copy.seq
  | _ => none

/-- A content is a context or a GHOST. -/
def Content.occupied : Content → Bool
  | .empty => false
  | _ => true

/-- A content is a context. -/
def Content.isCopy : Content → Bool
  | .copy _ => true
  | _ => false

/-- The print tag of a context or GHOST. -/
def Content.tag : Content → Option Tag
  | .empty => none
  | .copy c => c.tag
  | .ghost t => t

/-- The track holds a context or a GHOST. -/
def State.trackOccupied (s : State) : Bool := s.tu.track.any Content.occupied

/-- The number of contexts on the track: "track copies" (R75). -/
def State.trackCopies (s : State) : Nat := s.tu.track.countP Content.isCopy

/-! ## The upstream queue and notices (R182, R184) -/

/-- An entry in ARRIVED, RESOLVING or RESOLVED. -/
def StagingEntry.staged : StagingEntry → Bool
  | .free => false
  | .receiving => false
  | _ => true

/-- The staging fill (R47). -/
def State.stagingFill (s : State) : Nat := s.au.staging.toList.countP StagingEntry.staged

/-- The queue has 80 or more free places: 256 minus its records minus the staging fill (R176, R184). -/
def State.hasRoom (s : State) : Bool := decide (s.ll.upstream.length + s.stagingFill + 80 ≤ 256)

/-- Places a record at the tail of the upstream queue (R184). -/
def place (r : Record) (s : State) : State :=
  { s with ll := { s.ll with upstream := s.ll.upstream ++ [r] } }

/-- Places records in order. -/
def placeAll (rs : List Record) (s : State) : State :=
  { s with ll := { s.ll with upstream := s.ll.upstream ++ rs } }

/-- Raises a notice: sets its flag, then places its record if ENABLED and room allows, else counts NOTICES_DROPPED if
ENABLED (R182). -/
def raiseNotice (n : Notice) (s : State) : State :=
  let s1 := { s with ll := { s.ll with flags := setFlag s.ll.flags (noticeCode n) } }
  if s.ll.mask.getLsbD (noticeCode n) then
    if s.hasRoom then place (.notice n s.mu.pitch) s1
    else { s1 with ll := { s1.ll with noticesDropped := bump s1.ll.noticesDropped } }
  else s1

/-- What the owner of a record answers: the status, the detail octet and the data of its REPLY (R177, R190). -/
structure Answer where
  status : Status
  detail : Byte
  data : List Byte
  deriving DecidableEq, Repr

/-- An answer OK. -/
def Answer.ok (detail : Byte) (data : List Byte) : Answer := { status := .ok, detail := detail, data := data }

/-- A refusal without data. -/
def Answer.refusal (status : Status) (detail : Byte) : Answer := { status := status, detail := detail, data := [] }

/-- The first failing field of a record, or none (R188). -/
def rangeAnswer (checks : List (Nat × Bool)) : Option Answer :=
  (firstFailing checks).map (fun n => .refusal .range (BitVec.ofNat 8 n))

/-! ## Hold causes (R152, R159) -/

/-- The line state written. -/
def setLine (l : LineState) (s : State) : State := { s with lc := { s.lc with line := l } }

/-- A hold cause joins the set; joining an empty set takes RUNNING to HOLDING with HOLD_ENTERED (R152). -/
def addHold (c : HoldCause) (s : State) : State :=
  let s1 := { s with lc := { s.lc with holds := s.lc.holds.add c } }
  if s.lc.holds.isEmpty ∧ s.lc.line = .running then raiseNotice (.holdEntered s1.lc.holds) (setLine .holding s1)
  else s1

/-- The set becomes `h` by removal; the last cause leaving takes HOLDING to RUNNING with HOLD_LEFT (R152). -/
def reduceHolds (h : HoldSet) (s : State) : State :=
  let s1 := { s with lc := { s.lc with holds := h } }
  if h.isEmpty ∧ ¬ s.lc.holds.isEmpty ∧ s.lc.line = .holding then raiseNotice .holdLeft (setLine .running s1)
  else s1

/-! ## Leaving the firing states (R32, R85, R5) -/

/-- A measurement in progress is abandoned: NOT_TAKEN, and SUSPECT on a context at the station (R85). -/
def abandonMeasurement (i : StationNo) (s : State) : State :=
  if (s.station i).kind = .caliper ∧ (s.checkWork i).measure = .measuring then
    suspectAt (s.station i).offset (setCheckWork i (fun w => { w with measure := .notTaken }) s)
  else s

/-- Every station and kick pulse ends (R32). -/
def endPulses (s : State) : State :=
  { s with fu :=
      { s.fu with
        work := mapAll s.fu.work (fun _ w => { w with pulse := false })
        bundleKick := false
        trayKick := false } }

/-- What every passage out of the firing states does: pulses end, measurements are abandoned, the simulated source stops. -/
def leaveFiring (s : State) : State :=
  let s1 := forStations abandonMeasurement (endPulses s)
  { s1 with mu := { s1.mu with sim := .stopped } }

/-- The line state becomes one outside the firing states. -/
def stopLine (l : LineState) (s : State) : State :=
  if s.firing then leaveFiring (setLine l s) else setLine l s

/-- TU's "track clear" report at an event that has taken a context or GHOST off the track: it ends RUN_OUT (R62, R157). -/
def reportTrackClear (s : State) : State :=
  if s.lc.line = .runOut ∧ ¬ s.trackOccupied then stopLine .stopped s else s

/-! ## Stop-class faults (R162, R163, R164) -/

/-- A stop-class fault taken outside FAULTED begins an episode (R162). -/
def beginEpisode (c : FaultCause) (st : Option StationNo) (s : State) : State :=
  let q := st.bind (fun i => s.seqAt (s.station i).offset)
  let s1 := stopLine .faulted s
  let s2 := { s1 with lc :=
      { s1.lc with
        faults := FaultSet.empty.add c
        further := 0
        locator := if s.lc.armed then some { cause := c, station := st, pitch := s.mu.pitch, seq := q } else s.lc.locator
        armed := false } }
  raiseNotice (.fault c st q 0) s2

/-- A stop-class fault taken while FAULTED is a further fault (R163). -/
def furtherFault (c : FaultCause) (st : Option StationNo) (s : State) : State :=
  let q := st.bind (fun i => s.seqAt (s.station i).offset)
  let s1 := { s with lc := { s.lc with faults := s.lc.faults.add c, further := bump255 s.lc.further } }
  raiseNotice (.fault c st q s1.lc.further) s1

/-- A stop-class fault with its cause and the station its reporter names. -/
def stopFault (c : FaultCause) (st : Option StationNo) (s : State) : State :=
  if s.lc.line = .faulted then furtherFault c st s else beginEpisode c st s

/-! ## The text pool and staging (R46, R38) -/

/-- Returns a copy's text blocks to the free set (R46). -/
def freeText (blocks : List Nat) (s : State) : State :=
  { s with au := { s.au with blocksUsed := releaseBlocks s.au.blocksUsed blocks } }

/-- Sets a staging entry. -/
def setEntry (i : Fin 16) (e : StagingEntry) (s : State) : State :=
  { s with au := { s.au with staging := s.au.staging.set i.val e i.isLt } }

/-- An entry becomes FREE and leaves the arrival order (R47). -/
def freeEntry (i : Fin 16) (s : State) : State :=
  let s1 := setEntry i .free s
  { s1 with au := { s1.au with order := s1.au.order.filter (fun j => decide (j ≠ i)) } }

/-- The sixteen staging entry numbers in rising order. -/
def entryNos : List (Fin 16) := [0, 1, 2, 3, 4, 5, 6, 7, 8, 9, 10, 11, 12, 13, 14, 15]

/-- The lowest-numbered FREE entry (R38). -/
def State.freeStaging (s : State) : Option (Fin 16) := entryNos.find? (fun i => decide (s.au.staging[i] = .free))

/-- The entry in RECEIVING, reserved for the COPY frame arriving (R38). -/
def State.receivingEntry (s : State) : Option (Fin 16) :=
  entryNos.find? (fun i => decide (s.au.staging[i] = .receiving))

/-- The number of FREE entries (R43). -/
def State.freeEntries (s : State) : Nat := s.au.staging.toList.countP (fun e => decide (e = .free))

/-- A COPY kind octet reserves the lowest FREE entry, if there is one (R38). -/
def reserveEntry (s : State) : State :=
  match s.freeStaging with
  | none => s
  | some i =>
    let s1 := setEntry i .receiving s
    { s1 with au := { s1.au with order := s1.au.order ++ [i] } }

/-- A discarded or refused COPY frame returns its RECEIVING entry to FREE (R38, R39). -/
def freeReceiving (s : State) : State :=
  match s.receivingEntry with
  | none => s
  | some i => freeEntry i s

end Sys2Proof.Machine
end

