-- ==== Sys2Proof/Machine/Bundles.lean ====
section
/-! DEFINITION. The Bundle Unit's operations: counts, completion and close, the stack event and LOST copies, opening a bundle
(spec/08_bundles_and_stacking.md). -/

namespace Sys2Proof.Machine

/-- The bundle of an ordinal in the table. -/
def State.bundle (s : State) (ordinal : Word16) : Option Bundle :=
  s.bu.table.find? (fun b => decide (b.ordinal = ordinal))

/-- Changes the bundle of an ordinal. -/
def modifyBundle (ordinal : Word16) (f : Bundle → Bundle) (s : State) : State :=
  { s with bu := { s.bu with table := s.bu.table.map (fun b => if b.ordinal = ordinal then f b else b) } }

/-- The test of R144: receipt ended and every copy accounted for. -/
def Bundle.done (b : Bundle) : Bool := !b.receiving && decide (b.delivered + b.excepted = b.expected)

/-- The BUNDLE-CLOSE record of a bundle (R145). -/
def Bundle.closeRecord (b : Bundle) : Record :=
  .bundleClose b.number b.expected b.delivered b.excepted b.truncated b.digest

/-- Closes the COMPLETE bundles from the lowest up: their BUNDLE-CLOSE records, a kick for each that delivered a copy, and
the receiving bundle none if it is one of them (R145). DESIGN CHOICE: the kick joins the list whatever its length, although
R147 says that it never holds more than 8 (notes/assumptions/33.md). -/
def closeBundles (s : State) : State :=
  let closed := s.bu.table.takeWhile Bundle.complete
  let s1 := { s with bu :=
      { s.bu with
        table := s.bu.table.dropWhile Bundle.complete
        kicks := s.bu.kicks ++ (closed.filter (fun b => decide (0 < b.delivered))).map Bundle.trayBreak
        receiving := if closed.any (fun b => decide (s.bu.receiving = some b.ordinal)) then none else s.bu.receiving } }
  placeAll (closed.map Bundle.closeRecord) s1

/-- Tests the bundle of an ordinal for completion, and if it becomes COMPLETE closes what can be closed (R144, R145). -/
def testComplete (ordinal : Word16) (s : State) : State :=
  match s.bundle ordinal with
  | none => s
  | some b =>
    if b.done ∧ ¬ b.complete then closeBundles (modifyBundle ordinal (fun b => { b with complete := true }) s) else s

/-- One more excepted copy for a bundle, without the test for completion. -/
def countExcepted (ordinal : Word16) : State → State :=
  modifyBundle ordinal (fun b => { b with excepted := b.excepted + 1 })

/-- One more delivered copy for a bundle, with its digest (R141). -/
def countDelivered (ordinal : Word16) (seq : Seq) : State → State :=
  modifyBundle ordinal (fun b => { b with delivered := b.delivered + 1, digest := b.digest + seq.setWidth 16 })

/-- The ATTEMPT record of a context at an event in a pitch (R126). -/
def Context.record (c : Context) (o : AttemptOutcome) (r : Option ExceptionReason) (pitch : PitchIndex) : Record :=
  .attempt { outcome := o, reason := r, seq := c.copy.seq, bundleNo := c.copy.bundleNo, plan := c.copy.plan
             origin := some c.origin, attempts := c.attempts, faulted := c.faulted, marks := c.marks, pitch := pitch }

/-- A context with one more attempt, held at 255. -/
def Context.attempted (c : Context) : Context := { c with attempts := bump255 c.attempts }

/-- The context at T − 1 is delivered (R141). -/
def deliver (c : Context) (s : State) : State :=
  s |> setContent (s.trackLen - 1) .empty
    |> countDelivered c.copy.ordinal c.copy.seq
    |> place (c.attempted.record .delivered none s.mu.pitch)
    |> freeText c.copy.blocks
    |> testComplete c.copy.ordinal
    |> reportTrackClear

/-- The context at T − 1 is a LOST exception of a pitch (R142, R143). -/
def lose (c : Context) (pitch : PitchIndex) (s : State) : State :=
  s |> setContent (s.trackLen - 1) .empty
    |> place (c.attempted.record .exception (some .lost) pitch)
    |> countExcepted c.copy.ordinal
    |> freeText c.copy.blocks
    |> testComplete c.copy.ordinal
    |> reportTrackClear

/-- The Check Unit's answer for the STACK station: detected if its flag is set or it has no sensor (R81). -/
def State.stackDetected (s : State) (i : StationNo) : Bool :=
  decide ((s.station i).sensor = none) || (s.checkWork i).detected

/-- The stack event at a STACK fire point in a firing state (R141, R142). -/
def stackEvent (i : StationNo) (s : State) : State :=
  match s.contentAt (s.trackLen - 1) with
  | .copy c => if s.stackDetected i then deliver c s else lose c s.mu.pitch s
  | _ => s

/-- The pitch in progress may still take its kick: the line is in a firing state at the take, and no kick has been taken in
the pitch (R30, R147, R193). -/
def State.mayKick (s : State) : Bool := s.firing && !s.fu.kickTaken

/-- The kick take after the stack event: the head of the pending kick list, one per pitch and only if the line is still in a
firing state (R30, R147, R193). The kick pulses end with the STACK station's pulse length. A second STACK fire point in one
pitch, which station writes in STOPPED and a START can bring (notes/assumptions/32.md), takes no second kick: DEDUCED from
"one per pitch" (notes/assumptions/38.md). -/
def takeKick (i : StationNo) (s : State) : State :=
  match s.bu.kicks with
  | [] => s
  | tray :: rest =>
    if s.mayKick then
      { s with
        bu := { s.bu with kicks := rest }
        fu := { s.fu with
          bundleKick := true
          trayKick := tray
          kickEnd := (s.fireWork i).e + (s.station i).pulseLength
          kickTaken := true } }
    else s

/-! ## Opening a bundle (R134 to R136) -/

/-- The receiving bundle's receipt ends at the next BUNDLE-OPEN; a short one is truncated (R135, R136). -/
def endReceipt (s : State) : State :=
  match s.bu.receiving.bind s.bundle with
  | none => s
  | some b =>
    if b.receiving then
      if b.received < b.expected then
        s |> modifyBundle b.ordinal (fun b => { b with receiving := false, expected := b.received, truncated := true })
          |> raiseNotice (.bundleTruncated b.number b.ordinal b.expected b.received)
          |> testComplete b.ordinal
      else modifyBundle b.ordinal (fun b => { b with receiving := false }) s
    else s

/-- The checks of a BUNDLE-OPEN record's fields (R134, section 11.3). -/
def bundleChecks (payload : List Byte) : List (Nat × Bool) :=
  [(2, decide (1 ≤ fieldAt2 payload 3 ∧ fieldAt2 payload 3 ≤ 999)),
   (3, decide (octetAt payload 5 ≤ 1)),
   (4, decide (octetAt payload 6 ≤ 7)),
   (5, decide (octetAt payload 7 ≤ 1))]

/-- The new bundle record of an accepted BUNDLE-OPEN (R135). -/
def bundleOfPayload (payload : List Byte) (ordinal : Word16) : Bundle :=
  { ordinal := ordinal, number := BitVec.ofNat 16 (fieldAt2 payload 1), expected := fieldAt2 payload 3
    mode := if octetAt payload 5 = 1 then .short else .remake
    retryLimit := octetAt payload 6, trayBreak := decide (octetAt payload 7 = 1)
    receiving := true, received := 0, delivered := 0, excepted := 0, truncated := false, digest := 0, complete := false }

/-- Makes the new receiving bundle (R135). -/
def openBundle (payload : List Byte) (s : State) : State :=
  let s1 := endReceipt s
  { s1 with bu :=
      { s1.bu with
        table := s1.bu.table ++ [bundleOfPayload payload s1.bu.nextOrdinal]
        nextOrdinal := s1.bu.nextOrdinal + 1
        receiving := some s1.bu.nextOrdinal } }

/-- A COPY accepted counts received for the receiving bundle, whose receipt ends at its expected count (R138). -/
def countReceived (ordinal : Word16) : State → State :=
  modifyBundle ordinal (fun b =>
    { b with received := b.received + 1, receiving := b.receiving && decide (b.received + 1 ≠ b.expected) })

end Sys2Proof.Machine
end

