-- ==== Sys2Proof/Machine/PrinterUnit.lean ====
section
/-! DEFINITION. The Printer Port's operations: CLEAR, withdrawal, job dispatch, the PRINT fire point, the gate link and the arrivals of
CLEARED, TAKEN and DONE (spec/06_the_addressing_printer_port.md). -/

namespace Sys2Proof.Machine

/-- A counter of the printer port changed. -/
def countPrintStray (s : State) : State := { s with pp := { s.pp with stray := bump s.pp.stray } }

/-- Sends CLEAR, unless 255 are outstanding or one already waits unsent behind the message being sent (R98); a port that
was SYNCHRONISED has one outstanding in either case (R110, notes/assumptions/9.md). -/
def sendClear (s : State) : State :=
  if s.pp.clears = 255 then s
  else if PrinterMessage.clear ∈ s.pp.transmit.tail then
    { s with pp := { s.pp with clears := max s.pp.clears 1 } }
  else { s with pp := { s.pp with transmit := s.pp.transmit ++ [.clear], clears := s.pp.clears + 1 } }

/-- A queued message that is no JOB. -/
def PrinterMessage.isClear : PrinterMessage → Bool
  | .clear => true
  | .job .. => false

/-- The transmit queue with every JOB whose sending has not begun dropped; the head is being sent (R102, R110). -/
def dropJobs (q : List PrinterMessage) : List PrinterMessage := q.take 1 ++ q.tail.filter PrinterMessage.isClear

/-- The list holds a job with this tag. -/
def hasJob (jobs : List Job) (t : Tag) : Bool := jobs.any (fun j => decide (j.tag = t))

/-- A withdrawal's effect on a track position: a context whose tag names a job gets SUSPECT and loses its tag, a GHOST
loses its tag (R102). -/
def withdrawContent (jobs : List Job) : Content → Content
  | .empty => .empty
  | .copy c => if (c.tag.map (hasJob jobs)).getD false then .copy { c.mark .suspect with tag := none } else .copy c
  | .ghost t => if (t.map (hasJob jobs)).getD false then .ghost none else .ghost t

/-- A withdrawal gives up every job the part holds (R102). -/
def withdraw (s : State) : State :=
  let s1 := { s with
    tu := { s.tu with track := s.tu.track.map (withdrawContent s.pp.jobs) }
    gm := { s.gm with queue := s.gm.queue.map (fun c => { c with tag := none }) }
    pp := { s.pp with
      transmit := dropJobs s.pp.transmit
      jobs := []
      nextTag := 0
      synchronised := false } }
  if s.pp.synchronised then sendClear s1 else s1

/-- The track position of a job in a pitch: its lead position plus the boundaries since its dispatch, modulo 2^32 (R100). -/
def Job.position (j : Job) (pitch : PitchIndex) : Nat := j.lead + (pitch - j.dispatch).toNat

/-- The stored address lines of a copy, read from the text pool (R97, R192). -/
def State.textOf (s : State) (c : StagedCopy) : List (List Byte) :=
  readText c.lineCount (s.au.pool.loadBlocks c.blocks)

/-- Makes the job of a context at the lead position (R101). -/
def makeJob (lead : Nat) (c : Context) (s : State) : State :=
  let s1 := { s with pp :=
      { s.pp with
        jobs := s.pp.jobs ++
          [{ tag := s.pp.nextTag, lead := lead, dispatch := s.mu.pitch, taken := false, triggered := false }]
        transmit := s.pp.transmit ++ [.job s.pp.nextTag c.copy.seq (s.textOf c.copy)]
        nextTag := s.pp.nextTag + 1 } }
  modifyContext lead (fun c => { c with tag := some s.pp.nextTag }) s1

/-- Job dispatch at the boundary, at the print lead position λ of the lowest-numbered PRINT station (R101). DESIGN CHOICE: a
context that a PRINT station write in STOPPED lets meet λ again is due a job again, though R101 says that it meets λ once: its
second job's tag overwrites the first, whose job stays listed, and where no job is made the old tag stays
(notes/assumptions/35.md). -/
def dispatchJob (s : State) : State :=
  match s.firstOf .print with
  | none => s
  | some i =>
    if (s.station i).offset < (s.station i).printLead then s
    else
      let lead := (s.station i).offset - (s.station i).printLead
      match s.contentAt lead with
      | .copy c =>
        if ¬ s.pp.synchronised then suspectAt lead s
        else if s.pp.jobs.length < 16 then makeJob lead c s
        else suspectAt lead (stopFault .printBacklog (some i) s)
      | _ => s

/-- The tag names the oldest job not yet triggered, and that job is TAKEN (R104). -/
def triggerable (jobs : List Job) (t : Tag) : Bool :=
  match jobs.find? (fun j => !j.triggered) with
  | some j => decide (j.tag = t) && j.taken
  | none => false

/-- A FIRED outcome at the PRINT station: the job is triggered, or PRINT_SYNC and a withdrawal (R104). DESIGN CHOICE: a tag
that names no job of the list is a failure too, and its copy, which R102 step 2 does not reach, gets no SUSPECT
(notes/assumptions/28.md). -/
def printFired (i : StationNo) (s : State) : State :=
  match (s.contentAt (s.station i).offset).tag with
  | none => s
  | some t =>
    if triggerable s.pp.jobs t then
      { s with pp := { s.pp with
          jobs := s.pp.jobs.map (fun j => if j.tag = t then { j with triggered := true } else j) } }
    else withdraw (stopFault .printSync (some i) s)

/-- A SKIPPED or NOT_REACHED outcome at the PRINT station: SUSPECT on a context, and a withdrawal if the position carries a
tag (R105). -/
def printNotTaken (i : StationNo) (s : State) : State :=
  let pos := (s.station i).offset
  let s1 := suspectAt pos s
  if (s.contentAt pos).tag.isSome then withdraw s1 else s1

/-- The mark that the Printer Port adds to a context at its gate decision, before the marks are read (R108). -/
def printConfirmation (firing : Bool) (g : Nat) (pitch : PitchIndex) (jobs : List Job) (c : Context) : Option Mark :=
  let missing : Mark := if firing then .printUnconfirmed else .suspect
  match c.tag with
  | some t => if jobs.any (fun j => decide (j.tag = t ∧ j.position pitch = g)) then some missing else none
  | none => if c.marks.suspect then none else some missing

/-! ## Arrivals -/

/-- CLEARED arrives (R99). -/
def printerCleared (s : State) : State :=
  if s.pp.synchronised then countPrintStray s
  else
    { s with pp := { s.pp with
        clears := s.pp.clears - 1
        synchronised := decide (s.pp.clears - 1 = 0) } }

/-- TAKEN arrives (R103). -/
def printerTaken (t : Tag) (s : State) : State :=
  if s.pp.synchronised ∧ s.pp.jobs.any (fun j => decide (j.tag = t ∧ j.taken = false)) then
    { s with pp := { s.pp with
        jobs := s.pp.jobs.map (fun j => if j.tag = t then { j with taken := true } else j) } }
  else countPrintStray s

/-- The copy of a job at this position is still before the gate, or at it and undecided (R107). -/
def State.beforeGate (s : State) (pos : Nat) : Bool :=
  match s.tu.gate with
  | none => false
  | some g => decide (pos < g) || (decide (pos = g) && !s.gm.decided)

/-- PRINT_FAIL on the context of a failed job, where it still stands before the gate decision (R107). -/
def printFailed (j : Job) (s : State) : State :=
  let pos := j.position s.mu.pitch
  match s.contentAt pos with
  | .copy c => if s.beforeGate pos ∧ c.tag = some j.tag then markAt pos .printFail s else s
  | _ => s

/-- DONE arrives: in order it removes the head job; out of order it is PRINT_ORDER and a withdrawal; UNSYNCHRONISED it is
stray (R106, R107). DESIGN CHOICE: the JOB message of the head job, if it still waits in the transmit queue, stays there
and is sent, so that the queue may come to hold more than 16 JOB messages (R97; notes/assumptions/29.md). -/
def printerDone (t : Tag) (r : PrintResult) (s : State) : State :=
  if ¬ s.pp.synchronised then countPrintStray s
  else
    match s.pp.jobs with
    | j :: rest =>
      if j.tag = t ∧ j.triggered then
        let s1 := { s with pp := { s.pp with jobs := rest } }
        match r with
        | .ok => s1
        | .fail => printFailed j s1
      else withdraw (stopFault .printOrder (s.firstOf .print) s)
    | [] => withdraw (stopFault .printOrder (s.firstOf .print) s)

/-- The message being sent has left: it leaves the transmit queue and the next begins (R97). -/
def printerSent (s : State) : State := { s with pp := { s.pp with transmit := s.pp.transmit.tail } }

end Sys2Proof.Machine
end

