-- ==== Sys2Proof/Machine/GateUnit.lean ====
section
/-! DEFINITION. The Gate and Make-up Unit's operations: bundle order, the gate decision, divert, exception, the make-up queue and the
sweep (spec/07_gate_decision_and_make_up.md). -/

namespace Sys2Proof.Machine

/-- Ordinal a is below ordinal b: the forward distance from a to b lies from 1 to 32,767 (R112). -/
def ordinalBelow (a b : Word16) : Bool := decide (1 ≤ (b - a).toNat ∧ (b - a).toNat ≤ 32767)

/-- Ordinal a is above ordinal b: neither equal to it nor below it (R112). -/
def ordinalAbove (a b : Word16) : Bool := decide (a ≠ b) && !ordinalBelow a b

/-- Inserts a context after every entry of its ordinal or below and before every entry above it (R121). -/
def insertContext (c : Context) : List Context → List Context
  | [] => [c]
  | d :: t => if ordinalAbove d.copy.ordinal c.copy.ordinal then c :: d :: t else d :: insertContext c t

/-- A context joins the make-up queue. -/
def enqueue (c : Context) (s : State) : State :=
  { s with gm := { s.gm with queue := insertContext c s.gm.queue } }

/-- One position of a sweep for an ordinal: a context above it becomes a GHOST with its tag and joins the queue with a SWEPT
record (R124). -/
def sweepAt (o : Word16) (pitch : PitchIndex) (pos : Nat) (s : State) : State :=
  match s.contentAt pos with
  | .copy c =>
    if ordinalAbove c.copy.ordinal o then
      s |> setContent pos (.ghost c.tag)
        |> enqueue c.attempted
        |> place (c.attempted.record .swept none pitch)
    else s
  | _ => s

/-- The sweep of positions g − 1 down to 0 (R123). -/
def sweep (o : Word16) (pitch : PitchIndex) : Nat → State → State
  | 0, s => s
  | g + 1, s => sweep o pitch g (sweepAt o pitch g s)

/-- The exception test of R119 on a context whose attempt has been counted. -/
def exceptionReason (b : Bundle) (c : Context) : Option ExceptionReason :=
  if b.retryLimit < c.faulted then some .retryLimit
  else if b.mode = .short ∧ c.marks.hasFault then some .shortMode
  else none

/-- The counting of an attempt that a divert ends (R118). -/
def Context.diverted (c : Context) : Context :=
  { c.attempted with faulted := if c.marks.hasFault then c.faulted + 1 else c.faulted }

/-- A context given up at the gate: record, excepted count, text freed, and any close after the record (R120). -/
def exceptAtGate (c : Context) (r : ExceptionReason) (pitch : PitchIndex) (s : State) : State :=
  s |> place (c.record .exception (some r) pitch)
    |> countExcepted c.copy.ordinal
    |> testComplete c.copy.ordinal
    |> freeText c.copy.blocks

/-- A context sent to the make-up queue: insertion, DIVERTED record, sweep (R121, R122, R123). -/
def sendToMakeUp (c : Context) (g : Nat) (pitch : PitchIndex) (s : State) : State :=
  s |> enqueue c
    |> place (c.record .diverted none pitch)
    |> sweep c.copy.ordinal pitch g

/-- A divert of the context at the gate (R118). -/
def divert (c : Context) (g : Nat) (pitch : PitchIndex) (s : State) : State :=
  let d := c.diverted
  let s1 := setContent g .empty s
  match (s.bundle c.copy.ordinal).bind (fun b => exceptionReason b d) with
  | some r => reportTrackClear (exceptAtGate d r pitch s1)
  | none => reportTrackClear (sendToMakeUp d g pitch s1)

/-- A GHOST at the gate is diverted (R117). -/
def divertGhost (g : Nat) (s : State) : State :=
  let s1 := setContent g .empty s
  reportTrackClear { s1 with gm := { s1.gm with ghostDiverts := bump s1.gm.ghostDiverts } }

/-- Steps 1 and 2 of a decision on a context: the print confirmation, and FORCED at a fire point under DIVERT-ALL (R115). -/
def decisionMarks (atFirePoint : Bool) (g : Nat) (pitch : PitchIndex) (s : State) (c : Context) : Context :=
  let c1 :=
    match s.firstOf .print with
    | none => c
    | some _ =>
      match printConfirmation s.firing g pitch s.pp.jobs c with
      | some m => c.mark m
      | none => c
  if atFirePoint && s.firing && s.fu.divertAll then c1.mark .forced else c1

/-- The pass test of R115 on a context as it stands after steps 1 and 2. -/
def passes (atFirePoint : Bool) (s : State) (c : Context) : Bool :=
  atFirePoint && s.firing && !s.fu.divertAll && (c.marks.isEmpty || s.fu.passAll)

/-- A decision on the gate position: whether it passes, and the state after it (R113 to R117). -/
def decideGate (atFirePoint : Bool) (g : Nat) (pitch : PitchIndex) (s : State) : Bool × State :=
  match s.contentAt g with
  | .empty => (false, s)
  | .ghost _ => (false, divertGhost g s)
  | .copy c =>
    let d := decisionMarks atFirePoint g pitch s c
    if passes atFirePoint s d then (true, setContent g (.copy d) s) else (false, divert d g pitch s)

/-- The decision at the GATE fire point in a firing state, which sets the gate-decided flag (R113). One pitch makes at most one
decision at its fire point (R113), and a pass stands (R115, R116): once the flag is set, a second GATE fire point in the pitch,
which station writes in STOPPED and a START can bring about (R22), decides nothing and leaves the position as it is. DESIGN
CHOICE: no pass is returned for it, so the station makes no second pulse (notes/assumptions/30.md). -/
def gateFirePoint (s : State) : Bool × State :=
  if s.gm.decided then (false, s)
  else
    let s1 := { s with gm := { s.gm with decided := true } }
    match s.tu.gate with
    | none => (false, s1)
    | some g => decideGate true g s.mu.pitch s1

/-- GM's close-out of the ended pitch: what no fire point decided is diverted (R114). -/
def gateCloseOut (ended : PitchIndex) (s : State) : State :=
  match s.tu.gate with
  | none => s
  | some g => if s.gm.decided then s else (decideGate false g ended s).2

end Sys2Proof.Machine
end

