-- ==== Sys2Proof/Machine/TrackUnit.lean ====
section
/-! DEFINITION. The Track Unit's operations at the boundary: the untaken context at the stack position, the shift, the release and the
displacement report; and the resolver's start and end (spec/04_the_copy_track.md, spec/03_copy_admission_and_the_plan_table.md
section 3.5). -/

namespace Sys2Proof.Machine

/-- TU's effect of an action station that did not act: SUSPECT on a context it should have served (R70). -/
def actionMissed (i : StationNo) (s : State) : State :=
  let e := s.station i
  match e.kind with
  | .insert =>
    match s.contentAt e.offset with
    | .copy c => if c.values.callsFor e.feeder then suspectAt e.offset s else s
    | _ => s
  | .feed => suspectAt e.offset s
  | .carrier => suspectAt e.offset s
  | .seal => suspectAt e.offset s
  | _ => s

/-- Close-out at T − 1: a context whose stack event was not taken gets SUSPECT and is LOST (R65, R143). -/
def stackCloseOut (ended : PitchIndex) (s : State) : State :=
  match s.contentAt (s.trackLen - 1) with
  | .copy c => lose (c.mark .suspect) ended (setContent (s.trackLen - 1) (.copy (c.mark .suspect)) s)
  | _ => s

/-- The shift: every content moves up one position, T − 1's leaves, position 0 is vacant (R65). -/
def shiftTrack (s : State) : State :=
  match s.tu.track with
  | [] => s
  | c :: t => { s with tu := { s.tu with track := .empty :: (c :: t).dropLast } }

/-- A context at a release: marks emptied, print tag and verify result absent (R68). -/
def Context.renewed (c : Context) (o : Origin) : Context :=
  { c with origin := o, marks := MarkSet.empty, tag := none, verifyResult := none }

/-- A staged copy at its first release (R68). -/
def firstRelease (c : StagedCopy) (v : PlanValues) : Context :=
  { copy := c, values := v, origin := .main, attempts := 0, faulted := 0, marks := MarkSet.empty, tag := none
    verifyResult := none }

/-- The entry at the head of the arrival order (R48). -/
def State.oldestEntry (s : State) : Option (Fin 16 × StagingEntry) :=
  s.au.order.head?.map (fun i => (i, s.au.staging[i]))

/-- A boundary that is not a starved pitch clears the starved-run flag (R69). -/
def clearStarvedRun (s : State) : State := { s with tu := { s.tu with starvedRun := false } }

/-- A starved pitch: the counter, the flag, and one notice for a run of them (R69). -/
def starvedPitch (s : State) : State :=
  let s1 := { s with tu := { s.tu with starvedRun := true, starved := bump s.tu.starved } }
  if s.tu.starvedRun then s1
  else raiseNotice (.starved (if s.stagingFill = 0 then .emptyStaging else .unresolved)) s1

/-- The release at a boundary taken in RUNNING: the make-up head, else the oldest staged copy if RESOLVED, else a starved
pitch (R66, R127, R48). -/
def releaseRunning (s : State) : State :=
  match s.gm.queue with
  | c :: rest =>
    { s with gm := { s.gm with queue := rest } } |> setContent 0 (.copy (c.renewed .remake)) |> clearStarvedRun
  | [] =>
    match s.oldestEntry with
    | some (i, .resolved c v) => s |> freeEntry i |> setContent 0 (.copy (firstRelease c v)) |> clearStarvedRun
    | _ => starvedPitch s

/-- The release by the line state in force when the boundary is taken (R66, R67). -/
def release (atBoundary : LineState) (s : State) : State :=
  if atBoundary = .running then releaseRunning s else clearStarvedRun s

/-- The displacement report of a boundary taken in STOPPED or FAULTED while the track holds a context or GHOST (R65, R166). -/
def reportDisplacement (s : State) : State :=
  if (s.lc.line = .stopped ∨ s.lc.line = .faulted) ∧ s.trackOccupied then
    { s with lc := { s.lc with displaced := true } }
  else s

/-! ## The resolver (R50 to R52) -/

/-- The oldest ARRIVED entry: the resolve pointer (R50). -/
def State.resolvePointer (s : State) : Option (Fin 16) :=
  s.au.order.find? (fun i => match s.au.staging[i] with | .arrived _ => true | _ => false)

/-- The idle resolver takes the oldest ARRIVED entry and reads its plan entry (R50). -/
def startResolver (s : State) : State :=
  match s.au.resolver, s.resolvePointer with
  | none, some i =>
    match s.au.staging[i] with
    | .arrived c =>
      let s1 := setEntry i (.resolving c false) s
      { s1 with au := { s1.au with resolver := some { entry := i, read := s.au.plans[c.plan] } } }
    | _ => s
  | _, _ => s

/-- The ATTEMPT record of a PLAN_VACANT exception (R52). -/
def vacantRecord (c : StagedCopy) (pitch : PitchIndex) : Record :=
  .attempt { outcome := .exception, reason := some .planVacant, seq := c.seq, bundleNo := c.bundleNo, plan := c.plan
             origin := none, attempts := 0, faulted := 0, marks := MarkSet.empty, pitch := pitch }

/-- A staged copy given up for a vacant plan (R52). -/
def planVacant (i : Fin 16) (c : StagedCopy) (s : State) : State :=
  s |> place (vacantRecord c s.mu.pitch)
    |> countExcepted c.ordinal
    |> testComplete c.ordinal
    |> freeText c.blocks
    |> freeEntry i

/-- The completion of the resolution in progress (R51); the resolver then looks again (R50). -/
def completeResolution (s : State) : State :=
  match s.au.resolver with
  | none => s
  | some r =>
    let s1 := { s with au := { s.au with resolver := none } }
    match s.au.staging[r.entry] with
    | .resolving c again =>
      startResolver
        (if again then setEntry r.entry (.arrived c) s1
         else if r.read.valid then setEntry r.entry (.resolved c r.read.values) s1
         else planVacant r.entry c s1)
    | _ => startResolver s1

end Sys2Proof.Machine
end

