-- ==== Sys2Proof/Machine/CheckStations.lean ====
section
/-! DEFINITION. The Check Unit's operations: the presence filter and jam runs, window close, the caliper, the zero check, the verify reader,
the consecutive-fault filter and the close-out (spec/05_checking_stations.md). -/

namespace Sys2Proof.Machine

/-- A presence-sensor input is active (R76). -/
def sensorActive (p : Pins) (k : Fin 16) : Bool := p.sns.getLsbD k.val

/-- The kinds that run a presence filter (R76). -/
def StationKind.filtered : StationKind → Bool
  | .feed => true
  | .insert => true
  | .carrier => true
  | .stack => true
  | _ => false

/-- The kinds that take a presence verdict (R77). -/
def StationKind.judged : StationKind → Bool
  | .feed => true
  | .insert => true
  | .carrier => true
  | _ => false

/-- The kinds that sense a jam (R92). -/
def StationKind.jams : StationKind → Bool
  | .gate => true
  | .stack => true
  | _ => false

/-- The presence filter of one station at a forward count to a phase (R76). DESIGN CHOICE: the run rule alone decides, so that
forward counts after reverse counts inside a window shorter than the minimum detect can set the flag, though R76 says that such
a window never does (notes/assumptions/34.md). -/
def filterCount (e : StationEntry) (pins : Pins) (phase : Nat) (w : CheckWork) : CheckWork :=
  match e.sensor with
  | none => w
  | some k =>
    if e.kind.filtered then
      if e.windowStart ≤ phase ∧ phase ≤ e.windowEnd ∧ sensorActive pins k then
        { w with
          presenceRun := min (w.presenceRun + 1) 255
          detected := w.detected || decide (e.minDetect ≤ w.presenceRun + 1) }
      else { w with presenceRun := 0 }
    else w

/-- The jam run of one station at a forward count (R92). -/
def jamCount (e : StationEntry) (pins : Pins) (w : CheckWork) : CheckWork :=
  match e.sensor with
  | none => w
  | some k =>
    if e.kind.jams ∧ 0 < e.jamLength then
      if sensorActive pins k then { w with jamRun := bump w.jamRun } else { w with jamRun := 0, jamRaised := false }
    else w

/-- Every station's presence run and jam run at an announced forward count (R76, R92). -/
def senseCount (s : State) : State :=
  { s with cu := { s.cu with
      work := mapAll s.cu.work (fun i w =>
        jamCount (s.station i) s.pins (filterCount (s.station i) s.pins s.mu.phase w)) } }

/-- CU's new per-pitch state: runs and flags cleared, a CALIPER station's measurement IDLE (R76, R82). -/
def newPitchWork (e : StationEntry) (w : CheckWork) : CheckWork :=
  let w1 := { w with presenceRun := 0, detected := false, windowClosed := false }
  if e.kind = .caliper then { w1 with measure := .idle, nextSample := 0, sampleSum := 0 } else w1

/-- CU's work for the pitch now starting. -/
def newPitchChecks (s : State) : State :=
  { s with cu := { s.cu with work := mapAll s.cu.work (fun i w => newPitchWork (s.station i) w) } }

/-! ## Verdicts (R90, R91) -/

/-- A verdict that faults the copy: the mark, the counter, and at the limit the hold cause and the notice (R90, R91). -/
def faultVerdict (i : StationNo) (m : Mark) (c : Context) (s : State) : State :=
  let e := s.station i
  let s1 := markAt e.offset m s
  if e.faultLimit = 0 then s1
  else if (s.checkWork i).faultRun + 1 < e.faultLimit then
    setCheckWork i (fun w => { w with faultRun := w.faultRun + 1 }) s1
  else
    s1 |> setCheckWork i (fun w => { w with faultRun := 0 })
       |> addHold .stationLimit
       |> raiseNotice (.stationLimit i e.kind m c.copy.seq)

/-- A verdict that passes the copy clean: the counter becomes 0 (R90). -/
def cleanVerdict (i : StationNo) : State → State := setCheckWork i (fun w => { w with faultRun := 0 })

/-- The presence verdict on a context in a firing state (R78, R79). DECLINED on a context the station serves does not occur
(R78); it is judged as not acted. -/
def presenceVerdict (i : StationNo) (c : Context) (s : State) : State :=
  let e := s.station i
  let detected := (s.checkWork i).detected
  if e.kind = .insert ∧ ¬ c.values.callsFor e.feeder then
    if detected then faultVerdict i .insertExtra c s else cleanVerdict i s
  else if (s.fireWork i).outcome = .fired then
    if detected then cleanVerdict i s
    else
      match e.kind with
      | .feed => faultVerdict i .mainMiss c s
      | .carrier => faultVerdict i .carrierMiss c s
      | _ => faultVerdict i (.insertMiss e.feeder) c s
  else suspectAt e.offset s

/-- The presence check applies to the context: every one at FEED and CARRIER, one that calls for it at INSERT (R78, R79). -/
def StationEntry.appliesTo (e : StationEntry) (c : Context) : Bool :=
  decide (e.kind ≠ .insert) || c.values.callsFor e.feeder

/-- The check was not taken: SUSPECT on a context it applies to (R77). -/
def presenceNotTaken (i : StationNo) (s : State) : State :=
  match s.contentAt (s.station i).offset with
  | .copy c => if (s.station i).appliesTo c then suspectAt (s.station i).offset s else s
  | _ => s

/-- Window close of a FEED, INSERT or CARRIER station with a sensor (R77, R80). -/
def closeWindow (i : StationNo) (s : State) : State :=
  let s1 := setCheckWork i (fun w => { w with windowClosed := true }) s
  match s.contentAt (s.station i).offset with
  | .ghost _ => s1
  | .empty =>
    if s.firing ∧ (s.checkWork i).detected then
      { s1 with cu := { s1.cu with strayProduct := bump s1.cu.strayProduct } }
    else s1
  | .copy c => if s.firing then presenceVerdict i c s1 else presenceNotTaken i s1

/-- The station takes a presence verdict at all: its kind is judged and it has a sensor (R76, R77). -/
def StationEntry.hasVerdict (e : StationEntry) : Bool := e.kind.judged && e.sensor.isSome

/-- Window close falls due at this count (R77). -/
def State.closeDue (s : State) (i : StationNo) : Bool :=
  (s.station i).hasVerdict && !(s.checkWork i).windowClosed && decide (s.mu.phase = (s.station i).windowEnd)

/-! ## The caliper (R82 to R86) -/

/-- Sample point k of a CALIPER station (R82). -/
def samplePoint (e : StationEntry) (k : Nat) : Nat :=
  e.windowStart + k * (e.windowEnd - e.windowStart) / 2 ^ e.sampleExp

/-- The value of the next conversion of a channel's readings, and the readings after it; the last one stands (R83). -/
def convert : List (BitVec 10) → Nat × List (BitVec 10)
  | [] => (0, [])
  | [v] => (v.toNat, [v])
  | v :: w :: t => (v.toNat, w :: t)

/-- One conversion of a caliper channel, its value added to the station's sample sum (R83). -/
def takeSample (i : StationNo) (s : State) : State :=
  let c := convert (if (s.station i).channel then s.pins.cal1 else s.pins.cal0)
  let s1 := if (s.station i).channel then { s with pins := { s.pins with cal1 := c.2 } }
            else { s with pins := { s.pins with cal0 := c.2 } }
  setCheckWork i (fun w => { w with sampleSum := w.sampleSum + c.1, nextSample := w.nextSample + 1 }) s1

/-- A completed measurement on a gap: the zero check (R86). -/
def zeroCheck (i : StationNo) (reading : Nat) (s : State) : State :=
  let e := s.station i
  if e.driftLimit = 0 then s
  else if reading ≤ e.zmax then setCheckWork i (fun w => { w with drift := 0 }) s
  else if (s.checkWork i).drift + 1 < e.driftLimit then setCheckWork i (fun w => { w with drift := w.drift + 1 }) s
  else
    s |> setCheckWork i (fun w => { w with drift := 0 })
      |> addHold .caliperDrift
      |> raiseNotice (.caliperDrift i reading)

/-- The station is the first CALIPER station by station number (section 5.3). -/
def State.firstCaliper (s : State) (i : StationNo) : Bool := decide (s.firstOf .caliper = some i)

/-- The thickness verdict on a context (R84). -/
def thicknessVerdict (i : StationNo) (reading : Nat) (c : Context) (s : State) : State :=
  let low := if s.firstCaliper i then c.values.low1 else c.values.low2
  let high := if s.firstCaliper i then c.values.high1 else c.values.high2
  if reading < low then faultVerdict i .thin c s
  else if high < reading then faultVerdict i .thick c s
  else cleanVerdict i s

/-- The completion of a measurement (R84). -/
def completeMeasurement (i : StationNo) (s : State) : State :=
  let reading := (s.checkWork i).sampleSum / 2 ^ (s.station i).sampleExp
  let s1 := setCheckWork i (fun w => { w with measure := .done }) s
  match s.contentAt (s.station i).offset with
  | .copy c => thicknessVerdict i reading c s1
  | .empty => zeroCheck i reading s1
  | .ghost _ => s1

/-- Takes every sample whose point is the present phase, in index order, and completes the measurement after the last
(R83, R84); the fuel bounds the number of samples. -/
def takeSamples (i : StationNo) : Nat → State → State
  | 0, s => s
  | fuel + 1, s =>
    if (s.checkWork i).measure = .measuring ∧ (s.checkWork i).nextSample < 2 ^ (s.station i).sampleExp ∧
        samplePoint (s.station i) (s.checkWork i).nextSample = s.mu.phase then
      let s1 := takeSample i s
      if (s1.checkWork i).nextSample = 2 ^ (s.station i).sampleExp then completeMeasurement i s1
      else takeSamples i fuel s1
    else s

/-- The beginning of a measurement at sample point 0 (R82). -/
def beginMeasurement (i : StationNo) (s : State) : State :=
  if s.firing then
    match s.contentAt (s.station i).offset with
    | .ghost _ => setCheckWork i (fun w => { w with measure := .notTaken }) s
    | _ => takeSamples i (2 ^ (s.station i).sampleExp) (setCheckWork i (fun w => { w with measure := .measuring }) s)
  else suspectAt (s.station i).offset (setCheckWork i (fun w => { w with measure := .notTaken }) s)

/-- The caliper's work at a count: begin, or take the samples that fall at it. -/
def caliperCount (i : StationNo) (s : State) : State :=
  match (s.checkWork i).measure with
  | .idle => beginMeasurement i s
  | .measuring => takeSamples i (2 ^ (s.station i).sampleExp) s
  | .done => s
  | .notTaken => s

/-- The caliper has work at this announced count: sample point 0 while IDLE, or, at a forward count, the next sample point
while MEASURING (R82, R83). -/
def State.caliperDue (s : State) (forward : Bool) (i : StationNo) : Bool :=
  decide ((s.station i).kind = .caliper) &&
  (match (s.checkWork i).measure with
   | .idle => decide (samplePoint (s.station i) 0 = s.mu.phase)
   | .measuring => forward && decide (samplePoint (s.station i) (s.checkWork i).nextSample = s.mu.phase)
   | .done => false
   | .notTaken => false)

/-! ## Jam (R92, R93) -/

/-- The jam run has reached the jam length and no JAM has been raised for it (R92). -/
def State.jamDue (s : State) (i : StationNo) : Bool :=
  (s.station i).kind.jams && (s.station i).sensor.isSome && decide (0 < (s.station i).jamLength) &&
  decide ((s.station i).jamLength ≤ (s.checkWork i).jamRun) && !(s.checkWork i).jamRaised

/-- JAM is reported once for the present run (R92). -/
def raiseJam (i : StationNo) (s : State) : State :=
  stopFault .jam (some i) (setCheckWork i (fun w => { w with jamRaised := true }) s)

/-- The Check Unit's answer to CLEAR_FAULT: a jam input is active (R93). -/
def State.jamInputActive (s : State) : Bool :=
  stationNos.any (fun i =>
    (s.station i).kind.jams && decide (0 < (s.station i).jamLength) &&
    (match (s.station i).sensor with
     | none => false
     | some k => sensorActive s.pins k))

/-! ## The verify reader (R88, R89) -/

/-- A stray reader message (R88). -/
def strayRead (r : StrayReason) (v : ReadResult) (s : State) : State :=
  raiseNotice (.strayRead r v) { s with cu := { s.cu with strayRead := bump s.cu.strayRead } }

/-- The arrival of a READ or NOREAD message (R88). -/
def readerArrival (v : ReadResult) (s : State) : State :=
  match s.firstOf .verify with
  | none => strayRead .noStation v s
  | some i =>
    match s.contentAt (s.station i).offset with
    | .empty => strayRead .gap v s
    | .ghost _ => strayRead .ghost v s
    | .copy c =>
      if c.values.verify then
        if c.verifyResult = none then
          modifyContext (s.station i).offset (fun c => { c with verifyResult := some v }) s
        else strayRead .answered v s
      else s

/-- The verify judgement of the context that stood at VERIFY in the ended pitch (R89); `firing` is that of the line state
in force when the boundary is taken. -/
def verifyJudgement (firing : Bool) (s : State) : State :=
  match s.firstOf .verify with
  | none => s
  | some i =>
    match s.contentAt (s.station i).offset with
    | .copy c =>
      if ¬ c.values.verify then s
      else if ¬ firing then suspectAt (s.station i).offset s
      else
        match c.verifyResult with
        | some (.value v) =>
          if v = c.copy.seq.setWidth 16 then cleanVerdict i s else faultVerdict i .verifyMismatch c s
        | _ => faultVerdict i .verifyAbsent c s
    | _ => s

/-! ## Close-out (R64) -/

/-- A station's presence check that did not reach its window close in the ended pitch (R77). -/
def presenceCloseOut (i : StationNo) (s : State) : State :=
  if (s.station i).hasVerdict ∧ ¬ (s.checkWork i).windowClosed then presenceNotTaken i s else s

/-- CU's close-out of the ended pitch: presence, caliper (R85), verify. -/
def checkCloseOut (firing : Bool) (s : State) : State :=
  s |> forStations presenceCloseOut |> forStations abandonMeasurement |> verifyJudgement firing

/-- READER_ERRORS counts a message discarded at the port (R87). -/
def countReaderError (s : State) : State :=
  { s with cu := { s.cu with readerErrors := bump s.cu.readerErrors } }

end Sys2Proof.Machine
end

