-- ==== Sys2Proof/Machine/FiringStations.lean ====
section
/-! DEFINITION. The Firing Unit's operations: the advance and the fire point, the boundary work, the pulses, and the fire point taken by each
kind of station (spec/02_stations_and_firing.md). -/

namespace Sys2Proof.Machine

/-- The raw advance of a curve at a latched speed: anchor plus the floored product of the segment S falls in (R23). -/
def rawAdvance (c : Curve) (speed : Nat) : Nat :=
  if speed < c.s1 then c.a0 + speed * c.k0 / 256
  else if speed < c.s2 then c.a1 + (speed - c.s1) * c.k1 / 256
  else if speed < c.s3 then c.a2 + (speed - c.s2) * c.k2 / 256
  else c.a3 + (speed - c.s3) * c.k3 / 256

/-- The advance: the raw advance bounded by the clamp (R23). -/
def clampedAdvance (c : Curve) (speed : Nat) : Nat :=
  if rawAdvance c speed < c.amin then c.amin
  else if c.amax < rawAdvance c speed then c.amax
  else rawAdvance c speed

/-- The advance of a station: 0 with no curve (R23). -/
def State.advance (s : State) (e : StationEntry) : Nat :=
  match e.curve with
  | none => 0
  | some k => clampedAdvance s.fu.curves[k].active s.fu.latchedSpeed

/-- The fire point E = Φ − min(Φ, advance) (R24). -/
def State.firePointOf (s : State) (e : StationEntry) : Nat := e.phi - min e.phi (s.advance e)

/-- The kinds that have a fire point (R22). -/
def StationKind.fires : StationKind → Bool
  | .feed => true
  | .insert => true
  | .carrier => true
  | .print => true
  | .seal => true
  | .gate => true
  | .stack => true
  | .none => false
  | .caliper => false
  | .verify => false

/-! ## Pulses (R31) -/

/-- A station's pulse ends at a forward count that reaches its pulse end. -/
def endDuePulse (phase : Nat) (w : FireWork) : FireWork :=
  if w.pulseEnd = phase then { w with pulse := false } else w

/-- The pulses, kick pulses among them, that end at an announced forward count (R31). -/
def endDuePulses (s : State) : State :=
  { s with fu :=
      { s.fu with
        work := mapAll s.fu.work (fun _ w => endDuePulse s.mu.phase w)
        bundleKick := s.fu.bundleKick && decide (s.fu.kickEnd ≠ s.mu.phase)
        trayKick := s.fu.trayKick && decide (s.fu.kickEnd ≠ s.mu.phase) } }

/-- A station's pulse starts at its fire point (R31). -/
def startPulse (i : StationNo) (s : State) : State :=
  setFireWork i (fun w => { w with pulse := true, pulseEnd := w.e + (s.station i).pulseLength }) s

/-! ## The boundary work (R20, R22) -/

/-- A pending shadow becomes the active copy (R20). -/
def CurveSlot.applied (c : CurveSlot) : CurveSlot :=
  if c.pending then { c with active := c.shadow, pending := false } else c

/-- Steps 2 to 4 of R22: pulses end, pending shadows are applied, S is latched. -/
def latchPitch (s : State) : State :=
  let s1 := endPulses s
  { s1 with fu := { s1.fu with curves := mapAll s1.fu.curves (fun _ c => c.applied), latchedSpeed := s1.mu.speed } }

/-- Steps 5 and 6 of R22 for one station: flag and outcome cleared, E computed for a kind with a fire point. -/
def newPitchFire (s : State) (e : StationEntry) (w : FireWork) : FireWork :=
  { w with fired := false, outcome := .none, e := if e.kind.fires then s.firePointOf e else w.e }

/-- FU's boundary work for the pitch now starting (R22 steps 2 to 6); the new pitch has taken no kick yet (R30, R147). -/
def newPitchFiring (s : State) : State :=
  let s1 := latchPitch s
  { s1 with fu :=
      { s1.fu with
        work := mapAll s1.fu.work (fun i w => newPitchFire s1 (s1.station i) w)
        kickTaken := false } }

/-! ## Taking the fire point (R25 to R30) -/

/-- Sets a station's outcome. -/
def setOutcome (i : StationNo) (o : PitchOutcome) : State → State := setFireWork i (fun w => { w with outcome := o })

/-- The outcome FIRED with its pulse. -/
def fireWithPulse (i : StationNo) (s : State) : State := startPulse i (setOutcome i .fired s)

/-- What the owning unit does for a station that did not act, SKIPPED or NOT_REACHED (R27, R70, R105): the gate decides at
the close-out, and the stack event is not taken. -/
def stationMissed (i : StationNo) (s : State) : State :=
  match (s.station i).kind with
  | .print => printNotTaken i s
  | _ => actionMissed i s

/-- The fire condition of FEED, INSERT, CARRIER, PRINT and SEAL on a position's content (R28). -/
def firesOn (e : StationEntry) (c : Content) : Bool :=
  match e.kind with
  | .seal => true
  | .print => c.tag.isSome
  | .insert =>
    match c with
    | .copy c => c.values.callsFor e.feeder
    | _ => false
  | .feed => c.isCopy
  | .carrier => c.isCopy
  | _ => false

/-- The fire point of a station in a firing state (R25, R28, R29, R30). -/
def fireInFiring (i : StationNo) (s : State) : State :=
  match (s.station i).kind with
  | .gate =>
    if (gateFirePoint s).1 then fireWithPulse i (gateFirePoint s).2 else setOutcome i .declined (gateFirePoint s).2
  | .stack => s |> setOutcome i .fired |> stackEvent i |> takeKick i
  | .print =>
    if firesOn (s.station i) (s.contentAt (s.station i).offset) then printFired i (fireWithPulse i s)
    else setOutcome i .declined s
  | _ =>
    if firesOn (s.station i) (s.contentAt (s.station i).offset) then fireWithPulse i s else setOutcome i .declined s

/-- A station takes its fire point: the fired flag is set, and the line state in force decides (R25). -/
def takeFirePoint (i : StationNo) (s : State) : State :=
  let s1 := setFireWork i (fun w => { w with fired := true }) s
  if s1.firing then fireInFiring i s1 else stationMissed i (setOutcome i .skipped s1)

/-- The station's fire point falls due at this count (R25). -/
def State.fireDue (s : State) (i : StationNo) : Bool :=
  (s.station i).kind.fires && !(s.fireWork i).fired && decide ((s.fireWork i).e = s.mu.phase)

/-- The station's fire point was not reached in the pitch that ends (R22 step 1, R27). -/
def State.notReached (s : State) (i : StationNo) : Bool := (s.station i).kind.fires && !(s.fireWork i).fired

/-- The close-out of the action stations' NOT_REACHED outcomes at TU (R64, R70). -/
def actionCloseOut (i : StationNo) (s : State) : State := if s.notReached i then actionMissed i s else s

/-- The close-out of a PRINT station's NOT_REACHED outcome at PP (R64, R105). -/
def printCloseOut (i : StationNo) (s : State) : State :=
  if s.notReached i ∧ (s.station i).kind = .print then printNotTaken i s else s

/-! ## A single station's E outside the boundary (R22) -/

/-- Recomputes one station's E after an accepted station write or STOPPED curve write, with the SKIPPED that a phase already
at or beyond it brings (R22). DESIGN CHOICE: R25 gives a station one fire point in a pitch, but a write to a kind without a
fire point clears the flag (R22), so that a write back and a START can bring a second one, which the station takes
(notes/assumptions/32.md). -/
def recomputeStation (i : StationNo) (s : State) : State :=
  if (s.station i).kind.fires then
    let s1 := setFireWork i (fun w => { w with e := s.firePointOf (s.station i) }) s
    if ¬ (s.fireWork i).fired ∧ s.firePointOf (s.station i) ≤ s.mu.phase then
      stationMissed i (setFireWork i (fun w => { w with fired := true, outcome := .skipped }) s1)
    else s1
  else setFireWork i (fun w => { w with fired := false, outcome := .none }) s

end Sys2Proof.Machine
end

