-- ==== Sys2Proof/Machine/Counts.lean ====
section
/-! DEFINITION. Counts: the tasks that fall due at one announced count, the forward and reverse count, the pitch boundary, the encoder,
the simulated source and the speed windows (spec/01_motion_and_pitch_timing.md, R64, R125). -/

namespace Sys2Proof.Machine

/-! ## Tasks at one count -/

/-- Takes a task if it is still due: what another task of the same count has ended is not taken (R85). -/
def runTask (forward : Bool) (s : State) : CountTask → State
  | .firePoint i => if s.fireDue i then takeFirePoint i s else s
  | .windowClose i => if s.closeDue i then closeWindow i s else s
  | .caliper i => if s.caliperDue forward i then caliperCount i s else s
  | .jam i => if forward ∧ s.jamDue i then raiseJam i s else s

/-- The tasks due at an announced count. -/
def State.dueTasks (s : State) (forward : Bool) : List CountTask :=
  (stationNos.filter s.fireDue).map .firePoint ++
  (stationNos.filter s.closeDue).map .windowClose ++
  (stationNos.filter (s.caliperDue forward)).map .caliper ++
  (stationNos.filter (fun i => forward && s.jamDue i)).map .jam

/-- Inserts a task before the first task of a rank that is not lower. -/
def insertTask (rank : CountTask → Nat) (t : CountTask) : List CountTask → List CountTask
  | [] => [t]
  | u :: l => if rank t ≤ rank u then t :: u :: l else u :: insertTask rank t l

/-- Tasks in rising rank, equal ranks in the order given. -/
def orderTasks (rank : CountTask → Nat) (ts : List CountTask) : List CountTask := ts.foldr (insertTask rank) []

/-- The next announced count's number. -/
def countUp (s : State) : State := { s with countIndex := s.countIndex + 1 }

/-- Takes the tasks due at an announced count, in the free order (R25, R85, R125, R163; notes/assumptions/1.md). -/
def takeTasks (forward : Bool) (s : State) : State :=
  countUp ((orderTasks (Config.rank s.countIndex) (s.dueTasks forward)).foldl (runTask forward) s)

/-! ## The pitch boundary (R8, R64) -/

/-- The pitch length and accumulator of the pitch now starting (R8). -/
def nextPitch (p : LineProfile) (acc : Nat) : Nat × Nat :=
  if 256 ≤ acc + p.f then (p.p + 1, (acc + p.f) % 256) else (p.p, (acc + p.f) % 256)

/-- The Motion Unit's own work at the boundary (R8). -/
def motionBoundary (s : State) : State :=
  { s with mu := { s.mu with
      phase := 0
      pitch := s.mu.pitch + 1
      len := (nextPitch s.mu.profile s.mu.acc).1
      acc := (nextPitch s.mu.profile s.mu.acc).2 } }

/-- Step 1 of R64: the close-out of the ended pitch. The work that reads positions finds them as they stood in that pitch:
T − 1 is emptied behind it, and the gate's decision, which empties g and sweeps, is the last (notes/assumptions/10.md). -/
def closeOut (line : LineState) (ended : PitchIndex) (s : State) : State :=
  s |> forStations actionCloseOut
    |> checkCloseOut line.firing
    |> forStations printCloseOut
    |> stackCloseOut ended
    |> gateCloseOut ended

/-- The gate-decided flag cleared for the pitch now starting (R113). -/
def newPitchGate (s : State) : State := { s with gm := { s.gm with decided := false } }

/-- The boundary event's work from the displacement report to the new per-pitch state (R64 to R69, R22, R76, R101). -/
def pitchBoundary (s : State) : State :=
  motionBoundary s
    |> reportDisplacement
    |> closeOut s.lc.line s.mu.pitch
    |> newPitchFiring
    |> shiftTrack
    |> release s.lc.line
    |> newPitchGate
    |> dispatchJob
    |> newPitchChecks

/-! ## Counts (R6, R7, R11) -/

/-- The speed-window count raised by one, held at 32,767 (R11). -/
def windowUp (n : Int) : Int := min (n + 1) 32767

/-- The speed-window count lowered by one, held at −32,768 (R11). -/
def windowDown (n : Int) : Int := max (n - 1) (-32768)

/-- The Motion Unit's own work at an ordinary forward count (R6). -/
def raisePhase (s : State) : State := { s with mu := { s.mu with phase := s.mu.phase + 1 } }

/-- A forward count enters the speed window (R11). -/
def countForward (s : State) : State := { s with mu := { s.mu with windowCount := windowUp s.mu.windowCount } }

/-- A reverse count enters the speed window (R11). -/
def countReverse (s : State) : State := { s with mu := { s.mu with windowCount := windowDown s.mu.windowCount } }

/-- The phase after a forward count, with the boundary's work where it ends the pitch (R6, R8). -/
def advancePhase (s : State) : State :=
  if s.mu.phase + 1 < s.mu.len then endDuePulses (raisePhase s) else pitchBoundary s

/-- A forward count (R6, R11). -/
def forwardCount (s : State) : State :=
  countForward s |> advancePhase |> senseCount |> takeTasks true

/-- The phase after a reverse count; at 0 it is absorbed (R7). -/
def lowerPhase (s : State) : State :=
  { s with mu := { s.mu with
      phase := s.mu.phase - 1
      reverseAbsorbed := if s.mu.phase = 0 then bump s.mu.reverseAbsorbed else s.mu.reverseAbsorbed } }

/-- A reverse count (R7, R11). -/
def reverseCount (s : State) : State := countReverse s |> lowerPhase |> takeTasks false

/-! ## The encoder (R3, R4) -/

/-- What a new state of the encoder pair yields. -/
inductive EdgeKind where
  | noChange
  | forward
  | reverse
  | illegal
  deriving DecidableEq, Repr

/-- The place of a pin state in the forward cycle (0, 0), (1, 0), (1, 1), (0, 1) (R3). -/
def cyclePlace (a b : Bool) : BitVec 2 :=
  match a, b with
  | false, false => 0
  | true, false => 1
  | true, true => 2
  | false, true => 3

/-- The table of R3. -/
def edgeKind (lastA lastB newA newB : Bool) : EdgeKind :=
  let d := cyclePlace newA newB - cyclePlace lastA lastB
  if d = 0 then .noChange else if d = 1 then .forward else if d = 3 then .reverse else .illegal

/-- An illegal transition (R4). -/
def illegalTransition (s : State) : State :=
  stopFault .motion none { s with mu := { s.mu with motionErrors := bump s.mu.motionErrors } }

/-- The last encoder state taken. -/
def setEncoder (a b : Bool) (s : State) : State := { s with mu := { s.mu with encA := a, encB := b } }

/-- A new state of the encoder pin pair (R3). -/
def encoderState (a b : Bool) (s : State) : State :=
  let s1 := setEncoder a b s
  match s.mu.profile.source with
  | .simulated => s1
  | .encoder =>
    match edgeKind s.mu.encA s.mu.encB a b with
    | .noChange => s1
    | .forward => forwardCount s1
    | .reverse => reverseCount s1
    | .illegal => illegalTransition s1

/-! ## The simulated source (R5) and the speed windows (R12) -/

/-- The time of count k within its millisecond, in microseconds (R5). -/
def simulatedSpacing (rate k : Nat) : Nat := k * 1000 / rate

/-- The source after one more count: the R-th ends the millisecond and the next begins (R5). -/
def SimSource.issue : SimSource → SimSource
  | .stopped => .stopped
  | .generating rate issued => .generating rate (if issued + 1 < rate then issued + 1 else 0)

/-- The simulated source's next count; a source that has stopped issues none (R5). -/
def simulatedTick (s : State) : State :=
  match s.mu.sim with
  | .stopped => s
  | .generating _ _ => forwardCount { s with mu := { s.mu with sim := s.mu.sim.issue } }

/-- S from the speed-window count of the window that ends (R12). -/
def speedOf (n : Int) : Nat := min n.toNat 4095

/-- A speed window ends (R12). -/
def windowExpiry (s : State) : State :=
  { s with mu := { s.mu with speed := speedOf s.mu.windowCount, windowCount := 0 } }

end Sys2Proof.Machine
end

