-- ==== Sys2Proof/Machine/Admission.lean ====
section
/-! DEFINITION. Admission: a COPY record checked and accepted into staging (spec/03_copy_admission_and_the_plan_table.md sections 3.2 and
3.3), and a BUNDLE-OPEN record checked and accepted (spec/08_bundles_and_stacking.md section 8.2). -/

namespace Sys2Proof.Machine

/-! ## COPY (R39 to R45, R137) -/

/-- The sequence a COPY payload carries. -/
def copySeq (payload : List Byte) : Seq := BitVec.ofNat 24 (fieldAt3 payload 1)

/-- The bundle number a COPY payload carries. -/
def copyBundle (payload : List Byte) : Word16 := BitVec.ofNat 16 (fieldAt2 payload 4)

/-- The forward distance from the last accepted sequence (R41). -/
def seqDistance (last seq : Seq) : Nat := (seq - last).toNat

/-- The sequence check passes (R41). -/
def seqPasses : Option Seq → Seq → Bool
  | none, _ => true
  | some last, seq => decide (1 ≤ seqDistance last seq ∧ seqDistance last seq ≤ 8388608)

/-- The bundle checks of a COPY record (R137). -/
def bundleRefusal (number : Word16) : Option Bundle → Option Answer
  | none => some { status := .noBundle, detail := 0, data := bundleOrNone none }
  | some b =>
    if b.number ≠ number then some { status := .noBundle, detail := 0, data := bundleOrNone (some b.number) }
    else if b.receiving then none
    else some { status := .overcount, detail := 0, data := octets2 b.expected }

/-- The receiving bundle (section 8.1). -/
def State.receivingBundle (s : State) : Option Bundle := s.bu.receiving.bind s.bundle

/-- The first of the checks before FULL that refuses a COPY record (R39). -/
def copyRefusal (payload : List Byte) (s : State) : Option Answer :=
  match copyFormat payload with
  | some d => some (.refusal .format d)
  | none =>
    if 63 < octetAt payload 6 then some (.refusal .range 3)
    else if ¬ seqPasses s.au.lastSeq (copySeq payload) then
      some { status := .sequence, detail := 0, data := seqOrNone s.au.lastSeq }
    else bundleRefusal (copyBundle payload) s.receivingBundle

/-- The stored form of a COPY payload's text (R44, R45). -/
def copyStored (payload : List Byte) : List Byte :=
  storedText ((cutLines (copyLengths payload) (copyText payload)).map (fun l => l.map storedChar))

/-- The number of characters replaced (R44). -/
def copyReplaced (payload : List Byte) : Nat := (copyText payload).countP outsideText

/-- The pool blocks a COPY payload's text takes (R45). -/
def State.copyBlocks (s : State) (payload : List Byte) : List Nat :=
  lowestFree s.au.blocksUsed (blocksNeeded (copyStored payload).length)

/-- The staged copy of an accepted COPY record (R43). -/
def State.stagedOf (s : State) (payload : List Byte) (ordinal : Word16) : StagedCopy :=
  { seq := copySeq payload, bundleNo := copyBundle payload, ordinal := ordinal
    plan := Fin.ofNat 64 (octetAt payload 6), lineCount := octetAt payload 7, blocks := s.copyBlocks payload }

/-- Writes an accepted copy into its staging entry, stores its text and takes its sequence (R43 steps 1 to 4). -/
def stageCopy (i : Fin 16) (payload : List Byte) (ordinal : Word16) (s : State) : State :=
  let s1 := setEntry i (.arrived (s.stagedOf payload ordinal)) s
  { s1 with au :=
      { s1.au with
        blocksUsed := useBlocks s.au.blocksUsed (s.copyBlocks payload)
        pool := s.au.pool.storeBlocks (copyStored payload) (s.copyBlocks payload)
        lastSeq := some (copySeq payload) } }

/-- SEQUENCE_GAP for a distance above 1 from the sequence last accepted (R41). -/
def noticeGap (last : Option Seq) (seq : Seq) (s : State) : State :=
  match last with
  | none => s
  | some l =>
    if 1 < seqDistance l seq then raiseNotice (.sequenceGap (l + 1) (min (seqDistance l seq - 1) 8388607)) s else s

/-- TEXT_SUBST for a record with replaced characters (R44). -/
def noticeSubst (seq : Seq) (replaced : Nat) (s : State) : State :=
  if 0 < replaced then raiseNotice (.textSubst seq (min replaced 255)) s else s

/-- The acceptance of a COPY record into its entry (R43). -/
def acceptCopy (i : Fin 16) (payload : List Byte) (ordinal : Word16) (s : State) : State :=
  stageCopy i payload ordinal s
    |> countReceived ordinal
    |> noticeGap s.au.lastSeq (copySeq payload)
    |> noticeSubst (copySeq payload) (copyReplaced payload)
    |> startResolver

/-- An entry is held for the record: the one reserved at its kind octet, or the lowest FREE one now (R42). -/
def holdEntry (s : State) : State := if s.receivingEntry.isSome then s else reserveEntry s

/-- A COPY record taken (R39, R42, R43). -/
def ownCopy (payload : List Byte) (s : State) : State × Answer :=
  match copyRefusal payload s with
  | some a => (freeReceiving s, a)
  | none =>
    match (holdEntry s).receivingEntry, s.receivingBundle with
    | some i, some b =>
      let s1 := acceptCopy i payload b.ordinal (holdEntry s)
      (s1, .ok (BitVec.ofNat 8 s1.freeEntries) [])
    | _, _ => (s, .refusal .full 0)

/-! ## BUNDLE-OPEN (R134, R135) -/

/-- The bundle of the table with a bundle number (R134). -/
def State.bundleNamed (s : State) (number : Word16) : Option Bundle :=
  s.bu.table.find? (fun b => decide (b.number = number))

/-- The first check that refuses a BUNDLE-OPEN record (R134). -/
def bundleOpenRefusal (payload : List Byte) (s : State) : Option Answer :=
  if payload.length ≠ 8 then some (.refusal .format 0x04)
  else
    match rangeAnswer (bundleChecks payload) with
    | some a => some a
    | none =>
      match s.bundleNamed (BitVec.ofNat 16 (fieldAt2 payload 1)) with
      | some b => some { status := .duplicate, detail := 0, data := octets2 b.ordinal.toNat }
      | none => if 8 ≤ s.bu.table.length then some (.refusal .full 0) else none

/-- A BUNDLE-OPEN record taken (R134, R135). -/
def ownBundleOpen (payload : List Byte) (s : State) : State × Answer :=
  match bundleOpenRefusal payload s with
  | some a => (s, a)
  | none =>
    let s1 := openBundle payload s
    (s1, .ok (BitVec.ofNat 8 (8 - s1.bu.table.length)) (octets2 s.bu.nextOrdinal.toNat))

end Sys2Proof.Machine
end

