-- ==== Sys2Proof/Machine/Tables.lean ====
section
/-! DEFINITION. Table access: the protection in front of every write (R178, R180), and each table's owner, which checks the line state, the
entry index (field 1) and the fields and carries out the write or the read (R1, R2, R17 to R21, R34, R53 to R55, R95). -/

namespace Sys2Proof.Machine

/-- The refusal of an owner that takes a write in STOPPED alone (R1, R17, R34). -/
def notStopped : Answer := .refusal .state 0x01

/-- An owner's answer to a write, with its effect if no field fails. -/
def checkedWrite (checks : List (Nat × Bool)) (effect : State → State) (s : State) : State × Answer :=
  match rangeAnswer checks with
  | some a => (s, a)
  | none => (effect s, .ok 0 [])

/-- An owner's answer to a write taken in STOPPED alone: the state check comes before the fields. -/
def stoppedWrite (checks : List (Nat × Bool)) (effect : State → State) (s : State) : State × Answer :=
  if s.lc.line = .stopped then checkedWrite checks effect s else (s, notStopped)

/-! ## LINE_PROFILE (R1, R2) -/

/-- The line profile takes the written values and A becomes 0; phase and L stay (R2). The encoder pins' last state is
followed under either source (R3), so a switch to ENCODER needs no further effect. -/
def setProfile (p : LineProfile) (s : State) : State := { s with mu := { s.mu with profile := p, acc := 0 } }

/-- A LINE_PROFILE write (R1). -/
def writeProfile (index : Nat) (entry : List Byte) : State → State × Answer :=
  stoppedWrite ((1, decide (index = 0)) :: profileChecks entry) (setProfile (profileOfOctets entry))

/-! ## STATION (R17, R22, R95) -/

/-- The Check Unit's state of a station after an accepted station write (R95). -/
def writtenCheckWork (e : StationEntry) (phase : Nat) : CheckWork :=
  { presenceRun := 0, detected := false, windowClosed := decide (e.windowEnd ≤ phase), measure := .notTaken
    nextSample := 0, sampleSum := 0, faultRun := 0, drift := 0, jamRun := 0, jamRaised := false }

/-- A station entry of the table set. -/
def putStation (i : StationNo) (e : StationEntry) (s : State) : State :=
  { s with fu := { s.fu with stations := s.fu.stations.set i.val e i.isLt } }

/-- The effect of an accepted station write (R17, R22, R95). -/
def setStation (i : StationNo) (e : StationEntry) (s : State) : State :=
  putStation i e s
    |> recomputeStation i
    |> setCheckWork i (fun _ => writtenCheckWork e s.mu.phase)

/-- A STATION write (R17). -/
def writeStation (index : Nat) (entry : List Byte) : State → State × Answer :=
  stoppedWrite ((1, decide (index ≤ 15)) :: stationChecks entry) (setStation (Fin.ofNat 16 index) (stationOfOctets entry))

/-! ## CURVE (R19) -/

/-- Recomputes the fire points of the stations with a fire point that name a curve (R19, R22). -/
def recomputeCurve (k : Fin 4) (s : State) : State :=
  forStations (fun i s => if (s.station i).curve = some k ∧ (s.station i).kind.fires then recomputeStation i s else s) s

/-- A curve's slot set. -/
def putCurve (k : Fin 4) (f : CurveSlot → CurveSlot) (s : State) : State :=
  { s with fu := { s.fu with curves := modifyAt s.fu.curves k f } }

/-- The effect of an accepted curve write by line state (R19). -/
def setCurve (k : Fin 4) (c : Curve) (s : State) : State :=
  if s.lc.line = .stopped then
    recomputeCurve k (putCurve k (fun _ => { active := c, shadow := c, pending := false }) s)
  else putCurve k (fun slot => { slot with shadow := c, pending := true }) s

/-- A CURVE write (R19). -/
def writeCurve (index : Nat) (entry : List Byte) : State → State × Answer :=
  checkedWrite ((1, decide (index ≤ 3)) :: curveChecks entry) (setCurve (Fin.ofNat 4 index) (curveOfOctets entry))

/-! ## OUTPUT_MAP (R34) -/

/-- An output map entry set. -/
def putOutput (k : Fin 24) (e : OutputEntry) (s : State) : State :=
  { s with fu := { s.fu with outputs := s.fu.outputs.set k.val e k.isLt } }

/-- An OUTPUT_MAP write (R34). -/
def writeOutput (index : Nat) (entry : List Byte) : State → State × Answer :=
  stoppedWrite ((1, decide (index ≤ 23)) :: outputChecks entry) (putOutput (Fin.ofNat 24 index) (outputOfOctets entry))

/-! ## PLAN (R53, R54, R55) -/

/-- What a plan write does to a staging entry: RESOLVED with the code returns to ARRIVED, RESOLVING with the code gets the
re-resolve request. -/
def replanEntry (code : PlanCode) : StagingEntry → StagingEntry
  | .resolved c v => if c.plan = code then .arrived c else .resolved c v
  | .resolving c again => .resolving c (again || decide (c.plan = code))
  | e => e

/-- The plan table and staging after an accepted plan write. -/
def putPlan (code : PlanCode) (p : PlanEntry) (s : State) : State :=
  { s with au :=
      { s.au with
        plans := s.au.plans.set code.val p code.isLt
        staging := mapAll s.au.staging (fun _ e => replanEntry code e) } }

/-- The effect of an accepted plan write (R53, R54, R55). -/
def setPlan (code : PlanCode) (p : PlanEntry) (s : State) : State := startResolver (putPlan code p s)

/-- A PLAN write (R53). -/
def writePlan (index : Nat) (entry : List Byte) : State → State × Answer :=
  checkedWrite ((1, decide (index ≤ 63)) :: planChecks entry) (setPlan (Fin.ofNat 64 index) (planOfOctets entry))

/-! ## TABLE-WRITE and TABLE-READ (R178, R180) -/

/-- A write handed to the table's owner. -/
def ownerWrite (t : Table) (index : Nat) (entry : List Byte) : State → State × Answer :=
  match t with
  | .station => writeStation index entry
  | .curve => writeCurve index entry
  | .plan => writePlan index entry
  | .outputMap => writeOutput index entry
  | .lineProfile => writeProfile index entry

/-- A table is in the write-enable set. -/
def State.writeEnabled (s : State) (t : Table) : Bool := s.ll.writeEnable.getLsbD (tableCode t - 1)

/-- A refusal with PROTECTED sets the lock (R178). -/
def setLock (s : State) : State := { s with ll := { s.ll with lock := true } }

/-- A TABLE-WRITE record taken (R178, section 11.1). -/
def ownTableWrite (payload : List Byte) (s : State) : State × Answer :=
  if payload.length < 2 then (s, .refusal .format 0x04)
  else
    match tableOfCode (octetAt payload 1) with
    | none => (s, .refusal .range 0x00)
    | some t =>
      if payload.length ≠ tableWriteLength t then (s, .refusal .format 0x04)
      else if s.ll.lock then (s, .refusal .locked 0x00)
      else if s.writeEnabled t then ownerWrite t (octetAt payload 2) (payload.drop 3) s
      else (setLock s, .refusal .protectedTable (BitVec.ofNat 8 (tableCode t)))

/-- The entry a TABLE-READ returns, or none for an index beyond the table (R1, R18, R21, R34, R53). -/
def State.readEntry (s : State) (t : Table) (index : Nat) : Option (List Byte) :=
  match t with
  | .station => if h : index < 16 then some (stationOctets s.fu.stations[index]) else none
  | .curve =>
    if h : index < 4 then some (curveOctets s.fu.curves[index].active ++ [boolOctet s.fu.curves[index].pending]) else none
  | .plan => if h : index < 64 then some (planOctets s.au.plans[index]) else none
  | .outputMap => if h : index < 24 then some (outputOctets s.fu.outputs[index]) else none
  | .lineProfile => if index = 0 then some (profileOctets s.mu.profile) else none

/-- A TABLE-READ record answered (R180, R188). DESIGN CHOICE: a table code that names no table is answered before the length
is looked at, as R178 orders them for a TABLE-WRITE (notes/assumptions/31.md). -/
def readAnswer (payload : List Byte) (s : State) : Answer :=
  if payload.length < 2 then .refusal .format 0x04
  else
    match tableOfCode (octetAt payload 1) with
    | none => .refusal .range 0x00
    | some t =>
      if payload.length ≠ 3 then .refusal .format 0x04
      else
        match s.readEntry t (octetAt payload 2) with
        | none => .refusal .range 0x01
        | some entry => .ok 0 (BitVec.ofNat 8 (tableCode t) :: BitVec.ofNat 8 (octetAt payload 2) :: entry)

end Sys2Proof.Machine
end

