-- ==== Sys2Proof/Machine/LineControlUnit.lean ====
section
/-! DEFINITION. Line commands: the checks of a LINE-COMMAND record, the configuration checks of START, and each subcommand's effect
(spec/09_line_states_holds_and_faults.md; the conditions of START in spec/02_stations_and_firing.md section 2.2). -/

namespace Sys2Proof.Machine

/-- An owner's answer OK, with the line state after the command in its detail octet (R153). -/
def lineOk (data : List Byte) (s : State) : State × Answer := (s, .ok (lineCode s.lc.line) data)

/-- A refusal with STATE. -/
def stateRefusal (reason : Byte) (s : State) : State × Answer := (s, .refusal .state reason)

/-! ## The configuration checks of START (section 2.2) -/

/-- One condition that START can fail: its CONFIG reason, whether it fails, and the stations that break it, rising. -/
structure ConfigCheck where
  reason : Byte
  fails : Bool
  stations : List StationNo
  deriving DecidableEq, Repr

/-- The offset of the first station of a kind, 0 with none. -/
def State.offsetOf (s : State) (k : StationKind) : Nat := ((s.firstOf k).map (fun i => (s.station i).offset)).getD 0

/-- A count reason: the stations that break it are all of the kind. -/
def countCheck (reason : Byte) (k : StationKind) (fails : Nat → Bool) (s : State) : ConfigCheck :=
  { reason := reason, fails := fails (s.stationsOf k).length, stations := s.stationsOf k }

/-- A reason broken by every station that meets a condition. -/
def eachCheck (reason : Byte) (breaks : StationNo → Bool) : ConfigCheck :=
  { reason := reason, fails := stationNos.any breaks, stations := stationNos.filter breaks }

/-- An order reason between the stations of two kinds. -/
def orderCheck (reason : Byte) (a b : StationKind) (fails : Bool) (s : State) : ConfigCheck :=
  { reason := reason, fails := fails
    stations := stationNos.filter (fun i => decide ((s.station i).kind = a ∨ (s.station i).kind = b)) }

/-- Two INSERT stations share this one's feeder number. -/
def State.sharesFeeder (s : State) (i : StationNo) : Bool :=
  decide ((s.station i).kind = .insert) &&
  (s.stationsOf .insert).any (fun j => decide (j ≠ i) && decide ((s.station j).feeder = (s.station i).feeder))

/-- A station other than GATE, STACK and NONE stands at or beyond the gate. -/
def State.beyondGate (s : State) (i : StationNo) : Bool :=
  decide ((s.station i).kind ≠ .gate) && decide ((s.station i).kind ≠ .stack) && decide ((s.station i).kind ≠ .none) &&
  decide (s.offsetOf .gate ≤ (s.station i).offset)

/-- A station's fire phase is beyond P − 1. -/
def State.phaseBeyond (s : State) (i : StationNo) : Bool :=
  decide ((s.station i).kind ≠ .none) && decide (s.mu.profile.p - 1 < (s.station i).phi)

/-- A station's window end is beyond P − 1. -/
def State.windowBeyond (s : State) (i : StationNo) : Bool :=
  decide ((s.station i).kind ≠ .none) && decide (s.mu.profile.p - 1 < (s.station i).windowEnd)

/-- A station with a fire point names a curve whose amin in force is above its fire phase. -/
def State.curveBeyond (s : State) (i : StationNo) : Bool :=
  (s.station i).kind.fires &&
  (match (s.station i).curve with
   | none => false
   | some k => decide ((s.station i).phi < s.fu.curves[k].active.amin))

/-- The seventeen conditions in the order of the table of section 2.2. -/
def configChecks (s : State) : List ConfigCheck :=
  [countCheck 0x01 .feed (fun n => decide (n ≠ 1)) s,
   eachCheck 0x02 (fun i => decide ((s.station i).kind = .feed) && decide ((s.station i).offset ≠ 0)),
   countCheck 0x03 .gate (fun n => decide (n ≠ 1)) s,
   countCheck 0x04 .stack (fun n => decide (n ≠ 1)) s,
   orderCheck 0x05 .gate .stack (decide (s.offsetOf .stack ≤ s.offsetOf .gate)) s,
   countCheck 0x06 .print (fun n => decide (1 < n)) s,
   countCheck 0x07 .verify (fun n => decide (1 < n)) s,
   countCheck 0x08 .caliper (fun n => decide (2 < n)) s,
   countCheck 0x09 .insert (fun n => decide (8 < n)) s,
   eachCheck 0x0A s.sharesFeeder,
   eachCheck 0x0B s.beyondGate,
   orderCheck 0x0C .print .verify
     ((s.firstOf .print).isSome && (s.firstOf .verify).isSome && decide (s.offsetOf .verify ≤ s.offsetOf .print)) s,
   eachCheck 0x0D (fun i =>
     decide ((s.station i).kind = .print) && decide ((s.station i).offset < (s.station i).printLead)),
   eachCheck 0x0E s.phaseBeyond,
   eachCheck 0x0F s.windowBeyond,
   eachCheck 0x10 s.curveBeyond,
   { reason := 0x11, fails := (s.firstOf .print).isSome && !s.pp.synchronised, stations := [] }]

/-- The refusal with CONFIG of the first condition that fails (R154 stage 1). -/
def configRefusal (s : State) : Option Answer :=
  ((configChecks s).find? ConfigCheck.fails).map (fun c =>
    { status := .config, detail := c.reason, data := [stationOrNone c.stations.head?] })

/-- The track geometry allows START (R61, R154 stage 2). -/
def State.geometryFits (s : State) : Bool :=
  if s.trackOccupied then
    decide (s.offsetOf .stack + 1 = s.trackLen) && decide (s.tu.gate = some (s.offsetOf .gate))
  else decide (s.gm.queue.length ≤ s.offsetOf .stack + 1)

/-! ## START (R155) -/

/-- The Track Unit latches T and g; a track free of contexts and ghosts holds EMPTY under the new T (R61). -/
def latchTrack (s : State) : State :=
  { s with tu := { s.tu with
      track := if s.trackOccupied then s.tu.track else List.replicate (s.offsetOf .stack + 1) .empty
      gate := some (s.offsetOf .gate) } }

/-- The line leaves STOPPED for RUNNING, or for HOLDING with HOLD_ENTERED (R155 step 2). -/
def enterLine (s : State) : State :=
  if s.lc.holds.isEmpty then setLine .running s else raiseNotice (.holdEntered s.lc.holds) (setLine .holding s)

/-- With motion source SIMULATED the source starts a new millisecond (R5). -/
def startSource (s : State) : State :=
  if s.mu.profile.source = .simulated then
    { s with mu := { s.mu with sim := .generating s.mu.profile.rate 0 } }
  else s

/-- The displaced flag cleared. -/
def clearDisplaced (s : State) : State := { s with lc := { s.lc with displaced := false } }

/-- An accepted START's effect (R155). -/
def acceptStart (s : State) : State := latchTrack s |> enterLine |> startSource |> clearDisplaced

/-- START (R153, R154, R155). -/
def lineStart (s : State) : State × Answer :=
  if s.lc.line ≠ .stopped then stateRefusal 0x01 s
  else
    match configRefusal s with
    | some a => (s, a)
    | none =>
      if s.geometryFits then lineOk [boolOctet s.lc.displaced] (acceptStart s) else stateRefusal 0x04 s

/-! ## HOLD, RESUME, RUN_OUT, STOP_NOW, SET_OVERRIDE -/

/-- HOLD (R156). -/
def lineHold (s : State) : State × Answer := lineOk [] (addHold .command s)

/-- RESUME (R156). -/
def lineResume (s : State) : State × Answer :=
  lineOk [holdOctet s.lc.holds.resumed] (reduceHolds s.lc.holds.resumed s)

/-- RUN_OUT is taken in RUNNING and HOLDING (R157). -/
def lineRunOut (s : State) : State × Answer :=
  if s.lc.line = .running ∨ s.lc.line = .holding then
    if s.trackOccupied then lineOk [] (setLine .runOut s) else lineOk [] (stopLine .stopped s)
  else stateRefusal 0x02 s

/-- STOP_NOW is taken in the firing states (R158). -/
def lineStopNow (s : State) : State × Answer :=
  if s.firing then lineOk [] (stopLine .stopped s) else stateRefusal 0x02 s

/-- The override flags written together (R33). -/
def setOverrides (divertAll passAll : Bool) (s : State) : State :=
  { s with fu := { s.fu with divertAll := divertAll, passAll := passAll } }

/-- SET_OVERRIDE (R33, R153). DESIGN CHOICE: where both override codes are bad, the RANGE detail names the first of them in
layout order, field 2, DIVERT-ALL; none of R33, R153, R188 and section 11.3 says which field it names
(notes/assumptions/37.md). -/
def lineSetOverride (payload : List Byte) (s : State) : State × Answer :=
  match rangeAnswer [(2, decide (octetAt payload 2 ≤ 1)), (3, decide (octetAt payload 3 ≤ 1))] with
  | some a => (s, a)
  | none => lineOk [] (setOverrides (decide (octetAt payload 2 = 1)) (decide (octetAt payload 3 = 1)) s)

/-! ## CLEAR_FAULT (R165) -/

/-- Every context on the track gets SUSPECT (R72). -/
def suspectAll (s : State) : State :=
  { s with tu := { s.tu with track := s.tu.track.map (Content.mapContext (Context.mark .suspect)) } }

/-- An accepted CLEAR_FAULT's effect on the Line Control Unit (R165). -/
def endEpisode (s : State) : State :=
  { s with lc := { s.lc with line := .stopped, faults := FaultSet.empty, further := 0, armed := true } }

/-- CLEAR_FAULT (R165). -/
def lineClearFault (s : State) : State × Answer :=
  if s.lc.line ≠ .faulted then stateRefusal 0x03 s
  else if s.pins.estop then stateRefusal 0x05 s
  else if s.jamInputActive then stateRefusal 0x06 s
  else lineOk [faultOctet s.lc.faults, BitVec.ofNat 8 s.lc.further] (endEpisode (suspectAll s))

/-! ## RUN_RESET (R167) -/

/-- The Motion Unit at a run reset (R15). -/
def resetMotion (s : State) : State :=
  { s with mu := { s.mu with acc := 0, motionErrors := 0, reverseAbsorbed := 0 } }

/-- The Firing Unit at a run reset: what section 2.4 says of the pulses; tables and per-pitch state are kept (R37). -/
def resetFiring (s : State) : State :=
  { s with fu := { s.fu with work := mapAll s.fu.work (fun _ w => { w with pulse := false, pulseEnd := 0 }) } }

/-- A staging entry after a run reset: RECEIVING stays, every other becomes FREE (R57). -/
def StagingEntry.discarded : StagingEntry → StagingEntry
  | .receiving => .receiving
  | _ => .free

/-- The Admission Unit at a run reset (R57). -/
def resetAdmission (s : State) : State :=
  { s with au := { s.au with
      staging := mapAll s.au.staging (fun _ e => e.discarded)
      order := s.au.order.filter (fun i => decide (s.au.staging[i] = .receiving))
      resolver := none
      blocksUsed := 0
      lastSeq := none } }

/-- The Track Unit at a run reset (R74). -/
def resetTrack (s : State) : State :=
  { s with tu := { s.tu with track := List.replicate s.tu.track.length .empty, starvedRun := false, starved := 0 } }

/-- The Check Unit at a run reset (R94). -/
def resetChecks (s : State) : State :=
  { s with cu := { s.cu with
      work := mapAll s.cu.work (fun _ w => { w with faultRun := 0, drift := 0 })
      strayProduct := 0, strayRead := 0, readerErrors := 0 } }

/-- The Printer Port at a run reset (R110). -/
def resetPrinter (s : State) : State :=
  sendClear { s with pp := { s.pp with
      transmit := dropJobs s.pp.transmit, jobs := [], nextTag := 0, errors := 0, stray := 0, synchronised := false } }

/-- The Gate and Make-up Unit at a run reset; the gate-decided flag is kept (R132). -/
def resetGate (s : State) : State := { s with gm := { s.gm with queue := [], ghostDiverts := 0 } }

/-- The Bundle Unit at a run reset; the pending kicks are kept (R150). -/
def resetBundles (s : State) : State :=
  { s with bu := { s.bu with table := [], nextOrdinal := 0, receiving := none } }

/-- The Line Link Controller at a run reset (R187). -/
def resetLink (s : State) : State :=
  { s with ll := { s.ll with
      crcErrors := 0, frameTimeouts := 0, lengthErrors := 0, receiveOverruns := 0, noticesDropped := 0 } }

/-- The Line Control Unit at a run reset (R168). -/
def resetLine (s : State) : State :=
  { s with lc := { s.lc with
      holds := s.lc.holds.resumed, faults := FaultSet.empty, locator := none, armed := true, further := 0
      displaced := false } }

/-- Every unit's work at a run reset (R167). -/
def runResetAll (s : State) : State :=
  resetMotion s |> resetFiring |> resetAdmission |> resetTrack |> resetChecks |> resetPrinter |> resetGate
    |> resetBundles |> resetLink |> resetLine

/-- The copies a run reset discards: staged, on the track and in the make-up queue (R167). -/
def State.copiesHeld (s : State) : Nat := s.stagingFill + s.trackCopies + s.gm.queue.length

/-- RUN_RESET is taken in STOPPED (R167). -/
def lineRunReset (s : State) : State × Answer :=
  if s.lc.line = .stopped then
    lineOk [BitVec.ofNat 8 s.copiesHeld, BitVec.ofNat 8 s.bu.table.length] (runResetAll s)
  else stateRefusal 0x01 s

/-! ## The record (R153, section 11.3) -/

/-- The payload length of a LINE-COMMAND with a subcommand code. -/
def lineCommandLength (code : Nat) : Nat := if code = 7 then 4 else 2

/-- A LINE-COMMAND record taken (R153). -/
def ownLineCommand (payload : List Byte) (s : State) : State × Answer :=
  if payload.length < 2 ∨ payload.length ≠ lineCommandLength (octetAt payload 1) then (s, .refusal .format 0x04)
  else
    match octetAt payload 1 with
    | 1 => lineStart s
    | 2 => lineHold s
    | 3 => lineResume s
    | 4 => lineRunOut s
    | 5 => lineStopNow s
    | 6 => lineClearFault s
    | 7 => lineSetOverride payload s
    | 8 => lineRunReset s
    | _ => (s, .refusal .range 0x01)

end Sys2Proof.Machine
end

