-- ==== Sys2Proof/Machine/Link.lean ====
section
/-! DEFINITION. The Line Link Controller: the status read, notice and protection records, the taking of a frame with its reply, the receive
state, and the upstream queue's report and sending (spec/10_the_line_link.md). -/

namespace Sys2Proof.Machine

/-! ## STATUS-READ (R181, section 11.7) -/

/-- Octets 3 to 12 of the STATUS-READ data: the fault locator, or its "none" coding. -/
def locatorOctets : Option Locator → List Byte
  | none => [0x00, 0xFF, 0, 0, 0, 0] ++ seqOrNone none
  | some l => [faultCode l.cause, stationOrNone l.station] ++ octets4 l.pitch.toNat ++ seqOrNone l.seq

/-- The fourteen counters in the order of section 10.9. -/
def State.counters (s : State) : List Nat :=
  [s.mu.motionErrors, s.mu.reverseAbsorbed, s.tu.starved, s.cu.strayProduct, s.cu.strayRead, s.cu.readerErrors,
   s.pp.errors, s.pp.stray, s.gm.ghostDiverts, s.ll.crcErrors, s.ll.frameTimeouts, s.ll.lengthErrors,
   s.ll.receiveOverruns, s.ll.noticesDropped]

/-- The 62 octets of the STATUS-READ data. -/
def State.statusOctets (s : State) : List Byte :=
  [lineCode s.lc.line, holdOctet s.lc.holds, faultOctet s.lc.faults] ++ locatorOctets s.lc.locator ++
  [BitVec.ofNat 8 s.lc.further, boolOctet s.lc.displaced] ++ octets4 s.mu.pitch.toNat ++ octets2 s.mu.phase ++
  octets2 s.mu.speed ++
  [BitVec.ofNat 8 s.stagingFill, BitVec.ofNat 8 s.trackCopies, BitVec.ofNat 8 s.gm.queue.length,
   BitVec.ofNat 8 s.bu.table.length] ++
  octets2 s.ll.upstream.length ++ octets2 s.ll.flags.toNat ++
  [BitVec.ofNat 8 s.ll.writeEnable.toNat, boolOctet s.ll.lock, boolOctet s.pp.synchronised] ++
  s.counters.flatMap octets2

/-- A STATUS-READ record answered; it changes no state (R181). -/
def statusAnswer (payload : List Byte) (s : State) : Answer :=
  if payload.length = 1 then .ok 0 s.statusOctets else .refusal .format 0x04

/-! ## NOTICE-MASK, FLAG-CLEAR (R183) and PROTECT (R179) -/

/-- A notice-kind set field names none but the eleven kinds (R188). -/
def kindSetValid (payload : List Byte) : Bool := decide (fieldAt2 payload 1 < 2048)

/-- A NOTICE-MASK record taken (R183). DESIGN CHOICE: a payload that is too long is FORMAT though its set names an unassigned
kind too; the spec gives FORMAT and RANGE no order here (notes/assumptions/36.md). -/
def ownNoticeMask (payload : List Byte) (s : State) : State × Answer :=
  if payload.length ≠ 3 then (s, .refusal .format 0x04)
  else if kindSetValid payload then
    let m : BitVec 11 := BitVec.ofNat 11 (fieldAt2 payload 1)
    ({ s with ll := { s.ll with mask := m } }, .ok 0 (octets2 m.toNat))
  else (s, .refusal .range 0x01)

/-- A FLAG-CLEAR record taken (R183). DESIGN CHOICE: a payload that is too long is FORMAT though its set names an unassigned
kind too; the spec gives FORMAT and RANGE no order here (notes/assumptions/36.md). -/
def ownFlagClear (payload : List Byte) (s : State) : State × Answer :=
  if payload.length ≠ 3 then (s, .refusal .format 0x04)
  else if kindSetValid payload then
    let f : BitVec 11 := s.ll.flags &&& ~~~(BitVec.ofNat 11 (fieldAt2 payload 1))
    ({ s with ll := { s.ll with flags := f } }, .ok 0 (octets2 f.toNat))
  else (s, .refusal .range 0x01)

/-- A PROTECT record taken (R179). DESIGN CHOICE: a payload that is too long is FORMAT though its set names an unassigned table
too; the spec gives FORMAT and RANGE no order here (notes/assumptions/36.md). -/
def ownProtect (payload : List Byte) (s : State) : State × Answer :=
  if payload.length ≠ 2 then (s, .refusal .format 0x04)
  else if octetAt payload 1 < 32 then
    ({ s with ll := { s.ll with writeEnable := BitVec.ofNat 5 (octetAt payload 1), lock := false } },
      .ok 0 [BitVec.ofNat 8 (octetAt payload 1), boolOctet s.ll.lock])
  else (s, .refusal .range 0x01)

/-! ## The taking of a frame (R176, R177) -/

/-- The record of a good frame handed to its owning unit by its kind (R177). -/
def ownFrame (kind : Byte) (payload : List Byte) (s : State) : State × Answer :=
  match kind.toNat with
  | 1 => ownCopy payload s
  | 2 => ownBundleOpen payload s
  | 3 => ownTableWrite payload s
  | 4 => (s, readAnswer payload s)
  | 5 => ownLineCommand payload s
  | 6 => (s, statusAnswer payload s)
  | 7 => ownFlagClear payload s
  | 8 => ownNoticeMask payload s
  | 9 => ownProtect payload s
  | _ => (s, .refusal .format 0x05)

/-- The REPLY that carries an answer (R177). -/
def replyOf (kind : Byte) (payload : List Byte) (a : Answer) : Record :=
  .reply (payload.getD 0 0) kind a.status a.detail a.data

/-- A frame taken: its owner carries the record out, and the reply is placed last (R176, R177). -/
def takeFrame (kind : Byte) (payload : List Byte) (s : State) : State :=
  place (replyOf kind payload (ownFrame kind payload s).2) (ownFrame kind payload s).1

/-- The receive state set. -/
def setReceive (r : ReceiveState) (s : State) : State := { s with ll := { s.ll with receive := r } }

/-- A held frame is taken when the queue has 80 or more free places (R176). -/
def takeHeld (s : State) : State :=
  if s.ll.receive = .held ∧ s.hasRoom then takeFrame s.ll.buffer.kind s.ll.buffer.payload (setReceive .search s) else s

/-! ## The receive state (R173, R174, R175, R38) -/

/-- The frame buffer changed. -/
def setBuffer (f : FrameBuffer → FrameBuffer) (s : State) : State :=
  { s with ll := { s.ll with buffer := f s.ll.buffer } }

/-- An emptied frame buffer. -/
def FrameBuffer.cleared : FrameBuffer := { length := 0, kind := 0, payload := [], crcHigh := 0, crcLow := 0 }

/-- A good frame is taken at once, or held while the queue is short of room (R176). -/
def takeOrHold (s : State) : State :=
  if s.hasRoom then takeFrame s.ll.buffer.kind s.ll.buffer.payload (setReceive .search s) else setReceive .held s

/-- The entry reserved by a COPY frame that is discarded returns to FREE (R38). -/
def freeCopyEntry (s : State) : State := if s.ll.buffer.kind = 0x01 then freeReceiving s else s

/-- A frame that fails its CRC (R174). -/
def discardCrc (s : State) : State :=
  { s with ll := { s.ll with crcErrors := bump s.ll.crcErrors } }
    |> raiseNotice (.crcDiscard s.ll.buffer.length s.ll.buffer.kind)
    |> freeCopyEntry
    |> setReceive .search

/-- The CRC formed over the length, the kind and the payload of the buffer (R174). -/
def FrameBuffer.crc (b : FrameBuffer) : BitVec 16 := crc16 (b.length :: b.kind :: b.payload)

/-- The check of a frame that has become whole (R174). -/
def checkFrame (s : State) : State :=
  if s.ll.buffer.crc = s.ll.buffer.crcHigh ++ s.ll.buffer.crcLow then takeOrHold s else discardCrc s

/-- An octet taken by the receive state (R173). -/
def receiveOctet (o : Byte) (s : State) : State :=
  match s.ll.receive with
  | .search => if o = 0xA5 then setReceive .length (setBuffer (fun _ => FrameBuffer.cleared) s) else s
  | .length =>
    if 1 ≤ o.toNat ∧ o.toNat ≤ 250 then setReceive .kind (setBuffer (fun b => { b with length := o }) s)
    else setReceive .search { s with ll := { s.ll with lengthErrors := bump s.ll.lengthErrors } }
  | .kind =>
    let s1 := setReceive .payload (setBuffer (fun b => { b with kind := o }) s)
    if o = 0x01 then reserveEntry s1 else s1
  | .payload =>
    let s1 := setBuffer (fun b => { b with payload := b.payload ++ [o] }) s
    if s.ll.buffer.payload.length + 1 < s.ll.buffer.length.toNat then s1 else setReceive .crcHigh s1
  | .crcHigh => setReceive .crcLow (setBuffer (fun b => { b with crcHigh := o }) s)
  | .crcLow => checkFrame (setBuffer (fun b => { b with crcLow := o }) s)
  | .held => { s with ll := { s.ll with receiveOverruns := bump s.ll.receiveOverruns } }

/-- More than 5 ms between two octets of a frame: it is discarded; the timer runs neither in SEARCH nor in HELD (R175). -/
def frameGap (s : State) : State :=
  match s.ll.receive with
  | .search => s
  | .held => s
  | _ => setReceive .search (freeCopyEntry { s with ll := { s.ll with frameTimeouts := bump s.ll.frameTimeouts } })

/-! ## A whole frame at one event (notes/assumptions/3.md) -/

/-- A COPY frame is arriving with its kind octet taken. -/
def State.copyArriving (s : State) : Bool :=
  decide (s.ll.buffer.kind = 0x01) &&
  decide (s.ll.receive = .payload ∨ s.ll.receive = .crcHigh ∨ s.ll.receive = .crcLow)

/-- A frame whose octets all come while another is held: each is discarded and counted (R173). -/
def overrunFrame (payload : List Byte) (s : State) : State :=
  { s with ll := { s.ll with receiveOverruns := min (s.ll.receiveOverruns + (payload.length + 5)) 65535 } }

/-- The buffer of a whole frame. -/
def bufferOf (kind : Byte) (payload : List Byte) : FrameBuffer :=
  let crc := crc16 (lengthOctet payload :: kind :: payload)
  { length := lengthOctet payload, kind := kind, payload := payload
    crcHigh := crc.extractLsb' 8 8, crcLow := crc.extractLsb' 0 8 }

/-- A whole good frame is held for want of room (R176). -/
def holdFrame (kind : Byte) (payload : List Byte) (s : State) : State :=
  (if s.copyArriving ∧ kind ≠ 0x01 then freeReceiving s else s)
    |> setBuffer (fun _ => bufferOf kind payload)
    |> setReceive .held

/-- A whole good frame arrives at one event: its octets are lost while another frame is held (R173); a COPY has its entry
reserved (R38) and ends a COPY frame that was arriving; then it is taken or held (R176). -/
def arriveFrame (kind : Byte) (payload : List Byte) (s : State) : State :=
  if s.ll.receive = .held then overrunFrame payload s
  else
    let s1 := if kind = 0x01 then holdEntry s else s
    if s.hasRoom then
      takeFrame kind payload (if s.copyArriving ∧ kind = 0x01 then setReceive .search s1 else s1)
    else holdFrame kind payload s1

/-! ## The upstream queue's report and sending (R160, R172, R184) -/

/-- The hold-cause set without LINK_BACKLOG. -/
def HoldSet.drained (h : HoldSet) : HoldSet := { h with linkBacklog := false }

/-- The fill reported to the Line Control Unit: LINK_BACKLOG joins at 96 records and leaves at 32 (R160). -/
def reportBacklog (s : State) : State :=
  if 96 ≤ s.ll.upstream.length ∧ s.lc.holds.linkBacklog = false then addHold .linkBacklog s
  else if s.ll.upstream.length ≤ 32 ∧ s.lc.holds.linkBacklog = true then reduceHolds s.lc.holds.drained s
  else s

/-- The idle transmitter begins the head record while LRDY_IN is active (R172). -/
def beginSending (s : State) : State :=
  if ¬ s.ll.sending ∧ s.pins.lrdyIn ∧ s.ll.upstream ≠ [] then { s with ll := { s.ll with sending := true } } else s

/-- What every event ends with: a held frame taken if the queue now has room, the fill report, and the transmitter
(R172, R176, R184; notes/assumptions/4.md). -/
def finish (s : State) : State := takeHeld s |> reportBacklog |> beginSending

/-- The last octet of the upstream frame being sent has gone out: its record leaves the queue (R172). -/
def frameSent (s : State) : State :=
  if s.ll.sending then { s with ll := { s.ll with upstream := s.ll.upstream.tail, sending := false } } else s

end Sys2Proof.Machine
end

