-- ==== Sys2Proof/Machine/Ports.lean ====
section
/-! DEFINITION. The octets received on the printer and reader ports, gathered and checked as R191 gives it, the port events, power-on reset,
and the frame every event stands in. -/

namespace Sys2Proof.Machine

/-! ## A port message (R191) -/

/-- What an octet brings a port: nothing yet, a discard, or a message whose check passes. -/
inductive PortEvent where
  | nothing
  | discard
  | message (kind : Byte) (payload : List Byte)
  deriving DecidableEq, Repr

/-- The octets from the length octet to the last check octet are a message whose check passes. -/
def portCheck (octets : List Byte) : PortEvent :=
  let n := octetAt octets 0
  if octets.drop (n + 2) = octets2 (crc16 (octets.take (n + 2))).toNat then
    .message (octets.getD 1 0) ((octets.drop 2).take n)
  else .discard

/-- An octet taken by a port's receive state. -/
def portOctet (o : Byte) : PortReceive → PortReceive × PortEvent
  | .idle => if o = 0xA5 then (.arriving [], .nothing) else (.idle, .nothing)
  | .arriving [] => if 250 < o.toNat then (.idle, .discard) else (.arriving [o], .nothing)
  | .arriving (l :: t) =>
    if (l :: t ++ [o]).length < l.toNat + 4 then (.arriving (l :: t ++ [o]), .nothing)
    else (.idle, portCheck (l :: t ++ [o]))

/-! ## The reader port (R87, R88) -/

/-- The reader receive state set. -/
def setReader (r : PortReceive) (s : State) : State := { s with cu := { s.cu with reader := r } }

/-- A reader message that arrives whole, or is discarded for its kind or length (R87, R191). -/
def readerMessage (kind : Byte) (payload : List Byte) (s : State) : State :=
  match kind.toNat, payload with
  | 0x21, [h, l] => readerArrival (.value (h ++ l)) s
  | 0x22, [] => readerArrival .noRead s
  | _, _ => countReaderError s

/-- An octet on RRXD (R87, R191). -/
def readerOctet (o : Byte) (s : State) : State :=
  let s1 := setReader (portOctet o s.cu.reader).1 s
  match (portOctet o s.cu.reader).2 with
  | .nothing => s1
  | .discard => countReaderError s1
  | .message k p => readerMessage k p s1

/-- More than 5 ms between two octets of a reader message (R87). -/
def readerGap (s : State) : State :=
  match s.cu.reader with
  | .idle => s
  | .arriving _ => countReaderError (setReader .idle s)

/-! ## The printer port (R97) -/

/-- The printer receive state set. -/
def setPrinterReceive (r : PortReceive) (s : State) : State := { s with pp := { s.pp with receive := r } }

/-- PRINTER_ERRORS counts a message discarded at the port (R97). -/
def countPrinterError (s : State) : State := { s with pp := { s.pp with errors := bump s.pp.errors } }

/-- A printer message that arrives whole, or is discarded for its kind, its length or its codes (R97, R191). -/
def printerMessage (kind : Byte) (payload : List Byte) (s : State) : State :=
  match kind.toNat, payload with
  | 0x11, [] => printerCleared s
  | 0x12, [t] => if t.toNat ≤ 15 then printerTaken (t.setWidth 4) s else countPrinterError s
  | 0x13, [t, r] =>
    if t.toNat ≤ 15 ∧ r = 0 then printerDone (t.setWidth 4) .ok s
    else if t.toNat ≤ 15 ∧ r = 1 then printerDone (t.setWidth 4) .fail s
    else countPrinterError s
  | _, _ => countPrinterError s

/-- An octet on PRXD (R97, R191). -/
def printerOctet (o : Byte) (s : State) : State :=
  let s1 := setPrinterReceive (portOctet o s.pp.receive).1 s
  match (portOctet o s.pp.receive).2 with
  | .nothing => s1
  | .discard => countPrinterError s1
  | .message k p => printerMessage k p s1

/-- More than 5 ms between two octets of a printer message (R97). -/
def printerGap (s : State) : State :=
  match s.pp.receive with
  | .idle => s
  | .arriving _ => countPrinterError (setPrinterReceive .idle s)

/-! ## Events and reset (R169) -/

/-- The levels of the input pins taken. -/
def setPins (p : Pins) (s : State) : State := { s with pins := p }

/-- An event: while reset lasts the part takes none (section 9.8); else the pins are taken, the event's work is done, and
the event ends with `finish`. -/
def event (p : Pins) (work : State → State) (s : State) : Host.Outcome State Fault Refusal :=
  if s.inReset then .next s else .next (finish (work (setPins p s)))

/-- The pins with ESTOP active. -/
def estopPins (p : Pins) : Pins := { p with estop := true }

/-- The pins with LRDY_IN active. -/
def readyPins (p : Pins) : Pins := { p with lrdyIn := true }

/-- ESTOP becomes active (R161). -/
def estopFault (s : State) : State := stopFault .estop none s

/-- The state at the end of power-on reset, before ESTOP is looked at: the "After POR" values, the encoder pins as they
stand (R14), and the commands that wait. -/
def State.afterPor (s : State) (p : Pins) (encA encB : Bool) : State :=
  { State.reset with
    mu := { MotionUnit.por with encA := encA, encB := encB }
    pins := p
    countIndex := s.countIndex
    pending := s.pending }

/-- Power-on reset ends; an ESTOP active at that moment faults the line (R161, R169). -/
def powerOn (p : Pins) (encA encB : Bool) (s : State) : State :=
  if p.estop then estopFault (s.afterPor p encA encB) else s.afterPor p encA encB

/-- Reset begins (R35, R169, R186): pulses end with the outputs falling low, and from here to its end the part takes no
event; every other value is replaced at the end of reset (notes/assumptions/11.md). -/
def enterReset (s : State) : State := { endPulses s with inReset := true }

end Sys2Proof.Machine
end

