-- ==== Sys2Proof/Machine/AdmissionCommands.lean ====
section
/-! DEFINITION. The commands of admission: COPY, BUNDLE_OPEN and RESOLUTION_COMPLETE. -/

namespace Sys2Proof.Machine

/-- COPY (R39). -/
def execCopy (pins : Pins) (ref : Byte) (rest : List Byte) (s : State) : Host.Outcome State Fault Refusal :=
  event pins (arriveFrame 0x01 (ref :: rest)) s

/-- BUNDLE_OPEN (R134). -/
def execBundleOpen (pins : Pins) (ref : Byte) (rest : List Byte) (s : State) : Host.Outcome State Fault Refusal :=
  event pins (arriveFrame 0x02 (ref :: rest)) s

/-- RESOLUTION_COMPLETE (R51). -/
def execResolutionComplete (pins : Pins) (s : State) : Host.Outcome State Fault Refusal :=
  event pins completeResolution s

end Sys2Proof.Machine
end

