-- ==== Sys2Proof/Machine/LineCommands.lean ====
section
/-! DEFINITION. The line commands: LINE-COMMAND records, one command for each subcommand (section 11.3 gives the codes). -/

namespace Sys2Proof.Machine

/-- START (R153, R154, R155). -/
def execStart (pins : Pins) (ref : Byte) (rest : List Byte) (s : State) : Host.Outcome State Fault Refusal :=
  event pins (arriveFrame 0x05 (ref :: 0x01 :: rest)) s

/-- HOLD (R156). -/
def execHold (pins : Pins) (ref : Byte) (rest : List Byte) (s : State) : Host.Outcome State Fault Refusal :=
  event pins (arriveFrame 0x05 (ref :: 0x02 :: rest)) s

/-- RESUME (R156). -/
def execResume (pins : Pins) (ref : Byte) (rest : List Byte) (s : State) : Host.Outcome State Fault Refusal :=
  event pins (arriveFrame 0x05 (ref :: 0x03 :: rest)) s

/-- RUN_OUT (R157). -/
def execRunOut (pins : Pins) (ref : Byte) (rest : List Byte) (s : State) : Host.Outcome State Fault Refusal :=
  event pins (arriveFrame 0x05 (ref :: 0x04 :: rest)) s

/-- STOP_NOW (R158). -/
def execStopNow (pins : Pins) (ref : Byte) (rest : List Byte) (s : State) : Host.Outcome State Fault Refusal :=
  event pins (arriveFrame 0x05 (ref :: 0x05 :: rest)) s

/-- CLEAR_FAULT (R165). -/
def execClearFault (pins : Pins) (ref : Byte) (rest : List Byte) (s : State) : Host.Outcome State Fault Refusal :=
  event pins (arriveFrame 0x05 (ref :: 0x06 :: rest)) s

/-- SET_OVERRIDE (R33, R153). -/
def execSetOverride (pins : Pins) (ref : Byte) (rest : List Byte) (s : State) : Host.Outcome State Fault Refusal :=
  event pins (arriveFrame 0x05 (ref :: 0x07 :: rest)) s

/-- RUN_RESET (R167). -/
def execRunReset (pins : Pins) (ref : Byte) (rest : List Byte) (s : State) : Host.Outcome State Fault Refusal :=
  event pins (arriveFrame 0x05 (ref :: 0x08 :: rest)) s

end Sys2Proof.Machine
end

