-- ==== Sys2Proof/Machine/LinkCommands.lean ====
section
/-! DEFINITION. The commands of the line link's octets and frames, and the link's own records: status read, notices and protection. -/

namespace Sys2Proof.Machine

/-- LINK_OCTET (R173). -/
def execLinkOctet (pins : Pins) (octet : Byte) (s : State) : Host.Outcome State Fault Refusal :=
  event pins (receiveOctet octet) s

/-- FRAME_TIMEOUT (R175). -/
def execFrameTimeout (pins : Pins) (s : State) : Host.Outcome State Fault Refusal := event pins frameGap s

/-- HELD_FRAME_TAKEN (R176). -/
def execHeldFrameTaken (pins : Pins) (s : State) : Host.Outcome State Fault Refusal := event pins takeHeld s

/-- UNKNOWN_KIND (R177). -/
def execUnknownKind (pins : Pins) (kind ref : Byte) (rest : List Byte) (s : State) :
    Host.Outcome State Fault Refusal :=
  event pins (arriveFrame kind (ref :: rest)) s

/-- LRDY_IN_ACTIVE (R172): the command is the input becoming active. -/
def execLrdyInActive (pins : Pins) (s : State) : Host.Outcome State Fault Refusal := event (readyPins pins) id s

/-- UPSTREAM_FRAME_SENT (R172, R184). -/
def execUpstreamFrameSent (pins : Pins) (s : State) : Host.Outcome State Fault Refusal := event pins frameSent s

/-- STATUS_READ (R181). -/
def execStatusRead (pins : Pins) (ref : Byte) (rest : List Byte) (s : State) : Host.Outcome State Fault Refusal :=
  event pins (arriveFrame 0x06 (ref :: rest)) s

/-- NOTICE_MASK (R183). -/
def execNoticeMask (pins : Pins) (ref : Byte) (rest : List Byte) (s : State) : Host.Outcome State Fault Refusal :=
  event pins (arriveFrame 0x08 (ref :: rest)) s

/-- FLAG_CLEAR (R183). -/
def execFlagClear (pins : Pins) (ref : Byte) (rest : List Byte) (s : State) : Host.Outcome State Fault Refusal :=
  event pins (arriveFrame 0x07 (ref :: rest)) s

/-- PROTECT (R179). -/
def execProtect (pins : Pins) (ref : Byte) (rest : List Byte) (s : State) : Host.Outcome State Fault Refusal :=
  event pins (arriveFrame 0x09 (ref :: rest)) s

end Sys2Proof.Machine
end

