-- ==== Sys2Proof/Machine/MotionCommands.lean ====
section
/-! DEFINITION. The commands of reset and motion: POWER_ON_RESET, RESET_ENTRY, ENCODER_EDGE, SIMULATED_COUNT, SPEED_WINDOW_EXPIRY and
ESTOP_ACTIVE. -/

namespace Sys2Proof.Machine

/-- POWER_ON_RESET (R14, R35, R37, R56, R73, R94, R109, R131, R149, R161, R169, R186). -/
def execPowerOnReset (pins : Pins) (encA encB : Bool) (s : State) : Host.Outcome State Fault Refusal :=
  .next (finish (powerOn pins encA encB s))

/-- RESET_ENTRY (R35, R169, R186). -/
def execResetEntry (_pins : Pins) (s : State) : Host.Outcome State Fault Refusal := .next (enterReset s)

/-- ENCODER_EDGE (R3, R4, R6, R7, R8). -/
def execEncoderEdge (pins : Pins) (encA encB : Bool) (s : State) : Host.Outcome State Fault Refusal :=
  event pins (encoderState encA encB) s

/-- SIMULATED_COUNT (R5, R6). -/
def execSimulatedCount (pins : Pins) (s : State) : Host.Outcome State Fault Refusal := event pins simulatedTick s

/-- SPEED_WINDOW_EXPIRY (R12). -/
def execSpeedWindowExpiry (pins : Pins) (s : State) : Host.Outcome State Fault Refusal := event pins windowExpiry s

/-- ESTOP_ACTIVE (R161): the command is the input becoming active. -/
def execEstopActive (pins : Pins) (s : State) : Host.Outcome State Fault Refusal := event (estopPins pins) estopFault s

end Sys2Proof.Machine
end

