-- ==== Sys2Proof/Machine/PortCommands.lean ====
section
/-! DEFINITION. The commands of the reader port and of the printer port. A command that names a message stands for its last octet, after
which the port is idle (R87, R97). -/

namespace Sys2Proof.Machine

/-- READ (R88). -/
def execRead (pins : Pins) (value : BitVec 16) (s : State) : Host.Outcome State Fault Refusal :=
  event pins (fun s => readerArrival (.value value) (setReader .idle s)) s

/-- NOREAD (R88). -/
def execNoRead (pins : Pins) (s : State) : Host.Outcome State Fault Refusal :=
  event pins (fun s => readerArrival .noRead (setReader .idle s)) s

/-- READER_MESSAGE_DISCARD (R87). -/
def execReaderMessageDiscard (pins : Pins) (s : State) : Host.Outcome State Fault Refusal :=
  event pins (fun s => countReaderError (setReader .idle s)) s

/-- READER_OCTET_TIMEOUT (R87). -/
def execReaderOctetTimeout (pins : Pins) (s : State) : Host.Outcome State Fault Refusal := event pins readerGap s

/-- READER_PORT_OCTET (R87, R191). -/
def execReaderPortOctet (pins : Pins) (octet : Byte) (s : State) : Host.Outcome State Fault Refusal :=
  event pins (readerOctet octet) s

/-- CLEARED (R99). -/
def execCleared (pins : Pins) (s : State) : Host.Outcome State Fault Refusal :=
  event pins (fun s => printerCleared (setPrinterReceive .idle s)) s

/-- TAKEN (R103). -/
def execTaken (pins : Pins) (tag : Tag) (s : State) : Host.Outcome State Fault Refusal :=
  event pins (fun s => printerTaken tag (setPrinterReceive .idle s)) s

/-- DONE (R106, R107). -/
def execDone (pins : Pins) (tag : Tag) (result : PrintResult) (s : State) : Host.Outcome State Fault Refusal :=
  event pins (fun s => printerDone tag result (setPrinterReceive .idle s)) s

/-- PRINTER_MESSAGE_DISCARD (R97). -/
def execPrinterMessageDiscard (pins : Pins) (s : State) : Host.Outcome State Fault Refusal :=
  event pins (fun s => countPrinterError (setPrinterReceive .idle s)) s

/-- PRINTER_OCTET_TIMEOUT (R97). -/
def execPrinterOctetTimeout (pins : Pins) (s : State) : Host.Outcome State Fault Refusal := event pins printerGap s

/-- PRINTER_PORT_OCTET (R97, R191). -/
def execPrinterPortOctet (pins : Pins) (octet : Byte) (s : State) : Host.Outcome State Fault Refusal :=
  event pins (printerOctet octet) s

/-- PRINTER_MESSAGE_SENT (R97). -/
def execPrinterMessageSent (pins : Pins) (s : State) : Host.Outcome State Fault Refusal := event pins printerSent s

end Sys2Proof.Machine
end

