-- ==== Sys2Proof/Machine/TableCommands.lean ====
section
/-! DEFINITION. The commands of table access: TABLE-WRITE and TABLE-READ records, one command for each table and one for a table code that
names none (section 11.3 gives the codes). -/

namespace Sys2Proof.Machine

/-- LINE_PROFILE_WRITE (R1, R2). -/
def execLineProfileWrite (pins : Pins) (ref : Byte) (rest : List Byte) (s : State) : Host.Outcome State Fault Refusal :=
  event pins (arriveFrame 0x03 (ref :: 0x05 :: rest)) s

/-- STATION_WRITE (R17, R22, R95). -/
def execStationWrite (pins : Pins) (ref : Byte) (rest : List Byte) (s : State) : Host.Outcome State Fault Refusal :=
  event pins (arriveFrame 0x03 (ref :: 0x01 :: rest)) s

/-- CURVE_WRITE (R19). -/
def execCurveWrite (pins : Pins) (ref : Byte) (rest : List Byte) (s : State) : Host.Outcome State Fault Refusal :=
  event pins (arriveFrame 0x03 (ref :: 0x02 :: rest)) s

/-- OUTPUT_MAP_WRITE (R34). -/
def execOutputMapWrite (pins : Pins) (ref : Byte) (rest : List Byte) (s : State) : Host.Outcome State Fault Refusal :=
  event pins (arriveFrame 0x03 (ref :: 0x04 :: rest)) s

/-- PLAN_WRITE (R53, R54, R55). -/
def execPlanWrite (pins : Pins) (ref : Byte) (rest : List Byte) (s : State) : Host.Outcome State Fault Refusal :=
  event pins (arriveFrame 0x03 (ref :: 0x03 :: rest)) s

/-- TABLE_WRITE (R178). -/
def execTableWrite (pins : Pins) (ref : Byte) (rest : List Byte) (s : State) : Host.Outcome State Fault Refusal :=
  event pins (arriveFrame 0x03 (ref :: rest)) s

/-- LINE_PROFILE_READ (R1). -/
def execLineProfileRead (pins : Pins) (ref : Byte) (rest : List Byte) (s : State) : Host.Outcome State Fault Refusal :=
  event pins (arriveFrame 0x04 (ref :: 0x05 :: rest)) s

/-- STATION_READ (R18). -/
def execStationRead (pins : Pins) (ref : Byte) (rest : List Byte) (s : State) : Host.Outcome State Fault Refusal :=
  event pins (arriveFrame 0x04 (ref :: 0x01 :: rest)) s

/-- CURVE_READ (R21). -/
def execCurveRead (pins : Pins) (ref : Byte) (rest : List Byte) (s : State) : Host.Outcome State Fault Refusal :=
  event pins (arriveFrame 0x04 (ref :: 0x02 :: rest)) s

/-- OUTPUT_MAP_READ (R34). -/
def execOutputMapRead (pins : Pins) (ref : Byte) (rest : List Byte) (s : State) : Host.Outcome State Fault Refusal :=
  event pins (arriveFrame 0x04 (ref :: 0x04 :: rest)) s

/-- PLAN_READ (R53). -/
def execPlanRead (pins : Pins) (ref : Byte) (rest : List Byte) (s : State) : Host.Outcome State Fault Refusal :=
  event pins (arriveFrame 0x04 (ref :: 0x03 :: rest)) s

end Sys2Proof.Machine
end

