-- ==== Sys2Proof/Machine/Dispatch.lean ====
section
/-! DEFINITION. One arm per command, in the order of spec/opcode_table.json. -/

namespace Sys2Proof.Machine

def exec (i : Instr) (s : State) : Host.Outcome State Fault Refusal :=
  match i with
  | .powerOnReset pins encA encB => Sys2Proof.Machine.execPowerOnReset pins encA encB s
  | .encoderEdge pins encA encB => Sys2Proof.Machine.execEncoderEdge pins encA encB s
  | .simulatedCount pins => Sys2Proof.Machine.execSimulatedCount pins s
  | .speedWindowExpiry pins => Sys2Proof.Machine.execSpeedWindowExpiry pins s
  | .read pins value => Sys2Proof.Machine.execRead pins value s
  | .noRead pins => Sys2Proof.Machine.execNoRead pins s
  | .readerMessageDiscard pins => Sys2Proof.Machine.execReaderMessageDiscard pins s
  | .readerOctetTimeout pins => Sys2Proof.Machine.execReaderOctetTimeout pins s
  | .cleared pins => Sys2Proof.Machine.execCleared pins s
  | .taken pins tag => Sys2Proof.Machine.execTaken pins tag s
  | .done pins tag result => Sys2Proof.Machine.execDone pins tag result s
  | .printerMessageDiscard pins => Sys2Proof.Machine.execPrinterMessageDiscard pins s
  | .printerOctetTimeout pins => Sys2Proof.Machine.execPrinterOctetTimeout pins s
  | .linkOctet pins octet => Sys2Proof.Machine.execLinkOctet pins octet s
  | .frameTimeout pins => Sys2Proof.Machine.execFrameTimeout pins s
  | .heldFrameTaken pins => Sys2Proof.Machine.execHeldFrameTaken pins s
  | .unknownKind pins kind ref rest => Sys2Proof.Machine.execUnknownKind pins kind ref rest s
  | .copy pins ref rest => Sys2Proof.Machine.execCopy pins ref rest s
  | .resolutionComplete pins => Sys2Proof.Machine.execResolutionComplete pins s
  | .bundleOpen pins ref rest => Sys2Proof.Machine.execBundleOpen pins ref rest s
  | .lineProfileWrite pins ref rest => Sys2Proof.Machine.execLineProfileWrite pins ref rest s
  | .stationWrite pins ref rest => Sys2Proof.Machine.execStationWrite pins ref rest s
  | .curveWrite pins ref rest => Sys2Proof.Machine.execCurveWrite pins ref rest s
  | .outputMapWrite pins ref rest => Sys2Proof.Machine.execOutputMapWrite pins ref rest s
  | .planWrite pins ref rest => Sys2Proof.Machine.execPlanWrite pins ref rest s
  | .tableWrite pins ref rest => Sys2Proof.Machine.execTableWrite pins ref rest s
  | .lineProfileRead pins ref rest => Sys2Proof.Machine.execLineProfileRead pins ref rest s
  | .stationRead pins ref rest => Sys2Proof.Machine.execStationRead pins ref rest s
  | .curveRead pins ref rest => Sys2Proof.Machine.execCurveRead pins ref rest s
  | .outputMapRead pins ref rest => Sys2Proof.Machine.execOutputMapRead pins ref rest s
  | .planRead pins ref rest => Sys2Proof.Machine.execPlanRead pins ref rest s
  | .statusRead pins ref rest => Sys2Proof.Machine.execStatusRead pins ref rest s
  | .noticeMask pins ref rest => Sys2Proof.Machine.execNoticeMask pins ref rest s
  | .flagClear pins ref rest => Sys2Proof.Machine.execFlagClear pins ref rest s
  | .protect pins ref rest => Sys2Proof.Machine.execProtect pins ref rest s
  | .start pins ref rest => Sys2Proof.Machine.execStart pins ref rest s
  | .hold pins ref rest => Sys2Proof.Machine.execHold pins ref rest s
  | .resume pins ref rest => Sys2Proof.Machine.execResume pins ref rest s
  | .runOut pins ref rest => Sys2Proof.Machine.execRunOut pins ref rest s
  | .stopNow pins ref rest => Sys2Proof.Machine.execStopNow pins ref rest s
  | .clearFault pins ref rest => Sys2Proof.Machine.execClearFault pins ref rest s
  | .setOverride pins ref rest => Sys2Proof.Machine.execSetOverride pins ref rest s
  | .runReset pins ref rest => Sys2Proof.Machine.execRunReset pins ref rest s
  | .estopActive pins => Sys2Proof.Machine.execEstopActive pins s
  | .lrdyInActive pins => Sys2Proof.Machine.execLrdyInActive pins s
  | .upstreamFrameSent pins => Sys2Proof.Machine.execUpstreamFrameSent pins s
  | .printerMessageSent pins => Sys2Proof.Machine.execPrinterMessageSent pins s
  | .resetEntry pins => Sys2Proof.Machine.execResetEntry pins s
  | .readerPortOctet pins octet => Sys2Proof.Machine.execReaderPortOctet pins octet s
  | .printerPortOctet pins octet => Sys2Proof.Machine.execPrinterPortOctet pins octet s

end Sys2Proof.Machine
end

