-- ==== Sys2Proof/Machine/Outputs.lean ====
section
/-! DEFINITION. What stands on the part's output pins in a state: the output lines (R34 to R36), LRDY_OUT (R49, R139, R185), and the frames on
LTXD and PTXD (R172, R192). -/

namespace Sys2Proof.Machine

/-- A source is active (section 2.9, R36). -/
def State.sourceActive (s : State) : OutputSource → Bool
  | .station i => (s.fireWork i).pulse
  | .bundleKick => s.fu.bundleKick
  | .trayKick => s.fu.trayKick
  | .driveRun => s.firing
  | .driveStopRequest => decide (s.lc.line = .faulted)
  | .lineHolding => decide (s.lc.line = .holding)
  | .lineFaulted => decide (s.lc.line = .faulted)
  | .off => false

/-- The level of an output line, high as true: every line is low while reset lasts (R35). -/
def State.outLevel (s : State) (k : Fin 24) : Bool :=
  !s.inReset && (s.sourceActive s.fu.outputs[k].source != s.fu.outputs[k].inverted)

/-- The staging term of the ready output (R49). -/
def State.stagingReady (s : State) : Bool := s.freeStaging.isSome

/-- The bundle-table term of the ready output (R139). -/
def State.bundlesReady (s : State) : Bool := decide (s.bu.table.length < 8)

/-- LRDY_OUT: active while all three terms allow it, and low while reset lasts (R185, R186). -/
def State.readyOut (s : State) : Bool := !s.inReset && s.stagingReady && s.bundlesReady && s.hasRoom

/-- The frame being sent on LTXD, or none while the transmitter rests at its idle level (R172, R186). -/
def State.upstreamFrame (s : State) : Option (List Byte) :=
  if s.ll.sending ∧ ¬ s.inReset then s.ll.upstream.head?.map recordFrame else none

/-- The time, in microseconds after the millisecond began, at which the simulated source issues its next count (R5); the
model holds no clock (notes/assumptions/21.md). -/
def State.nextCountTime (s : State) : Option Nat :=
  match s.mu.sim with
  | .stopped => none
  | .generating rate issued => some (simulatedSpacing rate (issued + 1))

/-- The message being sent on PTXD, or none while it rests at its idle level (R97, R192, section 9.8). -/
def State.printerFrameOut (s : State) : Option (List Byte) :=
  if s.inReset then none else s.pp.transmit.head?.map printerFrame

end Sys2Proof.Machine
end

