-- ==== Sys2Proof/Safety.lean ====
section
/-! DEFINITION. What a safe run keeps: the invariants of the part, unit by unit, in the terms the obligations use. -/

namespace Sys2Proof.Machine

/-- An event has ended: no held frame waits for room that is there, the backlog cause agrees with the queue's fill, and no
record waits for a transmitter that may send (R160, R172, R176). -/
abbrev State.Settled (s : State) : Prop :=
  ¬ (s.ll.receive = .held ∧ s.hasRoom = true) ∧
  (96 ≤ s.ll.upstream.length → s.lc.holds.linkBacklog = true) ∧
  (s.lc.holds.linkBacklog = true → 33 ≤ s.ll.upstream.length) ∧
  (s.pins.lrdyIn = true → s.ll.upstream ≠ [] → s.ll.sending = true)

/-- The Motion Unit's values stand in their ranges (section 1.2, R6, R8, section 1.8). -/
abbrev State.MotionSound (s : State) : Prop :=
  s.mu.phase < s.mu.len ∧ 64 ≤ s.mu.len ∧ s.mu.len ≤ 8192 ∧ s.mu.acc ≤ 255 ∧ s.mu.speed ≤ 4095 ∧
  -32768 ≤ s.mu.windowCount ∧ s.mu.windowCount ≤ 32767 ∧
  64 ≤ s.mu.profile.p ∧ s.mu.profile.p ≤ 8191 ∧ s.mu.profile.f ≤ 255 ∧
  1 ≤ s.mu.profile.rate ∧ s.mu.profile.rate ≤ 255

/-- The text pool's octets keep their canonical form. -/
abbrev State.PoolSound (s : State) : Prop := s.au.pool.wf = true

/-- The fault-cause set is empty in every state but FAULTED and never empty in FAULTED, and the locator is disarmed exactly
while FAULTED (section 9.1, section 9.9). -/
abbrev State.FaultsSound (s : State) : Prop :=
  (s.lc.faults.isEmpty = true ↔ s.lc.line ≠ .faulted) ∧ (s.lc.armed = true ↔ s.lc.line ≠ .faulted) ∧ s.lc.further ≤ 255

/-- A RUNNING line has an empty hold-cause set, and a HOLDING line a set that is not empty (R66, R152). -/
abbrev State.HoldsSound (s : State) : Prop :=
  (s.lc.line = .running → s.lc.holds = HoldSet.empty) ∧ (s.lc.line = .holding → s.lc.holds ≠ HoldSet.empty)

/-- Outside the firing states no station pulse and no kick pulse is active, and the simulated source is stopped
(R5, R32). -/
abbrev State.OutputsSound (s : State) : Prop :=
  s.firing = false →
    (∀ i : StationNo, (s.fireWork i).pulse = false) ∧ s.fu.bundleKick = false ∧ s.fu.trayKick = false ∧
    s.mu.sim = .stopped

/-- The tags of the job list are the last ones given, in turn (R100). -/
def tagRun (next : Tag) (n : Nat) : List Tag := (List.range n).map (fun i => next - BitVec.ofNat 4 (n - i))

/-- The Printer Port's count, job list and synchronisation agree (R98 to R100). -/
abbrev State.PrinterSound (s : State) : Prop :=
  (s.pp.synchronised = true ↔ s.pp.clears = 0) ∧ s.pp.clears ≤ 255 ∧
  (s.pp.synchronised = false → s.pp.jobs = [] ∧ s.pp.nextTag = 0) ∧
  s.pp.jobs.length ≤ 16 ∧ s.pp.jobs.map Job.tag = tagRun s.pp.nextTag s.pp.jobs.length

/-- A staging entry that the resolver works on. -/
def StagingEntry.isResolving : StagingEntry → Bool
  | .resolving _ _ => true
  | _ => false

/-- The arrival order lists the entries that are not FREE, none twice, and the entry RESOLVING is the resolver's
(R47, R50). -/
abbrev State.StagingSound (s : State) : Prop :=
  s.au.order.Nodup ∧ (∀ i : Fin 16, i ∈ s.au.order ↔ s.au.staging[i] ≠ .free) ∧
  (∀ i : Fin 16, s.au.staging[i].isResolving = true ↔ s.au.resolver.map Resolution.entry = some i)

/-- A staging entry that waits for the resolver. -/
def StagingEntry.isArrived : StagingEntry → Bool
  | .arrived _ => true
  | _ => false

/-- The copy of an entry that is RESOLVING with no re-resolve request. -/
def StagingEntry.inResolution : StagingEntry → Option StagedCopy
  | .resolving c false => some c
  | _ => none

/-- The idle resolver has left no ARRIVED entry, and what a resolution with no re-resolve request has read is the plan entry of
its copy's code (R50, R54, R55). -/
abbrev State.ResolverSound (s : State) : Prop :=
  (∀ i : Fin 16, s.au.staging[i].isArrived = true → s.au.resolver ≠ none) ∧
  (∀ r ∈ s.au.resolver, ∀ c ∈ s.au.staging[r.entry].inResolution, r.read = s.au.plans[c.plan])

/-- Entry i, with copy c, is the oldest ARRIVED one along an arrival order (R50). -/
def oldestArrived (order : List (Fin 16)) (staging : Vector StagingEntry 16) (i : Fin 16) (c : StagedCopy) : Prop :=
  staging[i] = .arrived c ∧ ∃ front back, order = front ++ i :: back ∧ ∀ j ∈ front, staging[j].isArrived = false

/-- The ordinals of the bundle table are the last ones given, in turn (R135, R145). -/
def ordinalRun (next : Word16) (n : Nat) : List Word16 := (List.range n).map (fun i => next - BitVec.ofNat 16 (n - i))

/-- The bundle table holds at most 8 bundles in ordinal order; a bundle has received no more than expected, and as much
once its receipt is ended; only the receiving bundle receives, and it is the one opened last (R134, R135, R138). -/
abbrev State.BundlesSound (s : State) : Prop :=
  s.bu.table.length ≤ 8 ∧ s.bu.table.map Bundle.ordinal = ordinalRun s.bu.nextOrdinal s.bu.table.length ∧
  (∀ b ∈ s.bu.table, b.received ≤ b.expected ∧ (b.receiving = false ↔ b.received = b.expected) ∧
    (b.receiving = true → s.bu.receiving = some b.ordinal) ∧ (b.complete = true → b.receiving = false)) ∧
  (s.bu.receiving = none ∨
    (s.bu.receiving = some (s.bu.nextOrdinal - 1) ∧ s.bu.nextOrdinal - 1 ∈ s.bu.table.map Bundle.ordinal))

/-- A content is a GHOST. -/
def Content.isGhost : Content → Bool
  | .ghost _ => true
  | _ => false

/-- No GHOST stands beyond the gate, or at it once the gate has decided in the pitch; before the first START there is none
(R62, R65). -/
def State.GhostsSound (s : State) : Prop :=
  ∀ pos, (s.contentAt pos).isGhost = true →
    ∃ g, s.tu.gate = some g ∧ pos ≤ g ∧ (pos = g → s.gm.decided = false)

/-- Every counter of section 10.9 stays within 16 bits. -/
abbrev State.CountersSound (s : State) : Prop := ∀ n ∈ s.counters, n ≤ 65535

/-! ## Copies and bundles together -/

/-- The bundle ordinal of a staged copy. -/
def StagingEntry.ordinal : StagingEntry → Option Word16
  | .free => none
  | .receiving => none
  | .arrived c => some c.ordinal
  | .resolving c _ => some c.ordinal
  | .resolved c _ => some c.ordinal

/-- The bundle ordinal of the context on a position. -/
def Content.ordinal : Content → Option Word16
  | .copy c => some c.copy.ordinal
  | _ => none

/-- The ordinals of the copies in flight: staged, on the track and in the make-up queue (section 8.4). -/
def State.inFlight (s : State) : List Word16 :=
  s.au.staging.toList.filterMap StagingEntry.ordinal ++ s.tu.track.filterMap Content.ordinal ++
  s.gm.queue.map (fun c => c.copy.ordinal)

/-- The balance of R140, with what it rests on: every copy in flight is of a bundle in the table, and a COMPLETE bundle is
accounted for. -/
abbrev State.BalanceSound (s : State) : Prop :=
  s.BundlesSound ∧ 1 ≤ s.trackLen ∧ (∀ o ∈ s.inFlight, o ∈ s.bu.table.map Bundle.ordinal) ∧
  (∀ b ∈ s.bu.table, b.delivered + b.excepted + s.inFlight.count b.ordinal = b.received ∧
    (b.complete = true → b.delivered + b.excepted = b.expected))

/-- The bundle ordinals along the combined order of R129: the track from T − 1 to 0, the make-up queue from head to tail,
staging in arrival order. -/
def State.orderedOrdinals (s : State) : List Word16 :=
  s.tu.track.reverse.filterMap Content.ordinal ++ s.gm.queue.map (fun c => c.copy.ordinal) ++
  s.au.order.filterMap (fun i => s.au.staging[i].ordinal)

/-- The ordinals along the combined order never decrease (R129), with what that rests on: the balance, the arrival order, and
a RECEIVING entry that stands last in it and only while a COPY frame arrives or is held. -/
abbrev State.OrderSound (s : State) : Prop :=
  s.BalanceSound ∧ s.StagingSound ∧
  s.orderedOrdinals.Pairwise (fun a b => ordinalAbove a b = false) ∧
  (∀ i ∈ s.au.order.dropLast, s.au.staging[i] ≠ .receiving) ∧
  (s.receivingEntry ≠ none → s.ll.buffer.kind = 0x01 ∧
    (s.ll.receive = .payload ∨ s.ll.receive = .crcHigh ∨ s.ll.receive = .crcLow ∨ s.ll.receive = .held))

/-- The capacity law of R128: the contexts on the track and in the make-up queue are together no more than T, and T is at
most 64. -/
abbrev State.CapacitySound (s : State) : Prop :=
  s.trackCopies + s.gm.queue.length ≤ s.trackLen ∧ 1 ≤ s.trackLen ∧ s.trackLen ≤ 64 ∧
  ∀ i : StationNo, (s.station i).offset ≤ 63

/-! ## The words of the obligations -/

/-- The part takes events, no frame is held, and the upstream queue is so short that no event of one record reports a
backlog. A frame may stand half received; what a record command does there is the model's choice (notes/assumptions/3.md). -/
abbrev State.Calm (s : State) : Prop :=
  s.inReset = false ∧ s.ll.receive ≠ .held ∧ s.ll.upstream.length ≤ 32 ∧ s.lc.holds.linkBacklog = false

/-- The part takes events, no frame is held, and a command that places at most two records, its reply and a notice, finds room
for both and brings LINK_BACKLOG neither in nor out. -/
abbrev State.Steady (s : State) : Prop :=
  s.inReset = false ∧ s.ll.receive ≠ .held ∧ s.ll.upstream.length ≤ 158 ∧
  (s.lc.holds.linkBacklog = false → s.ll.upstream.length ≤ 93) ∧
  (s.lc.holds.linkBacklog = true → 32 ≤ s.ll.upstream.length)

/-- The part takes events and holds no frame. -/
abbrev State.Open (s : State) : Prop := s.inReset = false ∧ s.ll.receive ≠ .held

/-- The state after a record is taken: the state its owner left, the reply behind its records, and the transmitter begun if
it may send (R172, R177). -/
def answered (kind : Byte) (payload : List Byte) (a : Answer) (u : State) : State :=
  beginSending (place (replyOf kind payload a) u)

/-- The contexts that a sweep for ordinal o takes off positions g − 1 down to 0, in that order, each with its attempt counted
(R123, R124). -/
def State.sweptContexts (s : State) (o : Word16) (g : Nat) : List Context :=
  (List.range g).reverse.filterMap (fun pos =>
    match s.contentAt pos with
    | .copy c => if ordinalAbove c.copy.ordinal o then some { c with attempts := min (c.attempts + 1) 255 } else none
    | _ => none)

/-- The forward moves of the table of R3: last state, new state. -/
def forwardEdges : List (Bool × Bool × Bool × Bool) :=
  [(false, false, true, false), (true, false, true, true), (true, true, false, true), (false, true, false, false)]

/-- The reverse moves of the table of R3. -/
def reverseEdges : List (Bool × Bool × Bool × Bool) :=
  [(true, false, false, false), (true, true, true, false), (false, true, true, true), (false, false, false, true)]

/-- The illegal moves of the table of R3: both inputs differ. -/
def illegalEdges : List (Bool × Bool × Bool × Bool) :=
  [(false, false, true, true), (true, false, false, true), (true, true, false, false), (false, true, true, false)]

/-- The pitch lengths of the next boundaries from an accumulator (R8). -/
def pitchLengths (p : LineProfile) : Nat → Nat → List Nat
  | 0, _ => []
  | n + 1, acc => (nextPitch p acc).1 :: pitchLengths p n (nextPitch p acc).2

/-- A station entry in the ranges of section 2.1. -/
abbrev StationEntry.Sound (e : StationEntry) : Prop :=
  e.offset ≤ 63 ∧ e.phi ≤ 8190 ∧ 1 ≤ e.pulseLength ∧ e.pulseLength ≤ 4095 ∧ e.windowStart ≤ e.windowEnd ∧
  e.windowEnd ≤ 8190 ∧ 1 ≤ e.minDetect ∧ e.minDetect ≤ 255 ∧ e.faultLimit ≤ 15 ∧ 1 ≤ e.feeder ∧ e.feeder ≤ 8 ∧
  1 ≤ e.printLead ∧ e.printLead ≤ 8 ∧ e.sampleExp ≤ 4 ∧ e.zmax ≤ 1023 ∧ e.driftLimit ≤ 15 ∧ e.jamLength ≤ 65535

/-- A curve in the ranges of section 2.3. -/
abbrev Curve.Sound (c : Curve) : Prop :=
  c.s1 < c.s2 ∧ c.s2 < c.s3 ∧ c.s3 ≤ 4095 ∧ c.a0 ≤ 4095 ∧ c.a1 ≤ 4095 ∧ c.a2 ≤ 4095 ∧ c.a3 ≤ 4095 ∧
  c.k0 ≤ 4095 ∧ c.k1 ≤ 4095 ∧ c.k2 ≤ 4095 ∧ c.k3 ≤ 4095 ∧ c.amin ≤ c.amax ∧ c.amax ≤ 4095

/-- A plan entry in the ranges of section 3.6. -/
abbrev PlanEntry.Sound (p : PlanEntry) : Prop :=
  p.values.low1 ≤ p.values.high1 ∧ p.values.high1 ≤ 1023 ∧ p.values.low2 ≤ p.values.high2 ∧ p.values.high2 ≤ 1023

/-- A line profile in the ranges of section 1.2. -/
abbrev LineProfile.Sound (p : LineProfile) : Prop :=
  64 ≤ p.p ∧ p.p ≤ 8191 ∧ p.f ≤ 255 ∧ 1 ≤ p.rate ∧ p.rate ≤ 255

/-- The lines of an address text: 1 to 6 of 0 to 40 characters (section 3.1). -/
abbrev linesSound (lines : List (List Byte)) : Prop :=
  1 ≤ lines.length ∧ lines.length ≤ 6 ∧ ∀ l ∈ lines, l.length ≤ 40

/-- The octets of a COPY payload after its reference (section 11.3). -/
def copyOctets (seq : Seq) (number : Word16) (plan : Nat) (lines : List (List Byte)) : List Byte :=
  octets3 seq.toNat ++ octets2 number.toNat ++ [BitVec.ofNat 8 plan, BitVec.ofNat 8 lines.length] ++ lines.map lengthOctet ++
  lines.flatten

/-- The octets of a BUNDLE-OPEN payload after its reference (section 11.3). -/
def bundleOctets (number : Word16) (expected : Nat) (mode : BundleMode) (limit : Nat) (tray : Bool) : List Byte :=
  octets2 number.toNat ++ octets2 expected ++
  [match mode with | .remake => 0x00 | .short => 0x01, BitVec.ofNat 8 limit, boolOctet tray]

/-! ## Table writes and the conditions of START -/

/-- The command that writes a table, by its octets after the table code. -/
def writeOf : Table → Pins → Byte → List Byte → Instr
  | .station, p, ref, rest => .stationWrite p ref rest
  | .curve, p, ref, rest => .curveWrite p ref rest
  | .plan, p, ref, rest => .planWrite p ref rest
  | .outputMap, p, ref, rest => .outputMapWrite p ref rest
  | .lineProfile, p, ref, rest => .lineProfileWrite p ref rest

/-- The number of entries of a table. -/
def tableSize : Table → Nat
  | .station => 16
  | .curve => 4
  | .plan => 64
  | .outputMap => 24
  | .lineProfile => 1

/-- The number of stations of a kind. -/
def State.kindCount (s : State) (k : StationKind) : Nat := (List.finRange 16).countP (fun i => decide ((s.station i).kind = k))

/-- A station is among those that break the n-th CONFIG reason of the table of section 2.2. -/
def State.breaks (s : State) (n : Nat) (i : StationNo) : Prop :=
  match n with
  | 1 => (s.station i).kind = .feed
  | 2 => (s.station i).kind = .feed ∧ (s.station i).offset ≠ 0
  | 3 => (s.station i).kind = .gate
  | 4 => (s.station i).kind = .stack
  | 5 => (s.station i).kind = .gate ∨ (s.station i).kind = .stack
  | 6 => (s.station i).kind = .print
  | 7 => (s.station i).kind = .verify
  | 8 => (s.station i).kind = .caliper
  | 9 => (s.station i).kind = .insert
  | 10 => (s.station i).kind = .insert ∧
      ∃ j, j ≠ i ∧ (s.station j).kind = .insert ∧ (s.station j).feeder = (s.station i).feeder
  | 11 => (s.station i).kind ≠ .gate ∧ (s.station i).kind ≠ .stack ∧ (s.station i).kind ≠ .none ∧
      ∃ g, (s.station g).kind = .gate ∧ (s.station g).offset ≤ (s.station i).offset
  | 12 => (s.station i).kind = .print ∨ (s.station i).kind = .verify
  | 13 => (s.station i).kind = .print ∧ (s.station i).offset < (s.station i).printLead
  | 14 => (s.station i).kind ≠ .none ∧ s.mu.profile.p - 1 < (s.station i).phi
  | 15 => (s.station i).kind ≠ .none ∧ s.mu.profile.p - 1 < (s.station i).windowEnd
  | 16 => (s.station i).kind.fires = true ∧
      ∃ k : Fin 4, (s.station i).curve = some k ∧ (s.station i).phi < s.fu.curves[k].active.amin
  | _ => False

/-- The condition of the n-th CONFIG reason of the table of section 2.2 fails. -/
def State.configFails (s : State) (n : Nat) : Prop :=
  match n with
  | 1 => s.kindCount .feed ≠ 1
  | 3 => s.kindCount .gate ≠ 1
  | 4 => s.kindCount .stack ≠ 1
  | 5 => ∃ g k, (s.station g).kind = .gate ∧ (s.station k).kind = .stack ∧ (s.station k).offset ≤ (s.station g).offset
  | 6 => 1 < s.kindCount .print
  | 7 => 1 < s.kindCount .verify
  | 8 => 2 < s.kindCount .caliper
  | 9 => 8 < s.kindCount .insert
  | 12 => ∃ f v, (s.station f).kind = .print ∧ (s.station v).kind = .verify ∧ (s.station v).offset ≤ (s.station f).offset
  | 17 => (∃ i, (s.station i).kind = .print) ∧ s.pp.synchronised = false
  | n => ∃ i, s.breaks n i

end Sys2Proof.Machine
end

