-- ==== Sys2Proof/Certificates/Slice0/Obligations.lean ====
section
/-! DEFINITION. The statements for the provers, in the order of OBLIGATIONS.json: the step, the invariants every step keeps, encodings, and then
command by command what the rules say each does. -/

open Sys2Proof Sys2Proof.Machine

/-! ## The step and reset -/

/-- A step runs the command that has waited longest on the state with the queue's rest; with none waiting the part idles
(the model's own queue, notes/assumptions/2.md). Every command has a next state in every state: the part never stops. -/
def Obligations.StepRunsTheFrontCommand : Prop :=
  (∀ c rest s, s.pending = c :: rest → step s = exec c (s.withPending rest)) ∧ (∀ s, s.pending = [] → step s = .next s) ∧
  (∀ (c : Instr) (s : State), ∃ t, exec c s = .next t)

/-- The state right after reset meets every invariant below. -/
def Obligations.ResetMeetsTheInvariants : Prop :=
  State.reset.Settled ∧ State.reset.MotionSound ∧ State.reset.PoolSound ∧ State.reset.FaultsSound ∧
  State.reset.HoldsSound ∧ State.reset.OutputsSound ∧ State.reset.PrinterSound ∧ State.reset.StagingSound ∧
  State.reset.ResolverSound ∧ State.reset.BundlesSound ∧ State.reset.GhostsSound ∧ State.reset.CountersSound ∧
  State.reset.CapacitySound ∧ State.reset.BalanceSound ∧ State.reset.OrderSound

/-- Power-on reset leaves every value as after reset, but the last encoder state, which is that of the pins, and the model's own
queue and count (notes/assumptions/2.md and 11.md). With ESTOP active the line is FAULTED besides, the locator holds ESTOP and pitch index 0, and one FAULT
notice stands on the queue. -/
def Obligations.PowerOnResetSetsEveryUnit : Prop :=
  (∀ (p : Pins) (a b : Bool) (s : State), p.estop = false →
     exec (.powerOnReset p a b) s =
       .next { State.reset with
         mu := { MotionUnit.por with encA := a, encB := b }
         pins := p, countIndex := s.countIndex, pending := s.pending }) ∧
  (∀ (p : Pins) (a b : Bool) (s : State), p.estop = true →
     exec (.powerOnReset p a b) s =
       .next { State.reset with
         mu := { MotionUnit.por with encA := a, encB := b }
         lc := { LineControl.por with
           line := .faulted, faults := FaultSet.empty.add .estop, armed := false
           locator := some { cause := .estop, station := none, pitch := 0, seq := none } }
         ll := { LinkController.por with
           upstream := [.notice (.fault .estop none none 0) 0], flags := 1, sending := p.lrdyIn }
         pins := p, countIndex := s.countIndex, pending := s.pending })

/-- While reset lasts every output line and LRDY_OUT are low, nothing is sent, and no command but the end of reset and its
entry changes anything; entering reset changes pulses alone (the model's choice: notes/assumptions/11.md). -/
def Obligations.ResetTakesNoEvent : Prop :=
  (∀ (p : Pins) (s : State), ∃ t, exec (.resetEntry p) s = .next t ∧ t.inReset = true ∧
    (∀ k, t.outLevel k = false) ∧ t.readyOut = false ∧ t.upstreamFrame = none ∧ t.printerFrameOut = none ∧
    (∀ i, (t.fireWork i).pulse = false) ∧ t.fu.bundleKick = false ∧ t.fu.trayKick = false ∧
    t = { s with inReset := true, fu := (endPulses s).fu }) ∧
  (∀ (c : Instr) (s : State), s.inReset = true → (∀ p a b, c ≠ .powerOnReset p a b) → (∀ p, c ≠ .resetEntry p) →
    exec c s = .next s)

/-! ## Invariants that every step keeps -/

/-- Every event ends with no held frame that could be taken, the backlog cause in step with the queue, and no record waiting
for a transmitter that may send (what an event ends with is the model's reading: notes/assumptions/4.md). -/
def Obligations.EveryStepEndsSettled : Prop :=
  ∀ s t : State, s.Settled → step s = .next t → t.Settled

/-- The phase stays below L, and every motion value in its range; every counter of the part stays within 16 bits. -/
def Obligations.EveryStepKeepsMotionAndCounters : Prop :=
  (∀ s t : State, s.MotionSound → step s = .next t → t.MotionSound) ∧
  (∀ s t : State, s.CountersSound → step s = .next t → t.CountersSound)

/-- The text pool's octets keep their canonical form; the arrival order lists exactly the entries in use, and the resolver's
entry is the one RESOLVING. No copy waits ARRIVED while the resolver is idle, and a copy RESOLVING with no re-resolve request
is resolved from the plan entry of its own code as the table holds it. -/
def Obligations.EveryStepKeepsAdmission : Prop :=
  (∀ s t : State, s.PoolSound → step s = .next t → t.PoolSound) ∧
  (∀ s t : State, s.StagingSound → step s = .next t → t.StagingSound) ∧
  (∀ s t : State, s.StagingSound → s.ResolverSound → step s = .next t → t.ResolverSound)

/-- Fault causes stand exactly while FAULTED, and the locator is disarmed exactly then. A RUNNING line has an empty hold-cause
set, and a HOLDING line a set that is not empty. -/
def Obligations.EveryStepKeepsFaults : Prop :=
  (∀ s t : State, s.FaultsSound → step s = .next t → t.FaultsSound) ∧
  (∀ s t : State, s.HoldsSound → step s = .next t → t.HoldsSound)

/-- Outside the firing states no pulse is active and the simulated source is stopped. -/
def Obligations.EveryStepKeepsOutputs : Prop :=
  ∀ s t : State, s.OutputsSound → step s = .next t → t.OutputsSound

/-- The printer port is SYNCHRONISED exactly while no CLEAR is outstanding, holds no job else, and its tags follow one
another. That a withdrawal or a run reset that finds a CLEAR waiting unsent leaves one outstanding is the model's reading
(notes/assumptions/9.md). -/
def Obligations.EveryStepKeepsThePrinterPort : Prop :=
  ∀ s t : State, s.PrinterSound → step s = .next t → t.PrinterSound

/-- No GHOST passes the gate. -/
def Obligations.EveryStepKeepsGhostsBeforeTheGate : Prop :=
  ∀ s t : State, s.GhostsSound → step s = .next t → t.GhostsSound

/-- The contexts on the track and in the make-up queue never exceed T. -/
def Obligations.EveryStepKeepsTheCapacityLaw : Prop :=
  ∀ s t : State, s.CapacitySound → step s = .next t → t.CapacitySound

/-- Delivered plus excepted plus the copies in flight equals received for every bundle, and received never exceeds
expected. -/
def Obligations.EveryStepKeepsTheBalance : Prop :=
  ∀ s t : State, s.BalanceSound → step s = .next t → t.BalanceSound

/-! ## Encodings -/

/-- Every table entry in its ranges passes the checks of its TABLE-WRITE and is read back from its octets. -/
def Obligations.TableEntriesDecodeToThemselves : Prop :=
  (∀ e : StationEntry, e.Sound → rangeAnswer (stationChecks (stationOctets e)) = none ∧ stationOfOctets (stationOctets e) = e) ∧
  (∀ c : Curve, c.Sound → rangeAnswer (curveChecks (curveOctets c)) = none ∧ curveOfOctets (curveOctets c) = c) ∧
  (∀ p : PlanEntry, p.Sound → rangeAnswer (planChecks (planOctets p)) = none ∧ planOfOctets (planOctets p) = p) ∧
  (∀ e : OutputEntry, rangeAnswer (outputChecks (outputOctets e)) = none ∧ outputOfOctets (outputOctets e) = e) ∧
  (∀ p : LineProfile, p.Sound → rangeAnswer (profileChecks (profileOctets p)) = none ∧ profileOfOctets (profileOctets p) = p)

/-- A frame sent octet by octet from SEARCH is taken whole, with a COPY's entry reserved at its kind octet. Between frames
this is what the command of the record does from the state whose frame buffer holds that frame: a record command is an event
at which its frame arrives whole (the model's own reading of the table's rows: notes/assumptions/3.md). The buffer's contents
alone are what a command, which gathers no octets, leaves. -/
def Obligations.FrameOctetsAreTakenWhole : Prop :=
  (∀ (kind : Byte) (payload : List Byte) (s : State), 1 ≤ payload.length → payload.length ≤ 250 →
     s.ll.receive = .search → s.hasRoom = true →
     (frameOctets kind payload).foldl (fun s o => receiveOctet o s) s =
       takeFrame kind payload
         (setReceive .search (setBuffer (fun _ => bufferOf kind payload) (if kind = 0x01 then reserveEntry s else s)))) ∧
  (∀ (kind : Byte) (payload : List Byte) (s : State), 1 ≤ payload.length → payload.length ≤ 250 →
    s.ll.receive = .search → s.hasRoom = true → s.receivingEntry = none →
    (frameOctets kind payload).foldl (fun s o => receiveOctet o s) s =
      arriveFrame kind payload (setBuffer (fun _ => bufferOf kind payload) s)) ∧
  (∀ (p : Pins) (ref k : Byte) (rest : List Byte) (s : State) (cmd : Instr) (kind : Byte) (payload : List Byte),
    (cmd, kind, payload) ∈
      [(.copy p ref rest, 0x01, ref :: rest), (.bundleOpen p ref rest, 0x02, ref :: rest),
       (.tableWrite p ref rest, 0x03, ref :: rest), (.stationWrite p ref rest, 0x03, ref :: 0x01 :: rest),
       (.curveWrite p ref rest, 0x03, ref :: 0x02 :: rest), (.planWrite p ref rest, 0x03, ref :: 0x03 :: rest),
       (.outputMapWrite p ref rest, 0x03, ref :: 0x04 :: rest), (.lineProfileWrite p ref rest, 0x03, ref :: 0x05 :: rest),
       (.stationRead p ref rest, 0x04, ref :: 0x01 :: rest), (.curveRead p ref rest, 0x04, ref :: 0x02 :: rest),
       (.planRead p ref rest, 0x04, ref :: 0x03 :: rest), (.outputMapRead p ref rest, 0x04, ref :: 0x04 :: rest),
       (.lineProfileRead p ref rest, 0x04, ref :: 0x05 :: rest), (.start p ref rest, 0x05, ref :: 0x01 :: rest),
       (.hold p ref rest, 0x05, ref :: 0x02 :: rest), (.resume p ref rest, 0x05, ref :: 0x03 :: rest),
       (.runOut p ref rest, 0x05, ref :: 0x04 :: rest), (.stopNow p ref rest, 0x05, ref :: 0x05 :: rest),
       (.clearFault p ref rest, 0x05, ref :: 0x06 :: rest), (.setOverride p ref rest, 0x05, ref :: 0x07 :: rest),
       (.runReset p ref rest, 0x05, ref :: 0x08 :: rest), (.statusRead p ref rest, 0x06, ref :: rest),
       (.flagClear p ref rest, 0x07, ref :: rest), (.noticeMask p ref rest, 0x08, ref :: rest),
       (.protect p ref rest, 0x09, ref :: rest), (.unknownKind p k ref rest, k, ref :: rest)] →
    s.inReset = false → exec cmd s = .next (finish (arriveFrame kind payload { s with pins := p })))

/-- The address lines stored in distinct pool blocks that hold them are read back as they were stored, from any pool in its
canonical form. -/
def Obligations.StoredTextReadsBack : Prop :=
  ∀ (m : Memory) (lines : List (List Byte)) (blocks : List Nat), m.wf = true → linesSound lines → blocks.Nodup →
    (storedText lines).length ≤ blockSize * blocks.length →
    readText lines.length ((m.storeBlocks (storedText lines) blocks).loadBlocks blocks) = lines

/-! ## Motion -/

/-- An encoder edge that is a forward count raises the phase by one below L; at L it is the pitch boundary: phase 0, the next
pitch index, and L and A by P, F and A. A reverse count lowers the phase, or is absorbed and counted at phase 0. Each enters
the speed window, and the rest of the Motion Unit stays but for the simulated source. A frame held at the count, and taken at
its end, touches neither phase, pitch index nor L. The count of announced counts is the model's own (notes/assumptions/1.md). -/
def Obligations.EncoderCountsMoveThePhase : Prop :=
  (∀ (p : Pins) (a b : Bool) (s : State), s.Open → s.mu.profile.source = .encoder →
     (s.mu.encA, s.mu.encB, a, b) ∈ forwardEdges → s.mu.phase + 1 < s.mu.len →
     ∃ t, exec (.encoderEdge p a b) s = .next t ∧ t.countIndex = s.countIndex + 1 ∧
       t.fu.stations = s.fu.stations ∧ t.fu.curves = s.fu.curves ∧ t.fu.outputs = s.fu.outputs ∧
       t.fu.latchedSpeed = s.fu.latchedSpeed ∧ t.au.staging = s.au.staging ∧ t.au.plans = s.au.plans ∧
       t.mu = { s.mu with
         phase := s.mu.phase + 1, windowCount := min (s.mu.windowCount + 1) 32767, encA := a, encB := b
         sim := t.mu.sim }) ∧
  (∀ (p : Pins) (a b : Bool) (s : State), s.Open → s.mu.profile.source = .encoder →
     (s.mu.encA, s.mu.encB, a, b) ∈ forwardEdges → s.mu.len ≤ s.mu.phase + 1 →
     ∃ t, exec (.encoderEdge p a b) s = .next t ∧ t.countIndex = s.countIndex + 1 ∧
       t.mu = { s.mu with
         phase := 0, pitch := s.mu.pitch + 1
         len := if 256 ≤ s.mu.acc + s.mu.profile.f then s.mu.profile.p + 1 else s.mu.profile.p
         acc := (s.mu.acc + s.mu.profile.f) % 256
         windowCount := min (s.mu.windowCount + 1) 32767, encA := a, encB := b, sim := t.mu.sim }) ∧
  (∀ (p : Pins) (a b : Bool) (s : State), s.Open → s.mu.profile.source = .encoder →
     (s.mu.encA, s.mu.encB, a, b) ∈ reverseEdges →
     ∃ t, exec (.encoderEdge p a b) s = .next t ∧ t.countIndex = s.countIndex + 1 ∧
       t.mu = { s.mu with
         phase := s.mu.phase - 1
         reverseAbsorbed := if s.mu.phase = 0 then min (s.mu.reverseAbsorbed + 1) 65535 else s.mu.reverseAbsorbed
         windowCount := max (s.mu.windowCount - 1) (-32768), encA := a, encB := b, sim := t.mu.sim }) ∧
  (∀ (p : Pins) (a b : Bool) (s : State), s.inReset = false → s.mu.profile.source = .encoder →
     ((s.mu.encA, s.mu.encB, a, b) ∈ forwardEdges → s.mu.phase + 1 < s.mu.len →
       ∃ t, exec (.encoderEdge p a b) s = .next t ∧ t.mu.phase = s.mu.phase + 1 ∧ t.mu.pitch = s.mu.pitch ∧
         t.mu.len = s.mu.len) ∧
     ((s.mu.encA, s.mu.encB, a, b) ∈ forwardEdges → s.mu.len ≤ s.mu.phase + 1 →
       ∃ t, exec (.encoderEdge p a b) s = .next t ∧ t.mu.phase = 0 ∧ t.mu.pitch = s.mu.pitch + 1 ∧
         t.mu.len = if 256 ≤ s.mu.acc + s.mu.profile.f then s.mu.profile.p + 1 else s.mu.profile.p) ∧
     ((s.mu.encA, s.mu.encB, a, b) ∈ reverseEdges →
       ∃ t, exec (.encoderEdge p a b) s = .next t ∧ t.mu.phase = s.mu.phase - 1 ∧ t.mu.pitch = s.mu.pitch ∧
         t.mu.len = s.mu.len))

/-- At the boundary FU applies the pending curve shadows, latches S and computes the fire point of every station that has
one: Φ − min(Φ, advance), with the advance of R23. -/
def Obligations.BoundaryComputesTheFirePoints : Prop :=
  ∀ (p : Pins) (a b : Bool) (s : State), s.Open → s.mu.profile.source = .encoder →
    (s.mu.encA, s.mu.encB, a, b) ∈ forwardEdges → s.mu.len ≤ s.mu.phase + 1 →
    ∃ t, exec (.encoderEdge p a b) s = .next t ∧ t.fu.stations = s.fu.stations ∧ t.fu.latchedSpeed = s.mu.speed ∧
      (∀ k : Fin 4, t.fu.curves[k].pending = false ∧
        t.fu.curves[k].active = if s.fu.curves[k].pending then s.fu.curves[k].shadow else s.fu.curves[k].active) ∧
      (∀ i : StationNo, (s.station i).kind.fires = true → (s.station i).curve = none →
        (t.fireWork i).e = (s.station i).phi) ∧
      (∀ (i : StationNo) (k : Fin 4), (s.station i).kind.fires = true → (s.station i).curve = some k →
        ∃ raw adv : Nat,
          (∀ c, c = t.fu.curves[k].active →
            (s.mu.speed < c.s1 → raw = c.a0 + s.mu.speed * c.k0 / 256) ∧
            (c.s1 ≤ s.mu.speed → s.mu.speed < c.s2 → raw = c.a1 + (s.mu.speed - c.s1) * c.k1 / 256) ∧
            (c.s1 ≤ s.mu.speed → c.s2 ≤ s.mu.speed → s.mu.speed < c.s3 →
              raw = c.a2 + (s.mu.speed - c.s2) * c.k2 / 256) ∧
            (c.s1 ≤ s.mu.speed → c.s2 ≤ s.mu.speed → c.s3 ≤ s.mu.speed →
              raw = c.a3 + (s.mu.speed - c.s3) * c.k3 / 256) ∧
            adv = if raw < c.amin then c.amin else if c.amax < raw then c.amax else raw) ∧
          (t.fireWork i).e = (s.station i).phi - min (s.station i).phi adv)

/-- An illegal transition yields no count, increments MOTION_ERRORS and takes the stop-class fault MOTION, with no station and
no copy; outside FAULTED it writes the armed locator. The count of announced counts is the model's own
(notes/assumptions/1.md). -/
def Obligations.IllegalTransitionFaultsTheLine : Prop :=
  ∀ (p : Pins) (a b : Bool) (s : State), s.Open → s.mu.profile.source = .encoder →
    (s.mu.encA, s.mu.encB, a, b) ∈ illegalEdges →
    ∃ t, exec (.encoderEdge p a b) s = .next t ∧ t.countIndex = s.countIndex ∧ t.lc.line = .faulted ∧
      t.lc.faults.motion = true ∧
      t.lc.further = (if s.lc.line = .faulted then min (s.lc.further + 1) 255 else 0) ∧
      t.lc.locator = (if s.lc.line ≠ .faulted ∧ s.lc.armed = true then
        some { cause := .motion, station := none, pitch := s.mu.pitch, seq := none } else s.lc.locator) ∧
      t.au = s.au ∧ t.bu = s.bu ∧ t.gm = s.gm ∧ t.pp = s.pp ∧
      t.mu = { s.mu with
        motionErrors := min (s.mu.motionErrors + 1) 65535, encA := a, encB := b, sim := t.mu.sim }

/-- The generating simulated source issues a forward count; its millisecond goes on or begins anew, unless the count takes the
line out of the firing states, which stops the source. The count of announced counts is the model's own
(notes/assumptions/1.md). -/
def Obligations.SimulatedCountCounts : Prop :=
  ∀ (p : Pins) (s : State) (rate issued : Nat), s.Open → s.mu.sim = .generating rate issued →
    ∃ t, exec (.simulatedCount p) s = .next t ∧ t.countIndex = s.countIndex + 1 ∧
      t.mu.sim = (if s.firing = true ∧ t.firing = false then .stopped
        else .generating rate (if issued + 1 < rate then issued + 1 else 0)) ∧
      t.mu.windowCount = min (s.mu.windowCount + 1) 32767 ∧ t.mu.profile = s.mu.profile ∧
      t.mu.speed = s.mu.speed ∧ t.mu.motionErrors = s.mu.motionErrors ∧
      (s.mu.phase + 1 < s.mu.len →
        t.mu.phase = s.mu.phase + 1 ∧ t.mu.pitch = s.mu.pitch ∧ t.mu.len = s.mu.len ∧ t.mu.acc = s.mu.acc) ∧
      (s.mu.len ≤ s.mu.phase + 1 → t.mu.phase = 0 ∧ t.mu.pitch = s.mu.pitch + 1)

/-- Every forward count, encoder or simulated, raises the speed-window count by one up to 32,767, a boundary's too; every
reverse count lowers it by one down to −32,768, an absorbed one's too; an illegal transition leaves it; in every line state,
whether or not a frame is held. A window's end sets S from it, floored at 0 and held at 4095, and empties it. -/
def Obligations.SpeedWindowCountsAndSetsTheSpeed : Prop :=
  (∀ (p : Pins) (a b : Bool) (s : State), s.inReset = false → s.mu.profile.source = .encoder →
     ((s.mu.encA, s.mu.encB, a, b) ∈ forwardEdges →
       ∃ t, exec (.encoderEdge p a b) s = .next t ∧ t.mu.windowCount = min (s.mu.windowCount + 1) 32767) ∧
     ((s.mu.encA, s.mu.encB, a, b) ∈ reverseEdges →
       ∃ t, exec (.encoderEdge p a b) s = .next t ∧ t.mu.windowCount = max (s.mu.windowCount - 1) (-32768)) ∧
     ((s.mu.encA, s.mu.encB, a, b) ∈ illegalEdges →
       ∃ t, exec (.encoderEdge p a b) s = .next t ∧ t.mu.windowCount = s.mu.windowCount)) ∧
  (∀ (p : Pins) (s : State) (rate issued : Nat), s.inReset = false → s.mu.sim = .generating rate issued →
     ∃ t, exec (.simulatedCount p) s = .next t ∧ t.mu.windowCount = min (s.mu.windowCount + 1) 32767) ∧
  (∀ (p : Pins) (s : State), s.Calm →
     exec (.speedWindowExpiry p) s =
       .next (beginSending { s with
         pins := p
         mu := { s.mu with
           speed := if s.mu.windowCount ≤ 0 then 0 else if 4095 ≤ s.mu.windowCount then 4095 else s.mu.windowCount.toNat
           windowCount := 0 } })) ∧
  (∀ (p : Pins) (s : State), s.inReset = false →
     ∃ t, exec (.speedWindowExpiry p) s = .next t ∧ t.mu.windowCount = 0 ∧
       t.mu.speed =
         (if s.mu.windowCount ≤ 0 then 0 else if 4095 ≤ s.mu.windowCount then 4095 else s.mu.windowCount.toNat) ∧
       t.mu.phase = s.mu.phase ∧ t.mu.pitch = s.mu.pitch ∧ t.mu.len = s.mu.len)

/-- Any 256 consecutive pitch lengths sum to 256 P + F, exactly F of them are P + 1 counts long and the others P, and two
consecutive long pitches have floor(256 / F) − 1 or ceil(256 / F) − 1 pitches of length P between them. -/
def Obligations.PitchLengthsAverageExactly : Prop :=
  ∀ (p : LineProfile) (acc : Nat), p.f ≤ 255 → acc ≤ 255 →
    (pitchLengths p 256 acc).sum = 256 * p.p + p.f ∧
    (pitchLengths p 256 acc).count (p.p + 1) = p.f ∧
    (∀ n, ∀ l ∈ pitchLengths p n acc, l = p.p ∨ l = p.p + 1) ∧
    (p.f = 0 → ∀ n, ∀ l ∈ pitchLengths p n acc, l = p.p) ∧
    (∀ n i j, i < j → j < n → (pitchLengths p n acc)[i]? = some (p.p + 1) → (pitchLengths p n acc)[j]? = some (p.p + 1) →
      (∀ k, i < k → k < j → (pitchLengths p n acc)[k]? = some p.p) →
      j - i - 1 = 256 / p.f - 1 ∨ j - i - 1 = (256 + p.f - 1) / p.f - 1)

/-! ## Firing and outputs -/

/-- An announced count inside the pitch, forward or reverse, encoder or simulated, that brings the phase to a station's E
takes its fire point if its kind has one and its fired flag is clear, and sets the flag; every other flag stays, and with it
the outcome. At the boundary the flags set are those of the stations whose E is 0. A second fire point in one pitch that a
station write makes is the model's choice (notes/assumptions/32.md); the order of several at one count is free
(notes/assumptions/1.md). Outside the firing states the outcome is SKIPPED, no pulse begins, and the context that a FEED,
CARRIER or SEAL station, or an INSERT station whose feeder it calls for, should have served gets SUSPECT; so it does at the
close-out of a fire point not reached. In a firing state a FEED or CARRIER station fires on a context, an INSERT station on a
context that calls for its feeder, a SEAL station always, with a pulse of the station's length from E, and otherwise the
outcome is DECLINED. A station pulse and the kick pulses end at the forward count that reaches their pulse end and at the
boundary, and go on while the line fires otherwise, at reverse counts too. The record that the pitch has taken its kick, the
model's own field (notes/assumptions/38.md), stands through the counts inside the pitch and is cleared at the boundary, where
no STACK fire point is taken. That a FEED station reads the position of its own offset, where the tables of R28 and R70 name
position 0: notes/assumptions/22.md (section 4.2). -/
def Obligations.ActionStationsTakeTheirFirePoint : Prop :=
  (∀ (i : StationNo) (s : State),
     ((takeFirePoint i s).fireWork i).fired = true ∧
     (s.firing = false → ((takeFirePoint i s).fireWork i).outcome = .skipped ∧
       ((takeFirePoint i s).fireWork i).pulse = (s.fireWork i).pulse) ∧
     (s.firing = true → ∀ fires : Bool,
       (((s.station i).kind = .feed ∨ (s.station i).kind = .carrier) ∧
           fires = (s.contentAt (s.station i).offset).isCopy ∨
         (s.station i).kind = .seal ∧ fires = true ∨
         (s.station i).kind = .insert ∧ (fires = true ↔ ∃ c, s.contentAt (s.station i).offset = .copy c ∧
           c.values.callsFor (s.station i).feeder = true)) →
       takeFirePoint i s = setFireWork i (fun w =>
         if fires then { w with fired := true, outcome := .fired, pulse := true, pulseEnd := w.e + (s.station i).pulseLength }
         else { w with fired := true, outcome := .declined }) s)) ∧
  (∀ (i : StationNo) (s : State),
     (∀ c, s.contentAt (s.station i).offset = .copy c →
       ((s.station i).kind = .feed ∨ (s.station i).kind = .carrier ∨ (s.station i).kind = .seal ∨
         (s.station i).kind = .insert ∧ c.values.callsFor (s.station i).feeder = true) →
       (s.firing = false → (takeFirePoint i s).contentAt (s.station i).offset = .copy { c with marks := c.marks.add .suspect }) ∧
       ((s.fireWork i).fired = false →
         (actionCloseOut i s).contentAt (s.station i).offset = .copy { c with marks := c.marks.add .suspect })) ∧
     ((s.station i).kind ≠ .print →
       (s.contentAt (s.station i).offset).isCopy = false ∨
         (∃ c, s.contentAt (s.station i).offset = .copy c ∧ (s.station i).kind = .insert ∧
           c.values.callsFor (s.station i).feeder = false) →
       (s.firing = false → (takeFirePoint i s).tu = s.tu) ∧ actionCloseOut i s = s) ∧
     ((s.fireWork i).fired = true → actionCloseOut i s = s) ∧
     (∀ forward, runTask forward s (.firePoint i) =
       if (s.station i).kind.fires = true ∧ (s.fireWork i).fired = false ∧ (s.fireWork i).e = s.mu.phase then
         takeFirePoint i s else s)) ∧
  (∀ (p : Pins) (s : State) (cmd : Instr) (i : StationNo) (phase : Nat), s.Open →
     (((∃ a b, cmd = .encoderEdge p a b ∧ s.mu.profile.source = .encoder ∧ (s.mu.encA, s.mu.encB, a, b) ∈ forwardEdges) ∨
         cmd = .simulatedCount p ∧ s.mu.sim ≠ .stopped) ∧ phase = s.mu.phase + 1 ∧ s.mu.phase + 1 < s.mu.len ∨
       (∃ a b, cmd = .encoderEdge p a b ∧ s.mu.profile.source = .encoder ∧ (s.mu.encA, s.mu.encB, a, b) ∈ reverseEdges) ∧
         phase = s.mu.phase - 1) →
     ∃ t, exec cmd s = .next t ∧ t.mu.phase = phase ∧ (t.fireWork i).e = (s.fireWork i).e ∧
       ((t.fireWork i).fired = true ↔ (s.fireWork i).fired = true ∨ (s.station i).kind.fires = true ∧ (s.fireWork i).e = phase) ∧
       ((t.fireWork i).fired = (s.fireWork i).fired → (t.fireWork i).outcome = (s.fireWork i).outcome) ∧
       ((s.fireWork i).fired = false → (t.fireWork i).fired = true →
         (s.firing = false → (t.fireWork i).outcome = .skipped) ∧ (s.firing = true → (t.fireWork i).outcome ≠ .none)) ∧
       ((t.fireWork i).fired = (s.fireWork i).fired →
         (s.mu.phase < phase → (s.fireWork i).pulseEnd = phase → (t.fireWork i).pulse = false) ∧
         (t.firing = true → phase ≤ s.mu.phase ∨ (s.fireWork i).pulseEnd ≠ phase →
           (t.fireWork i).pulse = (s.fireWork i).pulse ∧ (t.fireWork i).pulseEnd = (s.fireWork i).pulseEnd)) ∧
       ((∀ j, (s.station j).kind = .stack → (t.fireWork j).fired = (s.fireWork j).fired) →
         t.fu.kickTaken = s.fu.kickTaken ∧
         (s.mu.phase < phase → s.fu.kickEnd = phase → t.fu.bundleKick = false ∧ t.fu.trayKick = false) ∧
         (t.firing = true → phase ≤ s.mu.phase ∨ s.fu.kickEnd ≠ phase →
           t.fu.bundleKick = s.fu.bundleKick ∧ t.fu.trayKick = s.fu.trayKick ∧ t.fu.kickEnd = s.fu.kickEnd))) ∧
  (∀ (p : Pins) (s : State) (cmd : Instr), s.Open → s.mu.len ≤ s.mu.phase + 1 →
     ((∃ a b, cmd = .encoderEdge p a b ∧ s.mu.profile.source = .encoder ∧ (s.mu.encA, s.mu.encB, a, b) ∈ forwardEdges) ∨
       cmd = .simulatedCount p ∧ s.mu.sim ≠ .stopped) →
     ∃ t, exec cmd s = .next t ∧
       (∀ i, ((t.fireWork i).fired = true ↔ (s.station i).kind.fires = true ∧ (t.fireWork i).e = 0) ∧
         ((t.fireWork i).fired = false → (t.fireWork i).outcome = .none ∧ (t.fireWork i).pulse = false)) ∧
       ((∀ j, (s.station j).kind = .stack → (t.fireWork j).fired = false) →
         t.fu.bundleKick = false ∧ t.fu.trayKick = false ∧ t.fu.kickTaken = false))

/-- An accepted STATION write sets the whole entry, computes E for the pitch in progress and resets the Check Unit's state of
that station; the other entries and the rest of the tables stay. A station already fired keeps its flag and its outcome; one
not fired whose E the phase has reached is SKIPPED, and the context that it should have served gets SUSPECT, at a PRINT
station with the withdrawal of its job; a GATE or STACK station's SKIPPED touches no position. A record that comes inside a
half-received frame is taken as the model chose in notes/assumptions/3.md. That a FEED station marks the position of its own
offset, where the table of R70 names position 0: notes/assumptions/22.md (section 4.2). -/
def Obligations.StationWriteSetsTheEntry : Prop :=
  ∀ (p : Pins) (ref : Byte) (s : State) (i : StationNo) (e : StationEntry), s.Calm → e.Sound →
    s.lc.line = .stopped → s.ll.lock = false → s.ll.writeEnable.getLsbD 0 = true →
    ∃ u, exec (.stationWrite p ref (BitVec.ofNat 8 i.val :: stationOctets e)) s =
        .next (answered 0x03 (ref :: 0x01 :: BitVec.ofNat 8 i.val :: stationOctets e) (.ok 0 []) u) ∧
      u.station i = e ∧ (∀ j, j ≠ i → u.station j = s.station j ∧ u.checkWork j = s.checkWork j ∧
        u.fireWork j = s.fireWork j) ∧
      (e.kind.fires = true → (u.fireWork i).e = e.phi - min e.phi (u.advance e)) ∧
      (e.kind.fires = true → (s.fireWork i).fired = false → (u.fireWork i).e ≤ s.mu.phase →
        (u.fireWork i).fired = true ∧ (u.fireWork i).outcome = .skipped) ∧
      (e.kind.fires = false → (u.fireWork i).fired = false ∧ (u.fireWork i).outcome = .none) ∧
      u.checkWork i = { presenceRun := 0, detected := false, windowClosed := decide (e.windowEnd ≤ s.mu.phase)
                        measure := .notTaken, nextSample := 0, sampleSum := 0, faultRun := 0, drift := 0
                        jamRun := 0, jamRaised := false } ∧
      u.fu.curves = s.fu.curves ∧ u.fu.outputs = s.fu.outputs ∧ u.mu = s.mu ∧ u.lc = s.lc ∧ u.au = s.au ∧ u.bu = s.bu ∧
      u.ll = s.ll ∧
      (e.kind.fires = true → u.fireWork i =
        if (s.fireWork i).fired = false ∧ (u.fireWork i).e ≤ s.mu.phase then
          { s.fireWork i with e := (u.fireWork i).e, fired := true, outcome := .skipped }
        else { s.fireWork i with e := (u.fireWork i).e }) ∧
      (∀ c, e.kind.fires = true → (s.fireWork i).fired = false → (u.fireWork i).e ≤ s.mu.phase →
        s.contentAt e.offset = .copy c →
        (e.kind = .feed ∨ e.kind = .carrier ∨ e.kind = .seal ∨ e.kind = .insert ∧ c.values.callsFor e.feeder = true →
          u.contentAt e.offset = .copy { c with marks := c.marks.add .suspect } ∧ u.pp = s.pp) ∧
        (e.kind = .print → c.tag = none →
          u.contentAt e.offset = .copy { c with marks := c.marks.add .suspect } ∧ u.pp = s.pp) ∧
        (∀ t, e.kind = .print → c.tag = some t →
          u.contentAt e.offset = .copy { c with marks := c.marks.add .suspect
                                                tag := if ∃ j ∈ s.pp.jobs, j.tag = t then none else some t } ∧
          u.pp = (withdraw s).pp)) ∧
      (e.kind ≠ .print → u.pp = s.pp ∧ u.gm = s.gm ∧ ∀ pos, pos ≠ e.offset → u.contentAt pos = s.contentAt pos) ∧
      (e.kind.fires = false ∨ (s.fireWork i).fired = true ∨ s.mu.phase < (u.fireWork i).e ∨ e.kind = .gate ∨
          e.kind = .stack ∨ e.kind ≠ .print ∧ (s.contentAt e.offset).isCopy = false ∨
          s.contentAt e.offset = .empty ∨ s.contentAt e.offset = .ghost none ∨
          (∃ c, s.contentAt e.offset = .copy c ∧ e.kind = .insert ∧ c.values.callsFor e.feeder = false) →
        u.tu = s.tu ∧ u.pp = s.pp ∧ u.gm = s.gm) ∧
      (∀ t, e.kind = .print → (s.fireWork i).fired = false → (u.fireWork i).e ≤ s.mu.phase →
        s.contentAt e.offset = .ghost (some t) → u.pp = (withdraw s).pp ∧ u.tu = (withdraw s).tu)

/-- A CURVE write in STOPPED sets the active copy, clears the pending flag and computes E anew for the stations that name the
curve, with the SKIPPED, and its SUSPECT, of one not fired whose E the phase has reached; in every other line state it
replaces the shadow and sets the flag, and the active copy stays. A record that comes inside a half-received frame is taken as
the model chose in notes/assumptions/3.md. That a FEED station marks the position of its own offset, where the table of R70
names position 0: notes/assumptions/22.md (section 4.2). -/
def Obligations.CurveWriteByLineState : Prop :=
  ∀ (p : Pins) (ref : Byte) (s : State) (k : Fin 4) (c : Curve), s.Calm → c.Sound →
    s.ll.lock = false → s.ll.writeEnable.getLsbD 1 = true →
    ∃ u, exec (.curveWrite p ref (BitVec.ofNat 8 k.val :: curveOctets c)) s =
        .next (answered 0x03 (ref :: 0x02 :: BitVec.ofNat 8 k.val :: curveOctets c) (.ok 0 []) u) ∧
      (s.lc.line = .stopped → u.fu.curves[k] = { active := c, shadow := c, pending := false } ∧
        (∀ i, (s.station i).kind.fires = true → (s.station i).curve = some k →
          (u.fireWork i).e = (s.station i).phi - min (s.station i).phi (clampedAdvance c s.fu.latchedSpeed) ∧
          u.fireWork i =
            (if (s.fireWork i).fired = false ∧ (u.fireWork i).e ≤ s.mu.phase then
              { s.fireWork i with e := (u.fireWork i).e, fired := true, outcome := .skipped }
            else { s.fireWork i with e := (u.fireWork i).e }) ∧
          (∀ d, (s.fireWork i).fired = false → (u.fireWork i).e ≤ s.mu.phase → s.contentAt (s.station i).offset = .copy d →
            (s.station i).kind = .feed ∨ (s.station i).kind = .carrier ∨ (s.station i).kind = .seal ∨
              (s.station i).kind = .print ∨ (s.station i).kind = .insert ∧ d.values.callsFor (s.station i).feeder = true →
            ∃ f, u.contentAt (s.station i).offset = .copy f ∧ f.copy = d.copy ∧ f.marks.suspect = true)) ∧
        (∀ i, (s.station i).kind.fires = false ∨ (s.station i).curve ≠ some k → u.fireWork i = s.fireWork i)) ∧
      (s.lc.line ≠ .stopped →
        u = { s with
          pins := p
          fu := { s.fu with
            curves := s.fu.curves.set k.val { active := s.fu.curves[k].active, shadow := c, pending := true } } }) ∧
      (∀ j, j ≠ k → u.fu.curves[j] = s.fu.curves[j]) ∧ u.fu.stations = s.fu.stations ∧ u.mu = s.mu ∧ u.lc = s.lc

/-- An OUTPUT_MAP write in STOPPED sets the entry; a LINE_PROFILE write in STOPPED sets the profile and A to 0 and keeps L and
the phase; outside STOPPED each is refused with STATE, NOT_STOPPED, and changes nothing. Outside reset every output line
follows its entry: high while its source is active under NORMAL, and while it is inactive under INVERTED; the sources are the
pulses, the kicks and the line states of section 2.9 (that the levels are functions of the state: notes/assumptions/25.md). A
record that comes inside a half-received frame is taken as the model chose in notes/assumptions/3.md. -/
def Obligations.StoppedTablesAreWritten : Prop :=
  (∀ (p : Pins) (ref : Byte) (s : State) (k : Fin 24) (e : OutputEntry), s.Calm →
     s.ll.lock = false → s.ll.writeEnable.getLsbD 3 = true →
     exec (.outputMapWrite p ref (BitVec.ofNat 8 k.val :: outputOctets e)) s =
       .next (if s.lc.line = .stopped then
         answered 0x03 (ref :: 0x04 :: BitVec.ofNat 8 k.val :: outputOctets e) (.ok 0 [])
           { s with pins := p, fu := { s.fu with outputs := s.fu.outputs.set k.val e } }
       else
         answered 0x03 (ref :: 0x04 :: BitVec.ofNat 8 k.val :: outputOctets e) (.refusal .state 0x01) { s with pins := p })) ∧
  (∀ (p : Pins) (ref : Byte) (s : State) (e : LineProfile), s.Calm → e.Sound →
     s.ll.lock = false → s.ll.writeEnable.getLsbD 4 = true →
     exec (.lineProfileWrite p ref (0x00 :: profileOctets e)) s =
       .next (if s.lc.line = .stopped then
         answered 0x03 (ref :: 0x05 :: 0x00 :: profileOctets e) (.ok 0 [])
           { s with pins := p, mu := { s.mu with profile := e, acc := 0 } }
       else answered 0x03 (ref :: 0x05 :: 0x00 :: profileOctets e) (.refusal .state 0x01) { s with pins := p })) ∧
  (∀ (s : State) (k : Fin 24) (i : StationNo) (active : Bool), s.inReset = false →
     (s.fu.outputs[k].source = .station i ∧ active = (s.fireWork i).pulse ∨
      s.fu.outputs[k].source = .bundleKick ∧ active = s.fu.bundleKick ∨
      s.fu.outputs[k].source = .trayKick ∧ active = s.fu.trayKick ∨
      s.fu.outputs[k].source = .driveRun ∧
        active = decide (s.lc.line = .running ∨ s.lc.line = .holding ∨ s.lc.line = .runOut) ∨
      s.fu.outputs[k].source = .driveStopRequest ∧ active = decide (s.lc.line = .faulted) ∨
      s.fu.outputs[k].source = .lineHolding ∧ active = decide (s.lc.line = .holding) ∨
      s.fu.outputs[k].source = .lineFaulted ∧ active = decide (s.lc.line = .faulted) ∨
      s.fu.outputs[k].source = .off ∧ active = false) →
     s.outLevel k = (if s.fu.outputs[k].inverted then !active else active))

/-- An accepted PLAN write, in any line state, sets the entry, returns RESOLVED copies of the code to ARRIVED (from where the
idle resolver may take one) and sets the re-resolve request of a RESOLVING one; entries of other codes, ARRIVED, RESOLVING or
RESOLVED, keep their copy, and FREE and RECEIVING entries stay. A busy resolver goes on; an idle one takes the oldest ARRIVED
entry of the arrival order, with the plan entry of its copy's code as now written. A record that comes inside a half-received
frame is taken as the model chose in notes/assumptions/3.md. -/
def Obligations.PlanWriteSendsCopiesBack : Prop :=
  ∀ (p : Pins) (ref : Byte) (s : State) (code : PlanCode) (e : PlanEntry), s.Calm → e.Sound →
    s.ll.lock = false → s.ll.writeEnable.getLsbD 2 = true →
    ∃ u, exec (.planWrite p ref (BitVec.ofNat 8 code.val :: planOctets e)) s =
        .next (answered 0x03 (ref :: 0x03 :: BitVec.ofNat 8 code.val :: planOctets e) (.ok 0 []) u) ∧
      u.au.plans = s.au.plans.set code.val e ∧ u.au.order = s.au.order ∧ u.au.blocksUsed = s.au.blocksUsed ∧
      (∀ (j : Fin 16) c v, s.au.staging[j] = .resolved c v → c.plan = code →
        u.au.staging[j] = .arrived c ∨ u.au.staging[j] = .resolving c false) ∧
      (∀ (j : Fin 16) c v, s.au.staging[j] = .resolved c v → c.plan ≠ code → u.au.staging[j] = .resolved c v) ∧
      (∀ (j : Fin 16) c a, s.au.staging[j] = .resolving c a →
        u.au.staging[j] = .resolving c (a || decide (c.plan = code))) ∧
      (∀ (j : Fin 16) c, s.au.staging[j] = .arrived c →
        u.au.staging[j] = .arrived c ∨ s.au.resolver = none ∧ u.au.staging[j] = .resolving c false) ∧
      (∀ j : Fin 16, s.au.staging[j] = .free → u.au.staging[j] = .free) ∧
      (∀ j : Fin 16, s.au.staging[j] = .receiving → u.au.staging[j] = .receiving) ∧
      (∀ now : Vector StagingEntry 16,
        (∀ j : Fin 16, now[j] = match s.au.staging[j] with
          | .resolved c v => if c.plan = code then .arrived c else .resolved c v
          | .resolving c a => .resolving c (a || decide (c.plan = code))
          | x => x) →
        (s.au.resolver ≠ none ∨ (∀ j ∈ s.au.order, now[j].isArrived = false) →
          u.au.staging = now ∧ u.au.resolver = s.au.resolver) ∧
        (∀ j c, s.au.resolver = none → oldestArrived s.au.order now j c →
          u.au.staging = now.set j.val (.resolving c false) ∧
          u.au.resolver = some { entry := j, read := (s.au.plans.set code.val e)[c.plan] })) ∧
      u.au.pool = s.au.pool ∧ u.au.lastSeq = s.au.lastSeq ∧
      u.mu = s.mu ∧ u.fu = s.fu ∧ u.tu = s.tu ∧ u.gm = s.gm ∧ u.bu = s.bu ∧ u.lc = s.lc ∧ u.ll = s.ll

/-- Every TABLE-READ in range answers the table code, the index and the entry as held, whatever the line state and the
protection, and changes nothing else; an index beyond the table is refused with RANGE, field 1. A record that comes inside a
half-received frame is taken as the model chose in notes/assumptions/3.md. -/
def Obligations.TableReadsReturnTheEntry : Prop :=
  ∀ (p : Pins) (ref : Byte) (s : State), s.Calm →
    (∀ i : Fin 16, exec (.stationRead p ref [BitVec.ofNat 8 i.val]) s =
      .next (answered 0x04 [ref, 0x01, BitVec.ofNat 8 i.val]
        (.ok 0 (0x01 :: BitVec.ofNat 8 i.val :: stationOctets s.fu.stations[i])) { s with pins := p })) ∧
    (∀ i : Fin 4, exec (.curveRead p ref [BitVec.ofNat 8 i.val]) s =
      .next (answered 0x04 [ref, 0x02, BitVec.ofNat 8 i.val]
        (.ok 0 (0x02 :: BitVec.ofNat 8 i.val ::
          (curveOctets s.fu.curves[i].active ++ [boolOctet s.fu.curves[i].pending]))) { s with pins := p })) ∧
    (∀ i : Fin 64, exec (.planRead p ref [BitVec.ofNat 8 i.val]) s =
      .next (answered 0x04 [ref, 0x03, BitVec.ofNat 8 i.val]
        (.ok 0 (0x03 :: BitVec.ofNat 8 i.val :: planOctets s.au.plans[i])) { s with pins := p })) ∧
    (∀ i : Fin 24, exec (.outputMapRead p ref [BitVec.ofNat 8 i.val]) s =
      .next (answered 0x04 [ref, 0x04, BitVec.ofNat 8 i.val]
        (.ok 0 (0x04 :: BitVec.ofNat 8 i.val :: outputOctets s.fu.outputs[i])) { s with pins := p })) ∧
    exec (.lineProfileRead p ref [0x00]) s =
      .next (answered 0x04 [ref, 0x05, 0x00] (.ok 0 (0x05 :: 0x00 :: profileOctets s.mu.profile)) { s with pins := p }) ∧
    (∀ n : Byte,
      (16 ≤ n.toNat → exec (.stationRead p ref [n]) s =
        .next (answered 0x04 [ref, 0x01, n] (.refusal .range 1) { s with pins := p })) ∧
      (4 ≤ n.toNat → exec (.curveRead p ref [n]) s =
        .next (answered 0x04 [ref, 0x02, n] (.refusal .range 1) { s with pins := p })) ∧
      (64 ≤ n.toNat → exec (.planRead p ref [n]) s =
        .next (answered 0x04 [ref, 0x03, n] (.refusal .range 1) { s with pins := p })) ∧
      (24 ≤ n.toNat → exec (.outputMapRead p ref [n]) s =
        .next (answered 0x04 [ref, 0x04, n] (.refusal .range 1) { s with pins := p })) ∧
      (1 ≤ n.toNat → exec (.lineProfileRead p ref [n]) s =
        .next (answered 0x04 [ref, 0x05, n] (.refusal .range 1) { s with pins := p })))

/-- The checks in front of every table write, STATION, CURVE, PLAN, OUTPUT_MAP and LINE_PROFILE: a wrong length gives FORMAT,
PAYLOAD_LENGTH; a set lock LOCKED; a table not write-enabled PROTECTED with its code, and sets the lock; then STATE outside
STOPPED for the three tables written in STOPPED alone, and RANGE, field 1, for an index beyond the table. A TABLE-WRITE of one
octet gives FORMAT, an unnamed table RANGE, TABLE. Nothing else changes. A TABLE_WRITE command given the code of a table is
treated by its octets (the model's choice: notes/assumptions/3.md). A record that comes inside a half-received frame is taken
as the model chose in notes/assumptions/3.md. -/
def Obligations.TableWritesMeetTheProtection : Prop :=
  ∀ (p : Pins) (ref : Byte) (s : State), s.Calm →
    exec (.tableWrite p ref []) s = .next (answered 0x03 [ref] (.refusal .format 0x04) { s with pins := p }) ∧
    (∀ (code : Byte) (rest : List Byte), code.toNat = 0 ∨ 5 < code.toNat →
      exec (.tableWrite p ref (code :: rest)) s =
        .next (answered 0x03 (ref :: code :: rest) (.refusal .range 0x00) { s with pins := p })) ∧
    (∀ (tb : Table) (rest payload : List Byte), payload = ref :: BitVec.ofNat 8 (tableCode tb) :: rest →
      exec (.tableWrite p ref (BitVec.ofNat 8 (tableCode tb) :: rest)) s = exec (writeOf tb p ref rest) s ∧
      (payload.length ≠ tableWriteLength tb →
        exec (writeOf tb p ref rest) s = .next (answered 0x03 payload (.refusal .format 0x04) { s with pins := p })) ∧
      (payload.length = tableWriteLength tb → s.ll.lock = true →
        exec (writeOf tb p ref rest) s = .next (answered 0x03 payload (.refusal .locked 0x00) { s with pins := p })) ∧
      (payload.length = tableWriteLength tb → s.ll.lock = false → s.ll.writeEnable.getLsbD (tableCode tb - 1) = false →
        exec (writeOf tb p ref rest) s =
          .next (answered 0x03 payload (.refusal .protectedTable (BitVec.ofNat 8 (tableCode tb)))
            { s with pins := p, ll := { s.ll with lock := true } })) ∧
      (payload.length = tableWriteLength tb → s.ll.lock = false → s.ll.writeEnable.getLsbD (tableCode tb - 1) = true →
        s.lc.line ≠ .stopped → tb = .station ∨ tb = .outputMap ∨ tb = .lineProfile →
        exec (writeOf tb p ref rest) s = .next (answered 0x03 payload (.refusal .state 0x01) { s with pins := p })) ∧
      (payload.length = tableWriteLength tb → s.ll.lock = false → s.ll.writeEnable.getLsbD (tableCode tb - 1) = true →
        s.lc.line = .stopped ∨ tb = .curve ∨ tb = .plan → tableSize tb ≤ octetAt rest 0 →
        exec (writeOf tb p ref rest) s = .next (answered 0x03 payload (.refusal .range 0x01) { s with pins := p })))

/-! ## Admission and resolution -/

/-- A COPY record that names the receiving bundle, follows the sequence and finds an entry is accepted: the entry holds the
copy, its text stands in the free blocks of the lowest numbers, the sequence and the bundle's received count follow, and the
reply gives the FREE entries. The record is a command of its own (inside a half-received frame it is taken as the model chose
in notes/assumptions/3.md) or the last octet of its frame; its entry is the RECEIVING one of the frame, or else the
lowest-numbered FREE one, which joins the arrival order. A busy resolver goes on; an idle one takes the oldest ARRIVED entry
of the arrival order, with the plan entry of its copy's code. A forward distance above 1 raises SEQUENCE_GAP with the first
missing sequence and the number skipped, characters outside 20h to 7Eh raise TEXT_SUBST with their number. -/
def Obligations.CopyIsAccepted : Prop :=
  ∀ (p : Pins) (ref : Byte) (s : State) (seq : Seq) (plan : PlanCode) (lines : List (List Byte)) (b : Bundle) (i : Fin 16)
      (cmd : Instr) (order : List (Fin 16)) (replaced : Nat) (gap subst : List Record),
    s.inReset = false → s.ll.upstream.length ≤ 32 → s.lc.holds.linkBacklog = false →
    linesSound lines → (copyOctets seq b.number plan.val lines).length ≤ 249 →
    s.receivingBundle = some b → b.receiving = true →
    ((s.au.lastSeq = none ∨ ∃ l, s.au.lastSeq = some l ∧ (seq - l).toNat = 1) ∧ gap = [] ∨
      ∃ l, s.au.lastSeq = some l ∧ 1 < (seq - l).toNat ∧ (seq - l).toNat ≤ 8388608 ∧
        gap = [.notice (.sequenceGap (l + 1) ((seq - l).toNat - 1)) s.mu.pitch]) →
    replaced = lines.flatten.countP (fun ch => decide (ch.toNat < 0x20 ∨ 0x7E < ch.toNat)) →
    (replaced = 0 ∧ subst = [] ∨ 0 < replaced ∧ subst = [.notice (.textSubst seq replaced) s.mu.pitch]) →
    (cmd = .copy p ref (copyOctets seq b.number plan.val lines) ∧ s.ll.receive ≠ .held ∨
      ∃ o, cmd = .linkOctet p o ∧ s.ll.receive = .crcLow ∧ s.ll.buffer.kind = 0x01 ∧
        s.ll.buffer.payload = ref :: copyOctets seq b.number plan.val lines ∧
        s.ll.buffer.crc = s.ll.buffer.crcHigh ++ o) →
    (s.receivingEntry = some i ∧ order = s.au.order ∨
      s.receivingEntry = none ∧ s.freeStaging = some i ∧ order = s.au.order ++ [i]) →
    ∃ u c, exec cmd s =
        .next (answered 0x01 (ref :: copyOctets seq b.number plan.val lines) (.ok (BitVec.ofNat 8 u.freeEntries) []) u) ∧
      c = { seq := seq, bundleNo := b.number, ordinal := b.ordinal, plan := plan, lineCount := lines.length
            blocks := lowestFree s.au.blocksUsed (blocksNeeded (storedText lines).length) : StagedCopy } ∧
      (u.au.staging[i] = .arrived c ∨ u.au.staging[i] = .resolving c false) ∧
      (s.au.resolver ≠ none → u.au.staging = s.au.staging.set i.val (.arrived c) ∧ u.au.resolver = s.au.resolver) ∧
      (∀ j d, s.au.resolver = none → oldestArrived order (s.au.staging.set i.val (.arrived c)) j d →
        u.au.staging = (s.au.staging.set i.val (.arrived c)).set j.val (.resolving d false) ∧
        u.au.resolver = some { entry := j, read := s.au.plans[d.plan] }) ∧
      (∀ j : Fin 16, j ≠ i → s.au.staging[j] = .free → u.au.staging[j] = .free) ∧
      u.au.order = order ∧ u.au.lastSeq = some seq ∧
      u.au.blocksUsed = useBlocks s.au.blocksUsed c.blocks ∧
      u.au.pool = s.au.pool.storeBlocks (storedText (lines.map (fun l => l.map storedChar))) c.blocks ∧
      u.bu.table = s.bu.table.map (fun d => if d.ordinal = b.ordinal then
        { d with received := d.received + 1, receiving := d.receiving && decide (d.received + 1 ≠ d.expected) } else d) ∧
      u.ll.flags = s.ll.flags ||| (if gap = [] then 0 else 0x020) ||| (if subst = [] then 0 else 0x040) ∧
      u.ll.upstream = s.ll.upstream ++ (if s.ll.mask.getLsbD 5 then gap else []) ++
        (if s.ll.mask.getLsbD 6 then subst else []) ∧
      u.mu = s.mu ∧ u.fu = s.fu ∧ u.tu = s.tu ∧ u.cu = s.cu ∧ u.pp = s.pp ∧ u.gm = s.gm ∧ u.lc = s.lc

/-- A COPY record refused by one of its checks gets that refusal and changes nothing but a RECEIVING entry, which returns to
FREE and leaves the arrival order, whether the record is a command or the last octet of its frame; with no entry RECEIVING and
none FREE it is refused with FULL. The first check that fails is FORMAT with the first of LINE_COUNT, LINE_LENGTH and
LENGTH_MISMATCH that the payload's fields show, then RANGE for a plan code above 63, SEQUENCE with the last accepted one for a
forward distance of 0 or above 8,388,608, NO_BUNDLE with the receiving bundle's number or none, OVERCOUNT with the expected
count. A record that comes inside a half-received frame is taken as the model chose in notes/assumptions/3.md. -/
def Obligations.CopyIsRefused : Prop :=
  (∀ (p : Pins) (ref : Byte) (rest : List Byte) (s : State), s.Calm → s.receivingEntry = none → s.copyArriving = false →
     (∀ a, copyRefusal (ref :: rest) s = some a → s.freeStaging = none →
       exec (.copy p ref rest) s = .next (answered 0x01 (ref :: rest) a { s with pins := p })) ∧
     (copyRefusal (ref :: rest) s = none → s.freeStaging = none →
       exec (.copy p ref rest) s = .next (answered 0x01 (ref :: rest) (.refusal .full 0) { s with pins := p })) ∧
     (∀ (i : Fin 16) a, copyRefusal (ref :: rest) s = some a → s.freeStaging = some i →
       ∃ u, exec (.copy p ref rest) s = .next (answered 0x01 (ref :: rest) a u) ∧ u.au.staging = s.au.staging ∧
         u.au.lastSeq = s.au.lastSeq ∧ u.au.blocksUsed = s.au.blocksUsed ∧ u.au.pool = s.au.pool ∧ u.bu = s.bu ∧
         (i ∉ s.au.order → u.au.order = s.au.order) ∧ u.ll = s.ll ∧ u.mu = s.mu ∧ u.fu = s.fu ∧ u.tu = s.tu ∧
         u.cu = s.cu ∧ u.pp = s.pp ∧ u.gm = s.gm ∧ u.lc = s.lc)) ∧
  (∀ (payload : List Byte) (s : State), payload.length < 8 → copyRefusal payload s = some (.refusal .format 0x03)) ∧
  (∀ (ref plan count : Byte) (seq : Seq) (number : Word16) (lengths text payload : List Byte) (s : State),
     payload = ref :: octets3 seq.toNat ++ octets2 number.toNat ++ [plan, count] ++ lengths ++ text →
     (count.toNat = 0 ∨ 6 < count.toNat → copyRefusal payload s = some (.refusal .format 0x01)) ∧
     (1 ≤ count.toNat → count.toNat ≤ 6 → lengths.length = count.toNat ∨ lengths.length < count.toNat ∧ text = [] →
       (∃ l ∈ lengths, 40 < l.toNat) → copyRefusal payload s = some (.refusal .format 0x02)) ∧
     (1 ≤ count.toNat → count.toNat ≤ 6 → (∀ l ∈ lengths, l.toNat ≤ 40) →
       lengths.length < count.toNat ∧ text = [] ∨
         lengths.length = count.toNat ∧ (lengths.map BitVec.toNat).sum ≠ text.length →
       copyRefusal payload s = some (.refusal .format 0x03)) ∧
     (1 ≤ count.toNat → count.toNat ≤ 6 → (∀ l ∈ lengths, l.toNat ≤ 40) → lengths.length = count.toNat →
       (lengths.map BitVec.toNat).sum = text.length →
       (64 ≤ plan.toNat → copyRefusal payload s = some (.refusal .range 0x03)) ∧
       (∀ l, plan.toNat ≤ 63 → s.au.lastSeq = some l → (seq - l).toNat = 0 ∨ 8388608 < (seq - l).toNat →
         copyRefusal payload s = some { status := .sequence, detail := 0, data := 0x00 :: octets3 l.toNat }) ∧
       (plan.toNat ≤ 63 →
         (s.au.lastSeq = none ∨ ∃ l, s.au.lastSeq = some l ∧ 1 ≤ (seq - l).toNat ∧ (seq - l).toNat ≤ 8388608) →
         (s.receivingBundle = none →
           copyRefusal payload s = some { status := .noBundle, detail := 0, data := [0xFF, 0x00, 0x00] }) ∧
         (∀ b, s.receivingBundle = some b → b.number ≠ number →
           copyRefusal payload s = some { status := .noBundle, detail := 0, data := 0x00 :: octets2 b.number.toNat }) ∧
         (∀ b, s.receivingBundle = some b → b.number = number → b.receiving = false →
           copyRefusal payload s = some { status := .overcount, detail := 0, data := octets2 b.expected }) ∧
         (∀ b, s.receivingBundle = some b → b.number = number → b.receiving = true → copyRefusal payload s = none)))) ∧
  (∀ (p : Pins) (ref : Byte) (rest : List Byte) (s : State) (cmd : Instr) (link : LinkController),
     s.inReset = false → s.ll.upstream.length ≤ 32 → s.lc.holds.linkBacklog = false →
     (cmd = .copy p ref rest ∧ s.ll.receive ≠ .held ∧
         link = { s.ll with receive := if s.copyArriving = true then .search else s.ll.receive } ∨
       ∃ o, cmd = .linkOctet p o ∧ s.ll.receive = .crcLow ∧ s.ll.buffer.kind = 0x01 ∧ s.ll.buffer.payload = ref :: rest ∧
         s.ll.buffer.crc = s.ll.buffer.crcHigh ++ o ∧
         link = { s.ll with receive := .search, buffer := { s.ll.buffer with crcLow := o } }) →
     (∀ a (i : Fin 16), copyRefusal (ref :: rest) s = some a → s.receivingEntry = some i →
       exec cmd s = .next (answered 0x01 (ref :: rest) a { s with
         pins := p, ll := link
         au := { s.au with staging := s.au.staging.set i.val .free
                           order := s.au.order.filter (fun j => decide (j ≠ i)) } })) ∧
     (∀ a o, cmd = .linkOctet p o → copyRefusal (ref :: rest) s = some a → s.receivingEntry = none →
       exec cmd s = .next (answered 0x01 (ref :: rest) a { s with pins := p, ll := link })) ∧
     (copyRefusal (ref :: rest) s = none → s.receivingEntry = none → s.freeStaging = none →
       exec cmd s = .next (answered 0x01 (ref :: rest) (.refusal .full 0) { s with pins := p, ll := link })))

/-- The completion of a resolution: a re-resolve request returns the entry to ARRIVED (from where the resolver may take it
again), a valid plan makes it RESOLVED with the values read, and a vacant one makes a PLAN_VACANT exception: its record, one
more excepted copy for its bundle, its text blocks free, the entry FREE and out of the arrival order. The resolver then takes
the oldest ARRIVED entry of the arrival order, with the plan entry of its copy's code, and is idle if there is none. The
exception that completes the lowest bundle closes it behind that record. -/
def Obligations.ResolutionCompletes : Prop :=
  ∀ (p : Pins) (s : State) (r : Resolution) (c : StagedCopy) (again : Bool), s.Calm →
    s.au.resolver = some r → s.au.staging[r.entry] = .resolving c again →
    ∃ t, exec (.resolutionComplete p) s = .next t ∧
      (again = true → (t.au.staging[r.entry] = .arrived c ∨ t.au.staging[r.entry] = .resolving c false) ∧
        t.bu = s.bu ∧ t.ll.upstream = s.ll.upstream ∧ t.au.order = s.au.order ∧ t.au.blocksUsed = s.au.blocksUsed) ∧
      (again = false → r.read.valid = true → t.au.staging[r.entry] = .resolved c r.read.values ∧ t.bu = s.bu ∧
        t.ll.upstream = s.ll.upstream ∧ t.au.order = s.au.order ∧ t.au.blocksUsed = s.au.blocksUsed) ∧
      (again = false → r.read.valid = false → t.au.staging[r.entry] = .free ∧
        t.au.order = s.au.order.filter (fun j => decide (j ≠ r.entry)) ∧
        t.au.blocksUsed = releaseBlocks s.au.blocksUsed c.blocks ∧
        (∃ more, t.ll.upstream = s.ll.upstream ++ [vacantRecord c s.mu.pitch] ++ more) ∧
        (∀ b, s.bundle c.ordinal = some b →
          (¬ (b.receiving = false ∧ b.complete = false ∧ b.delivered + b.excepted + 1 = b.expected) →
            t.bu = { s.bu with table := s.bu.table.map (fun e =>
              if e.ordinal = b.ordinal then { e with excepted := e.excepted + 1 } else e) } ∧
            t.ll.upstream = s.ll.upstream ++ [vacantRecord c s.mu.pitch]) ∧
          (∀ rest, b.receiving = false → b.complete = false → b.delivered + b.excepted + 1 = b.expected →
            s.bu.table = b :: rest → (∀ e ∈ rest, e.ordinal ≠ b.ordinal) → (∀ e, rest.head? = some e → e.complete = false) →
            t.bu.table = rest ∧
            t.ll.upstream = s.ll.upstream ++ [vacantRecord c s.mu.pitch,
              .bundleClose b.number b.expected b.delivered (b.excepted + 1) b.truncated b.digest]))) ∧
      (∀ now : Vector StagingEntry 16,
        now = s.au.staging.set r.entry.val
          (if again then .arrived c else if r.read.valid then .resolved c r.read.values else .free) →
        ((∀ j ∈ t.au.order, now[j].isArrived = false) → t.au.staging = now ∧ t.au.resolver = none) ∧
        (∀ j d, oldestArrived t.au.order now j d →
          t.au.staging = now.set j.val (.resolving d false) ∧
          t.au.resolver = some { entry := j, read := s.au.plans[d.plan] })) ∧
      t.au.plans = s.au.plans ∧ t.au.lastSeq = s.au.lastSeq ∧ t.mu = s.mu ∧ t.fu = s.fu ∧ t.tu = s.tu ∧ t.cu = s.cu ∧
      t.pp = s.pp ∧ t.gm = s.gm

/-- A BUNDLE-OPEN record in its ranges that finds no receipt to end, no bundle of its number and a free place makes the new
receiving bundle with the next ordinal. A receiving bundle short of its expected count is truncated first, with
BUNDLE_TRUNCATED, and closes if that accounts for it and no other bundle stands in the table. A wrong length is refused with
FORMAT, a field out of range with RANGE and its number, a number in the table with DUPLICATE and its ordinal, a full table
with FULL, and a refused record changes nothing. A record that comes inside a half-received frame is taken as the model chose
in notes/assumptions/3.md. The kick of that close joins its list without a bound (notes/assumptions/33.md). -/
def Obligations.BundleOpenMakesTheBundle : Prop :=
  (∀ (p : Pins) (ref : Byte) (s : State) (number : Word16) (expected limit : Nat) (mode : BundleMode) (tray : Bool), s.Calm →
     1 ≤ expected → expected ≤ 999 → limit ≤ 7 → s.bu.table.length < 8 → s.bundleNamed number = none →
     (∀ b ∈ s.bu.table, b.receiving = false) →
     exec (.bundleOpen p ref (bundleOctets number expected mode limit tray)) s =
       .next (answered 0x02 (ref :: bundleOctets number expected mode limit tray)
         (.ok (BitVec.ofNat 8 (7 - s.bu.table.length)) (octets2 s.bu.nextOrdinal.toNat))
         { s with
           pins := p
           bu := { s.bu with
             table := s.bu.table ++ [{ ordinal := s.bu.nextOrdinal, number := number, expected := expected, mode := mode
                                       retryLimit := limit, trayBreak := tray, receiving := true, received := 0
                                       delivered := 0, excepted := 0, truncated := false, digest := 0
                                       complete := false }]
             nextOrdinal := s.bu.nextOrdinal + 1
             receiving := some s.bu.nextOrdinal } })) ∧
  (∀ (p : Pins) (ref : Byte) (s : State) (number : Word16) (expected limit : Nat) (mode : BundleMode) (tray : Bool) (b made : Bundle),
     s.Calm → s.BundlesSound → 1 ≤ expected → expected ≤ 999 → limit ≤ 7 → s.bu.table.length < 8 →
     s.bundleNamed number = none → s.receivingBundle = some b → b.receiving = true →
     made = { ordinal := s.bu.nextOrdinal, number := number, expected := expected, mode := mode, retryLimit := limit
              trayBreak := tray, receiving := true, received := 0, delivered := 0, excepted := 0, truncated := false
              digest := 0, complete := false } →
     ∃ u, exec (.bundleOpen p ref (bundleOctets number expected mode limit tray)) s =
         .next (answered 0x02 (ref :: bundleOctets number expected mode limit tray)
           (.ok (BitVec.ofNat 8 (8 - u.bu.table.length)) (octets2 s.bu.nextOrdinal.toNat)) u) ∧
       u.ll.flags.getLsbD 9 = true ∧ u.bu.nextOrdinal = s.bu.nextOrdinal + 1 ∧ u.bu.receiving = some s.bu.nextOrdinal ∧
       (b.delivered + b.excepted ≠ b.received →
         u.bu.table = s.bu.table.map (fun d => if d.ordinal = b.ordinal then
           { d with receiving := false, expected := d.received, truncated := true } else d) ++ [made] ∧
         u.bu.kicks = s.bu.kicks ∧
         (s.ll.mask.getLsbD 9 = true → u.ll.upstream = s.ll.upstream ++
           [.notice (.bundleTruncated b.number b.ordinal b.expected b.received) s.mu.pitch])) ∧
       (b.delivered + b.excepted = b.received → s.bu.table = [b] →
         u.bu.table = [made] ∧ u.bu.kicks = s.bu.kicks ++ (if 0 < b.delivered then [b.trayBreak] else []) ∧
         (s.ll.mask.getLsbD 9 = true → u.ll.upstream = s.ll.upstream ++
           [.notice (.bundleTruncated b.number b.ordinal b.expected b.received) s.mu.pitch,
            .bundleClose b.number b.received b.delivered b.excepted true b.digest])) ∧
       u.mu = s.mu ∧ u.fu = s.fu ∧ u.au = s.au ∧ u.tu = s.tu ∧ u.cu = s.cu ∧ u.pp = s.pp ∧ u.gm = s.gm ∧ u.lc = s.lc) ∧
  (∀ (p : Pins) (ref : Byte) (s : State), s.Calm →
     (∀ rest : List Byte, rest.length ≠ 7 → exec (.bundleOpen p ref rest) s =
       .next (answered 0x02 (ref :: rest) (.refusal .format 0x04) { s with pins := p })) ∧
     (∀ (number expected : Word16) (mode limit tray field : Byte) (rest : List Byte),
       rest = octets2 number.toNat ++ octets2 expected.toNat ++ [mode, limit, tray] →
       field = 2 ∧ (expected.toNat = 0 ∨ 999 < expected.toNat) ∨
         1 ≤ expected.toNat ∧ expected.toNat ≤ 999 ∧
           (field = 3 ∧ 1 < mode.toNat ∨ field = 4 ∧ mode.toNat ≤ 1 ∧ 7 < limit.toNat ∨
            field = 5 ∧ mode.toNat ≤ 1 ∧ limit.toNat ≤ 7 ∧ 1 < tray.toNat) →
       exec (.bundleOpen p ref rest) s =
         .next (answered 0x02 (ref :: rest) (.refusal .range field) { s with pins := p })) ∧
     (∀ (number : Word16) (expected limit : Nat) (mode : BundleMode) (tray : Bool) (rest : List Byte),
       rest = bundleOctets number expected mode limit tray → 1 ≤ expected → expected ≤ 999 → limit ≤ 7 →
       (∀ d, s.bundleNamed number = some d → exec (.bundleOpen p ref rest) s =
         .next (answered 0x02 (ref :: rest) { status := .duplicate, detail := 0, data := octets2 d.ordinal.toNat }
           { s with pins := p })) ∧
       (s.bundleNamed number = none → 8 ≤ s.bu.table.length → exec (.bundleOpen p ref rest) s =
         .next (answered 0x02 (ref :: rest) (.refusal .full 0) { s with pins := p }))))

/-! ## The copy track -/

/-- The shift moves every position's content up by one and leaves position 0 EMPTY. The release fills position 0: in RUNNING
with the make-up head as a REMAKE, else with the oldest staged copy if it is RESOLVED as a MAIN of no attempts, else the pitch
is starved; in every other line state nothing is released. An encoder edge at the boundary does both and closes out the gate:
where no GATE or STACK station gets a fire point at phase 0 for the pitch now starting, every copy below T − 1 moves up with
its counts, ghosts and gaps with it, unless the gate had not decided; then position g is emptied before the shift, a ghost
there is counted, a copy there goes to make-up within its limit; and position 0 gets the release of the line state in force. A
copy whose FEED, CARRIER, SEAL or called-for INSERT fire point, or whose presence check there, the ended pitch did not reach
moves up with SUSPECT. The release reads the line state at the start of the event, whatever the close-out makes of it
(notes/assumptions/14.md). A boundary taken in STOPPED or FAULTED with a context or ghost on the track sets the displaced
flag, and no other sets it. That a FEED station serves the position of its own offset, where the table of R70 names position
0: notes/assumptions/22.md (section 4.2). -/
def Obligations.TheTrackShiftsAndReleases : Prop :=
  (∀ s : State, 1 ≤ s.trackLen →
     (shiftTrack s).trackLen = s.trackLen ∧ (shiftTrack s).contentAt 0 = .empty ∧
     (∀ pos, pos + 1 < s.trackLen → (shiftTrack s).contentAt (pos + 1) = s.contentAt pos) ∧
     shiftTrack s = { s with tu := { s.tu with track := (shiftTrack s).tu.track } }) ∧
  (∀ (s : State) (line : LineState), 1 ≤ s.trackLen →
     (line ≠ .running → release line s = { s with tu := { s.tu with starvedRun := false } }) ∧
     (∀ c rest, line = .running → s.gm.queue = c :: rest →
       (release line s).contentAt 0 = .copy { c with
         origin := .remake, marks := MarkSet.empty, tag := none, verifyResult := none } ∧
       (release line s).gm.queue = rest ∧ (release line s).au = s.au ∧ (release line s).tu.starvedRun = false) ∧
     (∀ i c v, line = .running → s.gm.queue = [] → s.au.order.head? = some i → s.au.staging[i] = .resolved c v →
       (release line s).contentAt 0 = .copy { copy := c, values := v, origin := .main, attempts := 0, faulted := 0
                                              marks := MarkSet.empty, tag := none, verifyResult := none } ∧
       (release line s).au.staging[i] = .free ∧ i ∉ (release line s).au.order ∧
       (release line s).au.blocksUsed = s.au.blocksUsed) ∧
     (line = .running → s.gm.queue = [] → (∀ i c v, s.au.order.head? = some i → s.au.staging[i] ≠ .resolved c v) →
       (release line s).tu.track = s.tu.track ∧ (release line s).tu.starved = min (s.tu.starved + 1) 65535 ∧
       (release line s).tu.starvedRun = true ∧ (release line s).au = s.au ∧
       (s.tu.starvedRun = true → (release line s).ll = s.ll) ∧
       (s.tu.starvedRun = false → (release line s).ll.flags.getLsbD 10 = true))) ∧
  (∀ (p : Pins) (a b : Bool) (s : State), s.Open → s.mu.profile.source = .encoder →
     (s.mu.encA, s.mu.encB, a, b) ∈ forwardEdges → s.mu.len ≤ s.mu.phase + 1 → 1 ≤ s.trackLen →
     (∀ i, (s.station i).kind = .gate ∨ (s.station i).kind = .stack → 0 < (s.station i).phi ∧
       ∀ k : Fin 4, (s.station i).curve = some k →
         clampedAdvance (if s.fu.curves[k].pending then s.fu.curves[k].shadow else s.fu.curves[k].active) s.mu.speed <
           (s.station i).phi) →
     ∃ t, exec (.encoderEdge p a b) s = .next t ∧ t.trackLen = s.trackLen ∧ t.gm.decided = false ∧
       (s.gm.decided = true →
         (∀ pos c, pos + 1 < s.trackLen → s.contentAt pos = .copy c →
           ∃ d, t.contentAt (pos + 1) = .copy d ∧ d.copy = c.copy ∧ d.values = c.values ∧ d.origin = c.origin ∧
             d.attempts = c.attempts ∧ d.faulted = c.faulted ∧ d.verifyResult = c.verifyResult ∧
             (∀ i, (s.station i).offset = pos →
               (s.fireWork i).fired = false ∧
                 ((s.station i).kind = .feed ∨ (s.station i).kind = .carrier ∨ (s.station i).kind = .seal ∨
                   (s.station i).kind = .insert ∧ c.values.callsFor (s.station i).feeder = true) ∨
               (s.checkWork i).windowClosed = false ∧ (s.station i).sensor ≠ none ∧
                 ((s.station i).kind = .feed ∨ (s.station i).kind = .carrier ∨
                   (s.station i).kind = .insert ∧ c.values.callsFor (s.station i).feeder = true) →
               d.marks.suspect = true)) ∧
         (∀ pos, pos + 1 < s.trackLen → (s.contentAt pos).isGhost = true → (t.contentAt (pos + 1)).isGhost = true) ∧
         (∀ pos, pos + 1 < s.trackLen → s.contentAt pos = .empty → t.contentAt (pos + 1) = .empty) ∧
         (∀ i c v, s.lc.line = .running → s.gm.queue = [] → s.au.order.head? = some i → s.au.staging[i] = .resolved c v →
           t.au.staging[i] = .free ∧ ∃ d, t.contentAt 0 = .copy d ∧ d.copy = c ∧ d.values = v ∧ d.origin = .main ∧
             d.attempts = 0 ∧ d.faulted = 0 ∧ d.verifyResult = none) ∧
         (∀ c rest, s.lc.line = .running → s.gm.queue = c :: rest →
           t.gm.queue.map Context.copy = rest.map Context.copy ∧
           ∃ d, t.contentAt 0 = .copy d ∧ d.copy = c.copy ∧ d.values = c.values ∧ d.origin = .remake ∧
             d.attempts = c.attempts ∧ d.faulted = c.faulted ∧ d.verifyResult = none)) ∧
       (∀ g, s.gm.decided = false → s.tu.gate = some g → g + 1 < s.trackLen →
         t.contentAt (g + 1) = .empty ∧
         ((s.contentAt g).isGhost = true → t.gm.ghostDiverts = min (s.gm.ghostDiverts + 1) 65535) ∧
         (∀ c, s.lc.line ≠ .running → s.contentAt g = .copy c →
           (∀ d ∈ s.bu.table, c.faulted + 1 ≤ d.retryLimit ∧ d.mode = .remake) →
           ∃ d ∈ t.gm.queue, d.copy = c.copy ∧ d.attempts = min (c.attempts + 1) 255)) ∧
       (s.lc.line ≠ .running → t.contentAt 0 = .empty ∧ t.au.order = s.au.order ∧ t.tu.starved = s.tu.starved)) ∧
  (∀ (p : Pins) (a b : Bool) (s : State), s.Open → s.mu.profile.source = .encoder →
     (s.mu.encA, s.mu.encB, a, b) ∈ forwardEdges → s.mu.len ≤ s.mu.phase + 1 →
     ∃ t, exec (.encoderEdge p a b) s = .next t ∧
       (t.lc.displaced = true ↔ s.lc.displaced = true ∨
         (s.lc.line = .stopped ∨ s.lc.line = .faulted) ∧ ∃ pos, (s.contentAt pos).occupied = true))

/-! ## Checking stations -/

/-- The presence filter at a forward count inside the pitch: the run rises while the input is active in the window and sets
the detected flag at the minimum detect, and is 0 otherwise. The jam run of a GATE or STACK station rises while its input is
active and faults the line with JAM once when it reaches the jam length; an inactive input ends the run and its flag. A jam
already raised, and a reverse count, raise none. The jam inputs that CLEAR_FAULT asks for are those of the stations with a jam
length. That the run rule sets the flag in a window shorter than the minimum detect too, under counts that rock inside it:
notes/assumptions/34.md. -/
def Obligations.PresenceFilterCounts : Prop :=
  (∀ (p : Pins) (a b : Bool) (s : State) (i : StationNo) (k : Fin 16), s.Open → s.mu.profile.source = .encoder →
     (s.mu.encA, s.mu.encB, a, b) ∈ forwardEdges → s.mu.phase + 1 < s.mu.len →
     (s.station i).kind.filtered = true → (s.station i).sensor = some k →
     ∃ t, exec (.encoderEdge p a b) s = .next t ∧
       ((s.station i).windowStart ≤ s.mu.phase + 1 → s.mu.phase + 1 ≤ (s.station i).windowEnd →
         p.sns.getLsbD k.val = true →
         (t.checkWork i).presenceRun = min ((s.checkWork i).presenceRun + 1) 255 ∧
         ((t.checkWork i).detected = true ↔ (s.checkWork i).detected = true ∨
           (s.station i).minDetect ≤ (s.checkWork i).presenceRun + 1)) ∧
       ((s.mu.phase + 1 < (s.station i).windowStart ∨ (s.station i).windowEnd < s.mu.phase + 1 ∨
           p.sns.getLsbD k.val = false) →
         (t.checkWork i).presenceRun = 0 ∧ (t.checkWork i).detected = (s.checkWork i).detected)) ∧
  (∀ (p : Pins) (a b : Bool) (s : State) (i : StationNo) (k : Fin 16), s.Open → s.mu.profile.source = .encoder →
     (s.mu.encA, s.mu.encB, a, b) ∈ forwardEdges → s.mu.phase + 1 < s.mu.len →
     (s.station i).kind = .gate ∨ (s.station i).kind = .stack → (s.station i).sensor = some k → 0 < (s.station i).jamLength →
     ∃ t, exec (.encoderEdge p a b) s = .next t ∧
       (p.sns.getLsbD k.val = true →
         (t.checkWork i).jamRun = min ((s.checkWork i).jamRun + 1) 65535 ∧
         ((s.checkWork i).jamRaised = false → (s.station i).jamLength ≤ min ((s.checkWork i).jamRun + 1) 65535 →
           t.lc.line = .faulted ∧ t.lc.faults.jam = true ∧ (t.checkWork i).jamRaised = true) ∧
         ((s.checkWork i).jamRaised = true ∨ min ((s.checkWork i).jamRun + 1) 65535 < (s.station i).jamLength →
           (t.checkWork i).jamRaised = (s.checkWork i).jamRaised)) ∧
       (p.sns.getLsbD k.val = false → (t.checkWork i).jamRun = 0 ∧ (t.checkWork i).jamRaised = false)) ∧
  (∀ (s : State) (i : StationNo),
     ((s.checkWork i).jamRaised = true → runTask true s (.jam i) = s) ∧ runTask false s (.jam i) = s) ∧
  (∀ s : State, s.jamInputActive = true ↔ ∃ (i : StationNo) (k : Fin 16),
     ((s.station i).kind = .gate ∨ (s.station i).kind = .stack) ∧ 0 < (s.station i).jamLength ∧
     (s.station i).sensor = some k ∧ s.pins.sns.getLsbD k.val = true)

/-- Window close at FEED and CARRIER in a firing state after FIRED, with the consecutive-fault limit off: a product not
detected gives the context MAIN_MISS or CARRIER_MISS, one detected leaves the track as it is and the counter 0; after SKIPPED
or no outcome the context gets SUSPECT. At INSERT the same with INSERT_MISS of the feeder for a context that calls for it, and
a context that does not gets INSERT_EXTRA on a detection alone. Outside the firing states a context the check applies to gets
SUSPECT. A detection on a gap in a firing state counts STRAY_PRODUCT and marks nothing; a ghost is not judged. Window close is
taken, once a pitch, at the announced count that brings the phase to the window end of a FEED, INSERT or CARRIER station with
a sensor, at the boundary for a window end of 0, in an order among the work of one count that is free
(notes/assumptions/1.md). A pitch that ends without it gives SUSPECT to a context the check applies to, and nothing on a gap
or ghost. -/
def Obligations.WindowCloseJudgesTheProduct : Prop :=
  (∀ (i : StationNo) (s : State) (c : Context) (m : Mark), s.firing = true →
     s.contentAt (s.station i).offset = .copy c → (s.station i).faultLimit = 0 →
     ((s.station i).kind = .feed ∧ m = .mainMiss ∨ (s.station i).kind = .carrier ∧ m = .carrierMiss) →
     ((closeWindow i s).checkWork i).windowClosed = true ∧
     ((s.fireWork i).outcome = .fired → (s.checkWork i).detected = false →
       (closeWindow i s).contentAt (s.station i).offset = .copy { c with marks := c.marks.add m }) ∧
     ((s.fireWork i).outcome = .fired → (s.checkWork i).detected = true →
       (closeWindow i s).tu = s.tu ∧ ((closeWindow i s).checkWork i).faultRun = 0) ∧
     ((s.fireWork i).outcome = .skipped ∨ (s.fireWork i).outcome = .none →
       (closeWindow i s).contentAt (s.station i).offset = .copy { c with marks := c.marks.add .suspect } ∧
       ((closeWindow i s).checkWork i).faultRun = (s.checkWork i).faultRun) ∧
     (closeWindow i s).mu = s.mu ∧ (closeWindow i s).fu = s.fu ∧ (closeWindow i s).lc = s.lc) ∧
  (∀ (i : StationNo) (s : State) (c : Context), s.firing = true → s.contentAt (s.station i).offset = .copy c →
     (s.station i).faultLimit = 0 → (s.station i).kind = .insert →
     ((closeWindow i s).checkWork i).windowClosed = true ∧
     (c.values.callsFor (s.station i).feeder = true → (s.fireWork i).outcome = .fired → (s.checkWork i).detected = false →
       (closeWindow i s).contentAt (s.station i).offset =
         .copy { c with marks := c.marks.add (.insertMiss (s.station i).feeder) }) ∧
     (c.values.callsFor (s.station i).feeder = true → (s.fireWork i).outcome = .skipped ∨ (s.fireWork i).outcome = .none →
       (closeWindow i s).contentAt (s.station i).offset = .copy { c with marks := c.marks.add .suspect } ∧
       ((closeWindow i s).checkWork i).faultRun = (s.checkWork i).faultRun) ∧
     (c.values.callsFor (s.station i).feeder = false → (s.checkWork i).detected = true →
       (closeWindow i s).contentAt (s.station i).offset = .copy { c with marks := c.marks.add .insertExtra }) ∧
     (c.values.callsFor (s.station i).feeder = true ∧ (s.fireWork i).outcome = .fired ∧ (s.checkWork i).detected = true ∨
         c.values.callsFor (s.station i).feeder = false ∧ (s.checkWork i).detected = false →
       (closeWindow i s).tu = s.tu ∧ ((closeWindow i s).checkWork i).faultRun = 0)) ∧
  (∀ (i : StationNo) (s : State),
     (∀ c, s.firing = false → s.contentAt (s.station i).offset = .copy c →
       ((closeWindow i s).checkWork i).faultRun = (s.checkWork i).faultRun ∧
       ((s.station i).kind = .feed ∨ (s.station i).kind = .carrier ∨
           (s.station i).kind = .insert ∧ c.values.callsFor (s.station i).feeder = true →
         (closeWindow i s).contentAt (s.station i).offset = .copy { c with marks := c.marks.add .suspect }) ∧
       ((s.station i).kind = .insert → c.values.callsFor (s.station i).feeder = false → (closeWindow i s).tu = s.tu)) ∧
     (s.contentAt (s.station i).offset = .empty →
       (closeWindow i s).cu.strayProduct =
         (if s.firing = true ∧ (s.checkWork i).detected = true then min (s.cu.strayProduct + 1) 65535 else s.cu.strayProduct) ∧
       (∀ j, ((closeWindow i s).checkWork j).faultRun = (s.checkWork j).faultRun) ∧
       (closeWindow i s).tu = s.tu ∧ (closeWindow i s).lc = s.lc ∧ (closeWindow i s).ll = s.ll) ∧
     (∀ g, s.contentAt (s.station i).offset = .ghost g →
       closeWindow i s = setCheckWork i (fun w => { w with windowClosed := true }) s)) ∧
  (∀ (p : Pins) (s : State) (cmd : Instr) (i : StationNo) (phase : Nat), s.Open →
     (((∃ a b, cmd = .encoderEdge p a b ∧ s.mu.profile.source = .encoder ∧ (s.mu.encA, s.mu.encB, a, b) ∈ forwardEdges) ∨
         cmd = .simulatedCount p ∧ s.mu.sim ≠ .stopped) ∧ phase = (if s.mu.phase + 1 < s.mu.len then s.mu.phase + 1 else 0) ∨
       (∃ a b, cmd = .encoderEdge p a b ∧ s.mu.profile.source = .encoder ∧ (s.mu.encA, s.mu.encB, a, b) ∈ reverseEdges) ∧
         phase = s.mu.phase - 1) →
     ∃ t, exec cmd s = .next t ∧ t.mu.phase = phase ∧
       ((t.checkWork i).windowClosed = true ↔
         (s.checkWork i).windowClosed = true ∧ t.mu.pitch = s.mu.pitch ∨
         ((s.station i).kind = .feed ∨ (s.station i).kind = .insert ∨ (s.station i).kind = .carrier) ∧
           (s.station i).sensor ≠ none ∧ phase = (s.station i).windowEnd)) ∧
  (∀ (i : StationNo) (s : State) (forward : Bool), runTask forward s (.windowClose i) =
     if ((s.station i).kind = .feed ∨ (s.station i).kind = .insert ∨ (s.station i).kind = .carrier) ∧
       (s.station i).sensor ≠ none ∧ (s.checkWork i).windowClosed = false ∧ s.mu.phase = (s.station i).windowEnd then
       closeWindow i s else s) ∧
  (∀ (i : StationNo) (s : State) (c : Context), s.contentAt (s.station i).offset = .copy c →
     ((s.station i).sensor ≠ none → (s.checkWork i).windowClosed = false →
       ((s.station i).kind = .feed ∨ (s.station i).kind = .carrier ∨
         (s.station i).kind = .insert ∧ c.values.callsFor (s.station i).feeder = true) →
       (presenceCloseOut i s).contentAt (s.station i).offset = .copy { c with marks := c.marks.add .suspect } ∧
       (presenceCloseOut i s).cu = s.cu) ∧
     ((s.station i).kind = .insert → c.values.callsFor (s.station i).feeder = false → presenceCloseOut i s = s)) ∧
  (∀ (i : StationNo) (s : State),
     (s.contentAt (s.station i).offset).isCopy = false ∨ (s.checkWork i).windowClosed = true ∨ (s.station i).sensor = none →
     presenceCloseOut i s = s)

/-- A fault verdict marks the copy and counts; at the limit the counter restarts, STATION_LIMIT joins the hold causes and
its notice is raised. -/
def Obligations.FaultVerdictCountsToItsLimit : Prop :=
  ∀ (i : StationNo) (m : Mark) (c : Context) (s : State), s.contentAt (s.station i).offset = .copy c →
    (faultVerdict i m c s).contentAt (s.station i).offset = .copy { c with marks := c.marks.add m } ∧
    (0 < (s.station i).faultLimit → (s.checkWork i).faultRun + 1 < (s.station i).faultLimit →
      ((faultVerdict i m c s).checkWork i).faultRun = (s.checkWork i).faultRun + 1 ∧
      (faultVerdict i m c s).lc = s.lc) ∧
    (0 < (s.station i).faultLimit → (s.station i).faultLimit ≤ (s.checkWork i).faultRun + 1 →
      ((faultVerdict i m c s).checkWork i).faultRun = 0 ∧
      (faultVerdict i m c s).lc.holds.stationLimit = true ∧
      (faultVerdict i m c s).ll.flags.getLsbD 3 = true ∧
      (s.lc.line = .running → s.lc.holds.isEmpty = true → (faultVerdict i m c s).lc.line = .holding))

/-- The thickness verdict reads the sample sum over 2^m and the first or second window of the copy's plan by the station's
place among the CALIPER stations: below gives THIN, above THICK, within the window no mark. The measurement begins at window
start, on a copy or a gap in a firing state; on a ghost, and outside the firing states with SUSPECT, it is not taken. It takes
sample k at w0 + floor(k (w1 − w0) / 2^m), each a conversion of the station's channel added to the sum, those that fall at one
count one after another, none at a reverse count, and completes with the last. On a gap the reading above zmax counts toward
the drift limit, at which the counter restarts with CALIPER_DRIFT, and one not above ends the count; on a ghost it is
discarded. A channel gives its readings as a list of which the last stands (notes/assumptions/13.md). -/
def Obligations.CaliperReadingJudgesTheCopy : Prop :=
  (∀ (i : StationNo) (s : State) (c : Context) (reading low high : Nat),
     s.contentAt (s.station i).offset = .copy c → (s.station i).faultLimit = 0 →
     reading = (s.checkWork i).sampleSum / 2 ^ (s.station i).sampleExp →
     low = (if s.firstOf .caliper = some i then c.values.low1 else c.values.low2) →
     high = (if s.firstOf .caliper = some i then c.values.high1 else c.values.high2) →
     ((completeMeasurement i s).checkWork i).measure = .done ∧
     (completeMeasurement i s).contentAt (s.station i).offset =
       .copy (if reading < low then { c with marks := c.marks.add .thin }
              else if high < reading then { c with marks := c.marks.add .thick } else c)) ∧
  (∀ (i : StationNo) (s : State) (forward : Bool), (s.station i).kind = .caliper → (s.checkWork i).measure = .idle →
     (s.mu.phase ≠ (s.station i).windowStart → runTask forward s (.caliper i) = s) ∧
     (s.mu.phase = (s.station i).windowStart →
       (∀ g, s.firing = true → s.contentAt (s.station i).offset = .ghost g →
         runTask forward s (.caliper i) = setCheckWork i (fun w => { w with measure := .notTaken }) s) ∧
       (s.firing = false → ((runTask forward s (.caliper i)).checkWork i).measure = .notTaken ∧
         (∀ c, s.contentAt (s.station i).offset = .copy c → (runTask forward s (.caliper i)).contentAt
           (s.station i).offset = .copy { c with marks := c.marks.add .suspect })) ∧
       ((s.checkWork i).nextSample = 0 → s.firing = true → (s.contentAt (s.station i).offset).isGhost = false →
         runTask forward s (.caliper i) =
           runTask true (setCheckWork i (fun w => { w with measure := .measuring }) s) (.caliper i)))) ∧
  (∀ (i : StationNo) (s : State), (s.station i).kind = .caliper → (s.checkWork i).measure = .measuring →
     runTask false s (.caliper i) = s ∧
     (∀ k point, k = (s.checkWork i).nextSample →
       point = (s.station i).windowStart +
         k * ((s.station i).windowEnd - (s.station i).windowStart) / 2 ^ (s.station i).sampleExp →
       (s.mu.phase ≠ point → runTask true s (.caliper i) = s) ∧
       (s.mu.phase = point → k + 1 < 2 ^ (s.station i).sampleExp →
         runTask true s (.caliper i) = runTask true (takeSample i s) (.caliper i)) ∧
       (s.mu.phase = point → k + 1 = 2 ^ (s.station i).sampleExp →
         runTask true s (.caliper i) = completeMeasurement i (takeSample i s)))) ∧
  (∀ (i : StationNo) (s : State) (v : BitVec 10) (more : List (BitVec 10)),
     (if (s.station i).channel then s.pins.cal1 else s.pins.cal0) = v :: more →
     ((takeSample i s).checkWork i).sampleSum = (s.checkWork i).sampleSum + v.toNat ∧
     ((takeSample i s).checkWork i).nextSample = (s.checkWork i).nextSample + 1 ∧
     ((takeSample i s).checkWork i).measure = (s.checkWork i).measure ∧
     (∀ w rest, more = w :: rest →
       (if (s.station i).channel then (takeSample i s).pins.cal1 else (takeSample i s).pins.cal0) = more) ∧
     (takeSample i s).tu = s.tu ∧ (takeSample i s).mu = s.mu ∧ (takeSample i s).lc = s.lc) ∧
  (∀ (i : StationNo) (s : State) (reading : Nat), reading = (s.checkWork i).sampleSum / 2 ^ (s.station i).sampleExp →
     (∀ g, s.contentAt (s.station i).offset = .ghost g →
       completeMeasurement i s = setCheckWork i (fun w => { w with measure := .done }) s) ∧
     (s.contentAt (s.station i).offset = .empty →
       ((completeMeasurement i s).checkWork i).measure = .done ∧ (completeMeasurement i s).tu = s.tu ∧
       ((s.station i).driftLimit = 0 → completeMeasurement i s = setCheckWork i (fun w => { w with measure := .done }) s) ∧
       (0 < (s.station i).driftLimit → reading ≤ (s.station i).zmax →
         ((completeMeasurement i s).checkWork i).drift = 0 ∧ (completeMeasurement i s).lc = s.lc) ∧
       (0 < (s.station i).driftLimit → (s.station i).zmax < reading → (s.checkWork i).drift + 1 < (s.station i).driftLimit →
         ((completeMeasurement i s).checkWork i).drift = (s.checkWork i).drift + 1 ∧ (completeMeasurement i s).lc = s.lc) ∧
       (0 < (s.station i).driftLimit → (s.station i).zmax < reading → (s.station i).driftLimit ≤ (s.checkWork i).drift + 1 →
         ((completeMeasurement i s).checkWork i).drift = 0 ∧ (completeMeasurement i s).lc.holds.caliperDrift = true ∧
         (completeMeasurement i s).ll.flags.getLsbD 4 = true ∧
         (s.lc.line = .running → s.lc.holds.isEmpty = true → (completeMeasurement i s).lc.line = .holding))))

/-- A READ or NOREAD message is kept as the verify result of a context that wants one, and is stray on a gap, on a ghost, on a
second answer and with no VERIFY station. The judgement at the close-out of a boundary taken in a firing state gives the
context VERIFY_ABSENT for no result or NOREAD and VERIFY_MISMATCH for a value other than its sequence modulo 65,536, and
passes it clean otherwise; at one taken outside the firing states it gives SUSPECT; a context that wants no answer, a gap, a
ghost and a table with no VERIFY station have no judgement. A message command leaves its port idle (notes/assumptions/26.md). -/
def Obligations.ReaderMessagesFindTheirCopy : Prop :=
  (∀ (p : Pins) (s : State) (v : ReadResult) (cmd : Instr), s.Calm →
     (∃ w, v = .value w ∧ cmd = .read p w) ∨ (v = .noRead ∧ cmd = .noRead p) →
     ∃ t, exec cmd s = .next t ∧ t.cu.reader = .idle ∧
       (∀ r, (s.firstOf .verify = none ∧ r = StrayReason.noStation ∨
           (∃ i, s.firstOf .verify = some i ∧
             (s.contentAt (s.station i).offset = .empty ∧ r = .gap ∨
              (∃ g, s.contentAt (s.station i).offset = .ghost g ∧ r = .ghost) ∨
              (∃ c, s.contentAt (s.station i).offset = .copy c ∧ c.values.verify = true ∧ c.verifyResult ≠ none ∧
                r = .answered)))) →
         t.cu.strayRead = min (s.cu.strayRead + 1) 65535 ∧ t.ll.flags.getLsbD 8 = true ∧ t.tu = s.tu ∧
         (s.ll.mask.getLsbD 8 = true → t.ll.upstream = s.ll.upstream ++ [.notice (.strayRead r v) s.mu.pitch])) ∧
       (∀ i c, s.firstOf .verify = some i → s.contentAt (s.station i).offset = .copy c → c.values.verify = true →
         c.verifyResult = none →
         t.contentAt (s.station i).offset = .copy { c with verifyResult := some v } ∧
         t.cu = { s.cu with reader := .idle }) ∧
       (∀ i c, s.firstOf .verify = some i → s.contentAt (s.station i).offset = .copy c → c.values.verify = false →
         t.tu = s.tu ∧ t.cu = { s.cu with reader := .idle }) ∧
       t.mu = s.mu ∧ t.fu = s.fu ∧ t.au = s.au ∧ t.pp = s.pp ∧ t.gm = s.gm ∧ t.bu = s.bu ∧ t.lc = s.lc) ∧
  (∀ (s : State) (i : StationNo) (c : Context), s.firstOf .verify = some i → s.contentAt (s.station i).offset = .copy c →
     c.values.verify = true →
     ((s.station i).faultLimit = 0 → c.verifyResult = none ∨ c.verifyResult = some .noRead →
       (verifyJudgement true s).contentAt (s.station i).offset = .copy { c with marks := c.marks.add .verifyAbsent }) ∧
     (∀ v, (s.station i).faultLimit = 0 → c.verifyResult = some (.value v) → v ≠ c.copy.seq.setWidth 16 →
       (verifyJudgement true s).contentAt (s.station i).offset = .copy { c with marks := c.marks.add .verifyMismatch }) ∧
     (c.verifyResult = some (.value (c.copy.seq.setWidth 16)) →
       verifyJudgement true s = setCheckWork i (fun w => { w with faultRun := 0 }) s) ∧
     (verifyJudgement false s).contentAt (s.station i).offset = .copy { c with marks := c.marks.add .suspect } ∧
     (verifyJudgement false s).cu = s.cu) ∧
  (∀ (s : State) (firing : Bool),
     (s.firstOf .verify = none ∨ (∃ i, s.firstOf .verify = some i ∧
       ((s.contentAt (s.station i).offset).isCopy = false ∨
        ∃ c, s.contentAt (s.station i).offset = .copy c ∧ c.values.verify = false))) →
     verifyJudgement firing s = s)

/-- The reader and printer ports gather a message octet by octet: an octet begins one only if it is A5h, a length octet above
250 discards at once, an inner octet joins the octets gathered, and the last octet of a message whose check fails, whose kind
the port does not know, whose payload length is not that of its kind, whose tag is above 15 or whose result code names neither
OK nor FAIL discards it. The last octet of a good READ, NOREAD, CLEARED, TAKEN or DONE is that message. A discard, or a gap
inside a message, counts an error and leaves the port idle. A printer message sent leaves the transmit queue. A message
command leaves its port idle (notes/assumptions/26.md). -/
def Obligations.PortsGatherMessages : Prop :=
  (∀ (p : Pins) (s : State) (o : Byte), s.Calm →
     exec (.readerMessageDiscard p) s = .next (beginSending { s with
       pins := p, cu := { s.cu with reader := .idle, readerErrors := min (s.cu.readerErrors + 1) 65535 } }) ∧
     (s.cu.reader = .idle → exec (.readerOctetTimeout p) s = .next (beginSending { s with pins := p })) ∧
     (∀ l, s.cu.reader = .arriving l → exec (.readerOctetTimeout p) s = .next (beginSending { s with
       pins := p, cu := { s.cu with reader := .idle, readerErrors := min (s.cu.readerErrors + 1) 65535 } })) ∧
     (s.cu.reader = .idle → exec (.readerPortOctet p o) s = .next (beginSending { s with
       pins := p, cu := { s.cu with reader := if o = 0xA5 then .arriving [] else .idle } })) ∧
     (s.cu.reader = .arriving [] → exec (.readerPortOctet p o) s = .next (beginSending { s with
       pins := p
       cu := if 250 < o.toNat then { s.cu with reader := .idle, readerErrors := min (s.cu.readerErrors + 1) 65535 }
             else { s.cu with reader := .arriving [o] } })) ∧
     (∀ (l : Byte) (t : List Byte), s.cu.reader = .arriving (l :: t) → t.length + 2 < l.toNat + 4 →
       exec (.readerPortOctet p o) s = .next (beginSending { s with
         pins := p, cu := { s.cu with reader := .arriving (l :: t ++ [o]) } })) ∧
     (∀ (l kind high : Byte) (t : List Byte), s.cu.reader = .arriving (l :: kind :: t ++ [high]) → t.length = l.toNat →
       crc16 (l :: kind :: t) ≠ high ++ o → exec (.readerPortOctet p o) s = exec (.readerMessageDiscard p) s) ∧
     (∀ (kind : Byte) (payload front : List Byte), payload.length ≤ 250 →
       frameOctets kind payload = 0xA5 :: front ++ [o] → s.cu.reader = .arriving front →
       (kind ≠ 0x21 → kind ≠ 0x22 → exec (.readerPortOctet p o) s = exec (.readerMessageDiscard p) s) ∧
       (∀ w : BitVec 16, kind = 0x21 → payload = octets2 w.toNat → exec (.readerPortOctet p o) s = exec (.read p w) s) ∧
       (kind = 0x22 → payload = [] → exec (.readerPortOctet p o) s = exec (.noRead p) s) ∧
       (kind = 0x21 ∧ payload.length ≠ 2 ∨ kind = 0x22 ∧ payload ≠ [] →
         exec (.readerPortOctet p o) s = exec (.readerMessageDiscard p) s))) ∧
  (∀ (p : Pins) (s : State) (o : Byte), s.Calm →
     exec (.printerMessageDiscard p) s = .next (beginSending { s with
       pins := p, pp := { s.pp with receive := .idle, errors := min (s.pp.errors + 1) 65535 } }) ∧
     (s.pp.receive = .idle → exec (.printerOctetTimeout p) s = .next (beginSending { s with pins := p })) ∧
     (∀ l, s.pp.receive = .arriving l → exec (.printerOctetTimeout p) s = .next (beginSending { s with
       pins := p, pp := { s.pp with receive := .idle, errors := min (s.pp.errors + 1) 65535 } })) ∧
     (s.pp.receive = .idle → exec (.printerPortOctet p o) s = .next (beginSending { s with
       pins := p, pp := { s.pp with receive := if o = 0xA5 then .arriving [] else .idle } })) ∧
     (s.pp.receive = .arriving [] → exec (.printerPortOctet p o) s = .next (beginSending { s with
       pins := p
       pp := if 250 < o.toNat then { s.pp with receive := .idle, errors := min (s.pp.errors + 1) 65535 }
             else { s.pp with receive := .arriving [o] } })) ∧
     (∀ (l : Byte) (t : List Byte), s.pp.receive = .arriving (l :: t) → t.length + 2 < l.toNat + 4 →
       exec (.printerPortOctet p o) s = .next (beginSending { s with
         pins := p, pp := { s.pp with receive := .arriving (l :: t ++ [o]) } })) ∧
     (∀ (l kind high : Byte) (t : List Byte), s.pp.receive = .arriving (l :: kind :: t ++ [high]) → t.length = l.toNat →
       crc16 (l :: kind :: t) ≠ high ++ o → exec (.printerPortOctet p o) s = exec (.printerMessageDiscard p) s) ∧
     (∀ (kind : Byte) (payload front : List Byte), payload.length ≤ 250 →
       frameOctets kind payload = 0xA5 :: front ++ [o] → s.pp.receive = .arriving front →
       (kind ≠ 0x11 → kind ≠ 0x12 → kind ≠ 0x13 → exec (.printerPortOctet p o) s = exec (.printerMessageDiscard p) s) ∧
       (kind = 0x11 → payload = [] → exec (.printerPortOctet p o) s = exec (.cleared p) s) ∧
       (∀ tag : Tag, kind = 0x12 → payload = [BitVec.ofNat 8 tag.toNat] →
         exec (.printerPortOctet p o) s = exec (.taken p tag) s) ∧
       (∀ tag : Tag, kind = 0x13 → payload = [BitVec.ofNat 8 tag.toNat, 0x00] →
         exec (.printerPortOctet p o) s = exec (.done p tag .ok) s) ∧
       (∀ tag : Tag, kind = 0x13 → payload = [BitVec.ofNat 8 tag.toNat, 0x01] →
         exec (.printerPortOctet p o) s = exec (.done p tag .fail) s) ∧
       (kind = 0x11 ∧ payload ≠ [] ∨ kind = 0x12 ∧ payload.length ≠ 1 ∨ kind = 0x13 ∧ payload.length ≠ 2 →
         exec (.printerPortOctet p o) s = exec (.printerMessageDiscard p) s) ∧
       (∀ tag result : Byte, kind = 0x12 ∧ payload = [tag] ∧ 15 < tag.toNat ∨
           kind = 0x13 ∧ payload = [tag, result] ∧ (15 < tag.toNat ∨ 1 < result.toNat) →
         exec (.printerPortOctet p o) s = exec (.printerMessageDiscard p) s)) ∧
     exec (.printerMessageSent p) s = .next (beginSending { s with
       pins := p, pp := { s.pp with transmit := s.pp.transmit.tail } }))

/-! ## The printer port -/

/-- CLEARED lowers the outstanding count and synchronises the port at 0, and is stray on a synchronised port; TAKEN takes the
SENT job of its tag on a synchronised port, and is stray otherwise. At the boundary a context at the print lead position is
due a job: a SYNCHRONISED port with fewer than 16 jobs makes it with the next tag, its JOB message and the context's print
tag; with 16 it faults the line with PRINT_BACKLOG; an UNSYNCHRONISED port makes none; both of these mark the context SUSPECT.
With no PRINT station, a lead position below 0, or no context there, nothing is done. A message command leaves its port idle
(notes/assumptions/26.md). A context that has a tag already, which a PRINT station write in STOPPED can bring to the lead
position again, is due a job as any other: notes/assumptions/35.md. -/
def Obligations.ClearedAndTakenAnswerThePrinterPort : Prop :=
  (∀ (p : Pins) (s : State), s.Calm →
     exec (.cleared p) s = .next (beginSending { s with
       pins := p
       pp := if s.pp.synchronised then { s.pp with receive := .idle, stray := min (s.pp.stray + 1) 65535 }
             else { s.pp with receive := .idle, clears := s.pp.clears - 1, synchronised := decide (s.pp.clears ≤ 1) } })) ∧
  (∀ (p : Pins) (s : State) (tag : Tag), s.Calm →
     exec (.taken p tag) s = .next (beginSending { s with
       pins := p
       pp := if s.pp.synchronised = true ∧ (∃ j ∈ s.pp.jobs, j.tag = tag ∧ j.taken = false) then
           { s.pp with receive := .idle, jobs := s.pp.jobs.map (fun j => if j.tag = tag then { j with taken := true } else j) }
         else { s.pp with receive := .idle, stray := min (s.pp.stray + 1) 65535 } })) ∧
  (∀ (s : State) (i : StationNo) (lead : Nat) (c : Context), s.firstOf .print = some i →
     (s.station i).printLead ≤ (s.station i).offset → lead = (s.station i).offset - (s.station i).printLead →
     s.contentAt lead = .copy c →
     (s.pp.synchronised = true → s.pp.jobs.length < 16 →
       (dispatchJob s).contentAt lead = .copy { c with tag := some s.pp.nextTag } ∧
       (∀ pos, pos ≠ lead → (dispatchJob s).contentAt pos = s.contentAt pos) ∧
       (dispatchJob s).pp = { s.pp with
         jobs := s.pp.jobs ++
           [{ tag := s.pp.nextTag, lead := lead, dispatch := s.mu.pitch, taken := false, triggered := false }]
         transmit := s.pp.transmit ++
           [.job s.pp.nextTag c.copy.seq (readText c.copy.lineCount (s.au.pool.loadBlocks c.copy.blocks))]
         nextTag := s.pp.nextTag + 1 } ∧
       (dispatchJob s).lc = s.lc) ∧
     (s.pp.synchronised = true → 16 ≤ s.pp.jobs.length →
       (dispatchJob s).contentAt lead = .copy { c with marks := c.marks.add .suspect } ∧ (dispatchJob s).pp = s.pp ∧
       (dispatchJob s).lc.line = .faulted ∧ (dispatchJob s).lc.faults.printBacklog = true) ∧
     (s.pp.synchronised = false →
       (dispatchJob s).contentAt lead = .copy { c with marks := c.marks.add .suspect } ∧ (dispatchJob s).pp = s.pp ∧
       (dispatchJob s).lc = s.lc)) ∧
  (∀ s : State, (s.firstOf .print = none ∨ (∃ i, s.firstOf .print = some i ∧
       ((s.station i).offset < (s.station i).printLead ∨
        (s.contentAt ((s.station i).offset - (s.station i).printLead)).isCopy = false))) →
     dispatchJob s = s)

/-- DONE in order removes the head job, and with FAIL gives PRINT_FAIL to its copy while it is before the gate decision; out
of order it faults the line with PRINT_ORDER and withdraws every job; unsynchronised it is stray. A message command leaves its
port idle (notes/assumptions/26.md). A JOB message of the removed job that is still unsent stays in the transmit queue
(notes/assumptions/29.md). -/
def Obligations.DoneEndsTheHeadJob : Prop :=
  ∀ (p : Pins) (s : State) (tag : Tag) (r : PrintResult), s.Calm →
    ∃ t, exec (.done p tag r) s = .next t ∧ t.pp.receive = .idle ∧
      (s.pp.synchronised = false → t.pp = { s.pp with receive := .idle, stray := min (s.pp.stray + 1) 65535 } ∧
        t.tu = s.tu ∧ t.lc = s.lc) ∧
      (∀ j rest, s.pp.synchronised = true → s.pp.jobs = j :: rest → j.tag = tag → j.triggered = true →
        t.pp = { s.pp with receive := .idle, jobs := rest } ∧ t.lc = s.lc ∧
        (r = .ok → t.tu = s.tu) ∧
        (∀ c pos, r = .fail → pos = j.lead + (s.mu.pitch - j.dispatch).toNat → s.contentAt pos = .copy c →
          c.tag = some tag → (∃ g, s.tu.gate = some g ∧ (pos < g ∨ pos = g ∧ s.gm.decided = false)) →
          t.contentAt pos = .copy { c with marks := c.marks.add .printFail })) ∧
      (s.pp.synchronised = true → (∀ j rest, s.pp.jobs = j :: rest → ¬ (j.tag = tag ∧ j.triggered = true)) →
        t.lc.line = .faulted ∧ t.lc.faults.printOrder = true ∧ t.pp.jobs = [] ∧ t.pp.nextTag = 0 ∧
        t.pp.synchronised = false) ∧
      t.au = s.au ∧ t.bu = s.bu ∧ t.fu.stations = s.fu.stations

/-- A withdrawal leaves no job, no JOB message but one being sent, and no tag on the track or in the make-up queue that named
a job of the list; each context that lost its tag so carries SUSPECT, a ghost keeps its place. A SYNCHRONISED port sends CLEAR
unless 255 are outstanding or one waits unsent (which leaves one outstanding: notes/assumptions/9.md), an UNSYNCHRONISED one
sends none. The PRINT fire point in a firing state triggers the oldest untriggered job if the tag names it and it is TAKEN;
where another job is the oldest, or it is SENT, the line faults with PRINT_SYNC and every job is withdrawn; with no tag it is
DECLINED. Where the fire point is not taken the context gets SUSPECT, and a tag there withdraws every job without a fault. The
head of the transmit queue is the message being sent (notes/assumptions/8.md). -/
def Obligations.WithdrawalGivesUpEveryJob : Prop :=
  (∀ s : State,
     (withdraw s).pp.jobs = [] ∧ (withdraw s).pp.nextTag = 0 ∧ (withdraw s).pp.synchronised = false ∧
     (∀ m ∈ (withdraw s).pp.transmit.tail, m = .clear) ∧
     (∀ pos c, s.contentAt pos = .copy c → (∃ j ∈ s.pp.jobs, c.tag = some j.tag) →
       (withdraw s).contentAt pos = .copy { c with marks := c.marks.add .suspect, tag := none }) ∧
     (∀ pos c, s.contentAt pos = .copy c → (∀ j ∈ s.pp.jobs, c.tag ≠ some j.tag) →
       (withdraw s).contentAt pos = .copy c) ∧
     (∀ pos t, s.contentAt pos = .ghost (some t) → (∃ j ∈ s.pp.jobs, t = j.tag) →
       (withdraw s).contentAt pos = .ghost none) ∧
     (∀ pos g, s.contentAt pos = .ghost g → (∀ j ∈ s.pp.jobs, g ≠ some j.tag) → (withdraw s).contentAt pos = .ghost g) ∧
     (∀ pos, s.contentAt pos = .empty → (withdraw s).contentAt pos = .empty) ∧
     (withdraw s).gm = { s.gm with queue := s.gm.queue.map (fun c => { c with tag := none }) } ∧
     (s.pp.synchronised = false ∨ s.pp.clears = 255 →
       (withdraw s).pp.clears = s.pp.clears ∧
       (withdraw s).pp.transmit = s.pp.transmit.take 1 ++ s.pp.transmit.tail.filter (fun m => decide (m = .clear))) ∧
     (s.pp.synchronised = true → s.pp.clears ≠ 255 → PrinterMessage.clear ∉ s.pp.transmit.tail →
       (withdraw s).pp.clears = s.pp.clears + 1 ∧ (withdraw s).pp.transmit = s.pp.transmit.take 1 ++ [.clear]) ∧
     (s.pp.synchronised = true → s.pp.clears ≠ 255 → PrinterMessage.clear ∈ s.pp.transmit.tail →
       (withdraw s).pp.clears = max s.pp.clears 1 ∧
       (withdraw s).pp.transmit = s.pp.transmit.take 1 ++ s.pp.transmit.tail.filter (fun m => decide (m = .clear))) ∧
     (withdraw s).trackLen = s.trackLen ∧ (withdraw s).mu = s.mu ∧ (withdraw s).fu = s.fu ∧ (withdraw s).au = s.au ∧
     (withdraw s).lc = s.lc ∧ (withdraw s).ll = s.ll ∧ (withdraw s).bu = s.bu) ∧
  (∀ (i : StationNo) (s : State), (s.station i).kind = .print → s.firing = true →
     ((s.contentAt (s.station i).offset).tag = none →
       takeFirePoint i s = setFireWork i (fun w => { w with fired := true, outcome := .declined }) s) ∧
     (∀ t, (s.contentAt (s.station i).offset).tag = some t →
       (∀ j, s.pp.jobs.find? (fun j => !j.triggered) = some j → j.tag = t → j.taken = true →
         (takeFirePoint i s).pp =
           { s.pp with jobs := s.pp.jobs.map (fun k => if k.tag = t then { k with triggered := true } else k) } ∧
         ((takeFirePoint i s).fireWork i).outcome = .fired ∧ ((takeFirePoint i s).fireWork i).pulse = true ∧
         ((takeFirePoint i s).fireWork i).pulseEnd = (s.fireWork i).e + (s.station i).pulseLength ∧
         (takeFirePoint i s).tu = s.tu ∧ (takeFirePoint i s).lc = s.lc) ∧
       ((∃ k ∈ s.pp.jobs, k.tag = t) →
         (∀ j, s.pp.jobs.find? (fun j => !j.triggered) = some j → j.tag = t → j.taken = false) →
         ((takeFirePoint i s).fireWork i).outcome = .fired ∧ ((takeFirePoint i s).fireWork i).pulse = false ∧
         (takeFirePoint i s).lc.line = .faulted ∧ (takeFirePoint i s).lc.faults.printSync = true ∧
         (takeFirePoint i s).pp.jobs = [] ∧ (takeFirePoint i s).pp.synchronised = false ∧
         (∀ c, s.contentAt (s.station i).offset = .copy c →
           (takeFirePoint i s).contentAt (s.station i).offset =
             .copy { c with marks := c.marks.add .suspect, tag := none })))) ∧
  (∀ (i : StationNo) (s : State), (s.station i).kind = .print →
     (s.firing = false →
       takeFirePoint i s = printNotTaken i (setFireWork i (fun w => { w with fired := true, outcome := .skipped }) s)) ∧
     ((s.fireWork i).fired = false → printCloseOut i s = printNotTaken i s) ∧
     (∀ c, s.contentAt (s.station i).offset = .copy c → c.tag = none →
       (printNotTaken i s).contentAt (s.station i).offset = .copy { c with marks := c.marks.add .suspect } ∧
       (printNotTaken i s).pp = s.pp) ∧
     (∀ c t, s.contentAt (s.station i).offset = .copy c → c.tag = some t →
       (printNotTaken i s).contentAt (s.station i).offset =
         .copy { c with marks := c.marks.add .suspect
                        tag := if ∃ j ∈ s.pp.jobs, j.tag = t then none else some t } ∧
       (printNotTaken i s).pp = (withdraw s).pp) ∧
     (∀ t, s.contentAt (s.station i).offset = .ghost (some t) → printNotTaken i s = withdraw s) ∧
     (s.contentAt (s.station i).offset = .empty ∨ s.contentAt (s.station i).offset = .ghost none →
       printNotTaken i s = s) ∧
     (printNotTaken i s).lc = s.lc)

/-! ## The gate and the make-up queue -/

/-- A decision on a context, with no PRINT station, passes it exactly at a fire point in a firing state with DIVERT-ALL clear
and no marks or PASS-ALL set; a pass leaves it on g with its marks, and DIVERT-ALL adds FORCED; every divert empties g. With a
PRINT station the same holds of the context with the print confirmation's mark: a tag whose job still stands at g, and no tag
without SUSPECT, add PRINT_UNCONFIRMED in a firing state and SUSPECT outside; a tag with no such job, and no tag with SUSPECT,
add none. The GATE station's fire point in a firing state takes this decision on g with its pitch and sets the gate-decided
flag: a pass is FIRED with a pulse of the station's length from E, a divert DECLINED with no new pulse. A second GATE fire
point in one pitch takes no decision: the pass stands and no mark, count or record is made; that it is DECLINED with no new
pulse is the model's choice (notes/assumptions/30.md). Outside the firing states it is SKIPPED and takes no decision. An EMPTY
position is decided divert with no further effect. A GHOST is diverted: g is EMPTY, GHOST_DIVERTS counts it, no record is made
and no bundle count changes; taken off last in RUN_OUT it ends in STOPPED. -/
def Obligations.GatePassesOnlyCleanCopies : Prop :=
  (∀ (atFirePoint : Bool) (g : Nat) (pitch : PitchIndex) (s : State) (c : Context),
     s.contentAt g = .copy c → s.firstOf .print = none →
     ((decideGate atFirePoint g pitch s).1 = true ↔
       atFirePoint = true ∧ s.firing = true ∧ s.fu.divertAll = false ∧ (c.marks = MarkSet.empty ∨ s.fu.passAll = true)) ∧
     ((decideGate atFirePoint g pitch s).1 = true → (decideGate atFirePoint g pitch s).2 = setContent g (.copy c) s) ∧
     ((decideGate atFirePoint g pitch s).1 = false → (decideGate atFirePoint g pitch s).2.contentAt g = .empty ∧
       (decideGate atFirePoint g pitch s).2 = divert
         (if atFirePoint = true ∧ s.firing = true ∧ s.fu.divertAll = true then { c with marks := c.marks.add .forced } else c)
         g pitch s)) ∧
  (∀ (atFirePoint : Bool) (g : Nat) (pitch : PitchIndex) (s : State) (c d : Context) (i : StationNo),
     s.contentAt g = .copy c → s.firstOf .print = some i →
     (((∃ j ∈ s.pp.jobs, c.tag = some j.tag ∧ j.lead + (pitch - j.dispatch).toNat = g) ∨
         c.tag = none ∧ c.marks.suspect = false) ∧
         d = { c with marks := c.marks.add (if s.firing = true then .printUnconfirmed else .suspect) } ∨
       ((∃ t, c.tag = some t ∧ ∀ j ∈ s.pp.jobs, j.tag = t → j.lead + (pitch - j.dispatch).toNat ≠ g) ∨
         c.tag = none ∧ c.marks.suspect = true) ∧ d = c) →
     ((decideGate atFirePoint g pitch s).1 = true ↔
       atFirePoint = true ∧ s.firing = true ∧ s.fu.divertAll = false ∧ (d.marks = MarkSet.empty ∨ s.fu.passAll = true)) ∧
     ((decideGate atFirePoint g pitch s).1 = true → (decideGate atFirePoint g pitch s).2 = setContent g (.copy d) s) ∧
     ((decideGate atFirePoint g pitch s).1 = false → (decideGate atFirePoint g pitch s).2.contentAt g = .empty ∧
       (decideGate atFirePoint g pitch s).2 = divert
         (if atFirePoint = true ∧ s.firing = true ∧ s.fu.divertAll = true then { d with marks := d.marks.add .forced } else d)
         g pitch s)) ∧
  (∀ (i : StationNo) (s : State), (s.station i).kind = .gate →
     (s.firing = true → (takeFirePoint i s).gm.decided = true ∧
       (s.gm.decided = true →
         takeFirePoint i s = setFireWork i (fun w => { w with fired := true, outcome := .declined }) s ∧
         (takeFirePoint i s).tu = s.tu ∧ (takeFirePoint i s).gm = s.gm ∧ (takeFirePoint i s).bu = s.bu ∧
         (takeFirePoint i s).ll = s.ll ∧
         (((takeFirePoint i s).fireWork i).pulse = true → (s.fireWork i).pulse = true)) ∧
       ∀ (g : Nat) (v : State), s.gm.decided = false → s.tu.gate = some g →
         v = { setFireWork i (fun w => { w with fired := true }) s with gm := { s.gm with decided := true } } →
         ((decideGate true g s.mu.pitch v).1 = true →
           takeFirePoint i s = setFireWork i (fun w => { w with
             outcome := .fired, pulse := true, pulseEnd := w.e + (s.station i).pulseLength })
             (decideGate true g s.mu.pitch v).2 ∧
           ((takeFirePoint i s).fireWork i).pulseEnd = (s.fireWork i).e + (s.station i).pulseLength) ∧
         ((decideGate true g s.mu.pitch v).1 = false →
           takeFirePoint i s = setFireWork i (fun w => { w with outcome := .declined }) (decideGate true g s.mu.pitch v).2 ∧
           (((takeFirePoint i s).fireWork i).pulse = true → (s.fireWork i).pulse = true))) ∧
     (s.firing = false →
       takeFirePoint i s = setFireWork i (fun w => { w with fired := true, outcome := .skipped }) s)) ∧
  (∀ (atFirePoint : Bool) (g : Nat) (pitch : PitchIndex) (s : State),
     (s.contentAt g = .empty → decideGate atFirePoint g pitch s = (false, s)) ∧
     (∀ t u, s.contentAt g = .ghost t → u = (decideGate atFirePoint g pitch s).2 →
       (decideGate atFirePoint g pitch s).1 = false ∧ u.contentAt g = .empty ∧ u.tu = (setContent g .empty s).tu ∧
       u.gm = { s.gm with ghostDiverts := min (s.gm.ghostDiverts + 1) 65535 } ∧
       u.bu = s.bu ∧ u.au = s.au ∧ u.pp = s.pp ∧ u.ll = s.ll ∧
       u.lc = { s.lc with
         line := if s.lc.line = .runOut ∧ (setContent g .empty s).trackOccupied = false then .stopped else s.lc.line } ∧
       (s.lc.line ≠ .runOut ∨ (setContent g .empty s).trackOccupied = true →
         u.mu = s.mu ∧ u.fu = s.fu ∧ u.cu = s.cu)))

/-- A divert within the retry limit counts the attempt, counts it faulted with a fault mark, puts the context in the make-up
queue in its place with its DIVERTED record, then sweeps for its ordinal, with the SWEPT records behind it, and leaves its
bundle's counts; beyond the limit, or with a fault mark in SHORT mode, it is an exception that counts excepted and enters no
queue. The exception that completes its bundle closes the lowest one, with its BUNDLE-CLOSE record behind the ATTEMPT record,
and leaves a higher one COMPLETE in the table. -/
def Obligations.DivertsGoToMakeUpOrException : Prop :=
  ∀ (c : Context) (g : Nat) (pitch : PitchIndex) (s : State) (b : Bundle) (d : Context),
    s.bundle c.copy.ordinal = some b →
    d = { c with attempts := min (c.attempts + 1) 255
                 faulted := if c.marks.hasFault then c.faulted + 1 else c.faulted } →
    (d.faulted ≤ b.retryLimit → ¬ (b.mode = .short ∧ c.marks.hasFault = true) →
      (divert c g pitch s).bu = s.bu ∧ (divert c g pitch s).au = s.au ∧ d ∈ (divert c g pitch s).gm.queue ∧
      (divert c g pitch s).gm.queue =
        (s.sweptContexts c.copy.ordinal g).foldl (fun q e => insertContext e q) (insertContext d s.gm.queue) ∧
      (divert c g pitch s).ll.upstream = s.ll.upstream ++ [d.record .diverted none pitch] ++
        (s.sweptContexts c.copy.ordinal g).map (fun e => e.record .swept none pitch) ∧
      ((∀ pos, pos < g → (s.contentAt pos).isCopy = false) →
        (divert c g pitch s).gm.queue = insertContext d s.gm.queue ∧
        (divert c g pitch s).ll.upstream = s.ll.upstream ++ [d.record .diverted none pitch])) ∧
    (b.retryLimit < d.faulted ∨ (b.mode = .short ∧ c.marks.hasFault = true) →
      (divert c g pitch s).gm.queue = s.gm.queue ∧
      (∀ pos, pos ≠ g → (s.contentAt pos).isCopy = true → ((divert c g pitch s).contentAt pos).isCopy = true) ∧
      (∃ more, (divert c g pitch s).ll.upstream = s.ll.upstream ++
        [d.record .exception (some (if b.retryLimit < d.faulted then .retryLimit else .shortMode)) pitch] ++ more) ∧
      (divert c g pitch s).au.blocksUsed = releaseBlocks s.au.blocksUsed c.copy.blocks ∧
      (¬ (b.receiving = false ∧ b.complete = false ∧ b.delivered + b.excepted + 1 = b.expected) →
        (divert c g pitch s).bu = { s.bu with table := s.bu.table.map (fun e =>
          if e.ordinal = b.ordinal then { e with excepted := e.excepted + 1 } else e) } ∧
        (divert c g pitch s).ll.upstream = s.ll.upstream ++
          [d.record .exception (some (if b.retryLimit < d.faulted then .retryLimit else .shortMode)) pitch]) ∧
      (∀ rest, b.receiving = false → b.complete = false → b.delivered + b.excepted + 1 = b.expected →
        s.bu.table = b :: rest → (∀ e ∈ rest, e.ordinal ≠ b.ordinal) → (∀ e, rest.head? = some e → e.complete = false) →
        (divert c g pitch s).bu.table = rest ∧
        (divert c g pitch s).ll.upstream = s.ll.upstream ++
          [d.record .exception (some (if b.retryLimit < d.faulted then .retryLimit else .shortMode)) pitch,
           .bundleClose b.number b.expected b.delivered (b.excepted + 1) b.truncated b.digest]) ∧
      (∀ low rest, b.receiving = false → b.complete = false → b.delivered + b.excepted + 1 = b.expected →
        s.bu.table = low :: rest → low.ordinal ≠ b.ordinal → low.complete = false →
        (divert c g pitch s).bu = { s.bu with table := s.bu.table.map (fun e =>
          if e.ordinal = b.ordinal then { e with excepted := e.excepted + 1, complete := true } else e) }))

/-- An insertion keeps the make-up queue in ordinal order and first-in first-out within one ordinal, for ordinals of one
bundle table: it goes behind every entry of its ordinal or below and before every entry above it. Every step keeps the whole
combined order: the ordinals on the track from T − 1 to 0, then in the make-up queue, then in staging in arrival order never
decrease. -/
def Obligations.InsertionKeepsTheQueueInOrder : Prop :=
  (∀ (c : Context) (q : List Context) (base : Word16),
     (∀ d ∈ c :: q, (d.copy.ordinal - base).toNat < 8) →
     q.Pairwise (fun d e => ordinalAbove d.copy.ordinal e.copy.ordinal = false) →
     (insertContext c q).Pairwise (fun d e => ordinalAbove d.copy.ordinal e.copy.ordinal = false) ∧
     (insertContext c q).Perm (c :: q) ∧
     ∃ front back, q = front ++ back ∧ insertContext c q = front ++ c :: back ∧
       (∀ d ∈ front, ordinalAbove d.copy.ordinal c.copy.ordinal = false) ∧
       (∀ d ∈ back, ordinalAbove d.copy.ordinal c.copy.ordinal = true)) ∧
  (∀ s t : State, s.OrderSound → step s = .next t → t.OrderSound)

/-- A sweep for ordinal o turns every context above o on positions 0 to g − 1 into a GHOST with its tag and puts it in the
make-up queue; every other position, and every position from g on, stays; no context is lost or doubled. Position by position
from g − 1 down to 0 each swept context is inserted with one more attempt, and its SWEPT record, with its counts so raised and
its marks, joins the upstream queue. -/
def Obligations.SweepMakesGhosts : Prop :=
  ∀ (o : Word16) (g : Nat) (pitch : PitchIndex) (s : State),
    (∀ pos c, pos < g → s.contentAt pos = .copy c → ordinalAbove c.copy.ordinal o = true →
      (sweep o pitch g s).contentAt pos = .ghost c.tag ∧
      { c with attempts := min (c.attempts + 1) 255 } ∈ (sweep o pitch g s).gm.queue) ∧
    (∀ pos, (g ≤ pos ∨ ∀ c, s.contentAt pos = .copy c → ordinalAbove c.copy.ordinal o = false) →
      (sweep o pitch g s).contentAt pos = s.contentAt pos) ∧
    (∀ c ∈ s.gm.queue, c ∈ (sweep o pitch g s).gm.queue) ∧
    (sweep o pitch g s).trackCopies + (sweep o pitch g s).gm.queue.length = s.trackCopies + s.gm.queue.length ∧
    (sweep o pitch g s).au = s.au ∧ (sweep o pitch g s).bu = s.bu ∧ (sweep o pitch g s).lc = s.lc ∧
    (sweep o pitch g s).mu = s.mu ∧ (sweep o pitch g s).fu = s.fu ∧ (sweep o pitch g s).pp = s.pp ∧
    (sweep o pitch g s).gm = { s.gm with queue := (s.sweptContexts o g).foldl (fun q e => insertContext e q) s.gm.queue } ∧
    (sweep o pitch g s).ll = { s.ll with
      upstream := s.ll.upstream ++ (s.sweptContexts o g).map (fun e => e.record .swept none pitch) }

/-! ## Bundles and stacking -/

/-- The stack event on a detected context delivers it: the position is EMPTY, the bundle's delivered count and digest rise,
and the DELIVERED record carries one more attempt; a bundle this does not complete stays OPEN in the table, and the lowest
bundle completed by it leaves the table with its BUNDLE-CLOSE record and its kick. A context not detected, and one whose stack
event the pitch did not take, with SUSPECT, is a LOST exception that counts excepted. The STACK fire point in a firing state
takes the stack event and then one kick, the oldest, if the line still fires and the pitch has taken none, with its pulses. The
kicks join their list without a bound (notes/assumptions/33.md); that a second STACK fire point in one pitch takes no second
kick is the model's reading (notes/assumptions/38.md). -/
def Obligations.StackEventDelivers : Prop :=
  (∀ (i : StationNo) (s : State) (c : Context) (b : Bundle), s.contentAt (s.trackLen - 1) = .copy c →
     s.stackDetected i = true → s.BundlesSound → s.bundle c.copy.ordinal = some b →
     b.delivered + b.excepted + 1 ≠ b.expected →
     (stackEvent i s).contentAt (s.trackLen - 1) = .empty ∧
     { b with delivered := b.delivered + 1, digest := b.digest + c.copy.seq.setWidth 16 } ∈ (stackEvent i s).bu.table ∧
     (stackEvent i s).bu.kicks = s.bu.kicks ∧
     (stackEvent i s).ll.upstream = s.ll.upstream ++
       [({ c with attempts := min (c.attempts + 1) 255 } : Context).record .delivered none s.mu.pitch] ∧
     (stackEvent i s).au.blocksUsed = releaseBlocks s.au.blocksUsed c.copy.blocks ∧
     (stackEvent i s).gm = s.gm ∧ (stackEvent i s).pp = s.pp) ∧
  (∀ (i : StationNo) (s : State) (c : Context) (b : Bundle), s.contentAt (s.trackLen - 1) = .copy c →
     s.BundlesSound → s.bundle c.copy.ordinal = some b → b.delivered + b.excepted + 1 ≠ b.expected →
     (s.stackDetected i = false →
       (stackEvent i s).contentAt (s.trackLen - 1) = .empty ∧
       { b with excepted := b.excepted + 1 } ∈ (stackEvent i s).bu.table ∧ (stackEvent i s).bu.kicks = s.bu.kicks ∧
       (stackEvent i s).ll.upstream = s.ll.upstream ++
         [({ c with attempts := min (c.attempts + 1) 255 } : Context).record .exception (some .lost) s.mu.pitch] ∧
       (stackEvent i s).au.blocksUsed = releaseBlocks s.au.blocksUsed c.copy.blocks ∧
       (stackEvent i s).gm = s.gm ∧ (stackEvent i s).pp = s.pp) ∧
     (∀ ended : PitchIndex,
       (stackCloseOut ended s).contentAt (s.trackLen - 1) = .empty ∧
       { b with excepted := b.excepted + 1 } ∈ (stackCloseOut ended s).bu.table ∧
       (stackCloseOut ended s).ll.upstream = s.ll.upstream ++
         [({ c with attempts := min (c.attempts + 1) 255, marks := c.marks.add .suspect } : Context).record
           .exception (some .lost) ended] ∧
       (stackCloseOut ended s).au.blocksUsed = releaseBlocks s.au.blocksUsed c.copy.blocks ∧
       (stackCloseOut ended s).gm = s.gm ∧ (stackCloseOut ended s).pp = s.pp)) ∧
  (∀ (i : StationNo) (s : State) (c : Context) (b : Bundle) (rest : List Bundle), s.contentAt (s.trackLen - 1) = .copy c →
     s.stackDetected i = true → s.BundlesSound → s.bundle c.copy.ordinal = some b → s.bu.table = b :: rest →
     b.receiving = false → b.complete = false → b.delivered + b.excepted + 1 = b.expected →
     (∀ e, rest.head? = some e → e.complete = false) →
     (stackEvent i s).bu.table = rest ∧ (stackEvent i s).bu.kicks = s.bu.kicks ++ [b.trayBreak] ∧
     (stackEvent i s).bu.receiving = (if s.bu.receiving = some b.ordinal then none else s.bu.receiving) ∧
     (stackEvent i s).ll.upstream = s.ll.upstream ++
       [({ c with attempts := min (c.attempts + 1) 255 } : Context).record .delivered none s.mu.pitch,
        .bundleClose b.number b.expected (b.delivered + 1) b.excepted b.truncated
          (b.digest + c.copy.seq.setWidth 16)]) ∧
  (∀ (i : StationNo) (s : State),
     ((s.station i).kind = .stack → s.firing = true → takeFirePoint i s =
       takeKick i (stackEvent i (setFireWork i (fun w => { w with fired := true, outcome := .fired }) s))) ∧
     ((s.contentAt (s.trackLen - 1)).isCopy = false → stackEvent i s = s) ∧
     (s.bu.kicks = [] ∨ s.firing = false ∨ s.fu.kickTaken = true → takeKick i s = s) ∧
     (∀ tray more, s.firing = true → s.fu.kickTaken = false → s.bu.kicks = tray :: more → takeKick i s = { s with
       bu := { s.bu with kicks := more }
       fu := { s.fu with
         bundleKick := true, trayKick := tray, kickEnd := (s.fireWork i).e + (s.station i).pulseLength
         kickTaken := true } }))

/-- A close takes the COMPLETE bundles from the lowest up, stops at the first OPEN one, reports each, and orders a kick for
each that delivered a copy. Kicks are taken in the order the bundles closed, one per pitch, whatever the commands: no command
but POWER_ON_RESET, which empties the list, takes more than the oldest kick off the list, a command that takes it records so
for the pitch, and while the pitch's kick is taken no command that stays in the pitch takes another or loses that record. The
kicks join their list without a bound (notes/assumptions/33.md); the record is the model's own field, and that a second STACK
fire point in one pitch takes no second kick is the model's reading (notes/assumptions/38.md). -/
def Obligations.BundlesCloseInOrder : Prop :=
  (∀ (s : State) (done rest : List Bundle), s.bu.table = done ++ rest → (∀ b ∈ done, b.complete = true) →
    (∀ b, rest.head? = some b → b.complete = false) →
    (closeBundles s).bu.table = rest ∧
    (closeBundles s).ll.upstream = s.ll.upstream ++
      done.map (fun b => Record.bundleClose b.number b.expected b.delivered b.excepted b.truncated b.digest) ∧
    (closeBundles s).bu.kicks = s.bu.kicks ++ (done.filter (fun b => decide (0 < b.delivered))).map Bundle.trayBreak ∧
    (closeBundles s).bu.nextOrdinal = s.bu.nextOrdinal ∧
    (closeBundles s).au = s.au ∧ (closeBundles s).tu = s.tu ∧ (closeBundles s).lc = s.lc) ∧
  (∀ (c : Instr) (s t : State), exec c s = .next t → (∀ p a b, c ≠ .powerOnReset p a b) →
    ((∃ more, t.bu.kicks = s.bu.kicks ++ more) ∨
      t.fu.kickTaken = true ∧ ∃ tray more, s.bu.kicks ++ more = tray :: t.bu.kicks) ∧
    (s.fu.kickTaken = true → t.mu.pitch = s.mu.pitch →
      t.fu.kickTaken = true ∧ ∃ more, t.bu.kicks = s.bu.kicks ++ more))

/-! ## Line control -/

/-- HOLD, RESUME and SET_OVERRIDE are taken in every line state. HOLD adds COMMAND; joining an empty set it takes RUNNING to
HOLDING with HOLD_ENTERED, its record if its kind is ENABLED. RESUME removes COMMAND, STATION_LIMIT and CALIPER_DRIFT and
leaves LINK_BACKLOG, with which a HOLDING line stays HOLDING; emptying the set in HOLDING it returns the line to RUNNING with
HOLD_LEFT, its record likewise. SET_OVERRIDE writes both flags, and refuses a code beyond 01h with its field's number; that
it names the first field where both codes are bad is the model's choice (notes/assumptions/37.md). A record that comes inside a
half-received frame is taken as the model chose in notes/assumptions/3.md. -/
def Obligations.CommandsTakenInEveryLineState : Prop :=
  (∀ (p : Pins) (ref : Byte) (s : State), s.Steady →
     ∃ u, exec (.hold p ref []) s = .next (answered 0x05 [ref, 0x02] (.ok (lineCode u.lc.line) []) u) ∧
       u.lc = { s.lc with
         holds := { s.lc.holds with command := true }
         line := if s.lc.line = .running ∧ s.lc.holds = HoldSet.empty then .holding else s.lc.line } ∧
       (s.lc.line = .running → s.lc.holds = HoldSet.empty → u.ll.flags.getLsbD 1 = true ∧
         (s.ll.mask.getLsbD 1 = true →
           u.ll.upstream = s.ll.upstream ++ [.notice (.holdEntered u.lc.holds) s.mu.pitch])) ∧
       (s.lc.line ≠ .running ∨ s.lc.holds ≠ HoldSet.empty → u.ll = s.ll) ∧
       u.mu = s.mu ∧ u.fu = s.fu ∧ u.au = s.au ∧ u.tu = s.tu ∧ u.cu = s.cu ∧ u.pp = s.pp ∧ u.gm = s.gm ∧ u.bu = s.bu) ∧
  (∀ (p : Pins) (ref : Byte) (s : State), s.Steady →
     ∃ u, exec (.resume p ref []) s = .next (answered 0x05 [ref, 0x03] (.ok (lineCode u.lc.line) [holdOctet u.lc.holds]) u) ∧
       u.lc = { s.lc with
         holds := { s.lc.holds with command := false, stationLimit := false, caliperDrift := false }
         line := if s.lc.line = .holding ∧ s.lc.holds ≠ HoldSet.empty ∧ s.lc.holds.linkBacklog = false then .running
           else s.lc.line } ∧
       (s.lc.line = .holding → s.lc.holds ≠ HoldSet.empty → s.lc.holds.linkBacklog = false → u.ll.flags.getLsbD 2 = true ∧
         (s.ll.mask.getLsbD 2 = true → u.ll.upstream = s.ll.upstream ++ [.notice .holdLeft s.mu.pitch])) ∧
       (s.lc.line ≠ .holding ∨ s.lc.holds = HoldSet.empty ∨ s.lc.holds.linkBacklog = true → u.ll = s.ll) ∧
       u.mu = s.mu ∧ u.fu = s.fu ∧ u.au = s.au ∧ u.tu = s.tu ∧ u.cu = s.cu ∧ u.pp = s.pp ∧ u.gm = s.gm ∧ u.bu = s.bu) ∧
  (∀ (p : Pins) (ref : Byte) (s : State), s.Steady →
     (∀ d a : Bool, exec (.setOverride p ref [boolOctet d, boolOctet a]) s =
       .next (answered 0x05 [ref, 0x07, boolOctet d, boolOctet a] (.ok (lineCode s.lc.line) [])
         { s with pins := p, fu := { s.fu with divertAll := d, passAll := a } })) ∧
     (∀ x y : Byte, 1 < x.toNat ∨ 1 < y.toNat → exec (.setOverride p ref [x, y]) s =
       .next (answered 0x05 [ref, 0x07, x, y] (.refusal .range (if 1 < x.toNat then 2 else 3)) { s with pins := p })))

/-- RUN_OUT in RUNNING or HOLDING enters RUN_OUT while the track holds a context or ghost and ends in STOPPED otherwise;
STOP_NOW in a firing state makes the line STOPPED: every pulse ends, the simulated source stops and measurements in progress
are abandoned, with SUSPECT on the copy at the station; elsewhere each is refused with STATE, NOT_RUNNING. A record that comes
inside a half-received frame is taken as the model chose in notes/assumptions/3.md. -/
def Obligations.CommandsThatEndFiring : Prop :=
  (∀ (p : Pins) (ref : Byte) (s : State), s.Steady →
     (s.lc.line = .running ∨ s.lc.line = .holding → s.trackOccupied = true → exec (.runOut p ref []) s =
       .next (answered 0x05 [ref, 0x04] (.ok 0x03 []) { s with pins := p, lc := { s.lc with line := .runOut } })) ∧
     (s.lc.line = .running ∨ s.lc.line = .holding → s.trackOccupied = false →
       ∃ u, exec (.runOut p ref []) s = .next (answered 0x05 [ref, 0x04] (.ok 0x00 []) u) ∧
         u.lc = { s.lc with line := .stopped } ∧ (∀ i, (u.fireWork i).pulse = false) ∧ u.mu.sim = .stopped ∧ u.ll = s.ll) ∧
     (¬ (s.lc.line = .running ∨ s.lc.line = .holding) → exec (.runOut p ref []) s =
       .next (answered 0x05 [ref, 0x04] (.refusal .state 0x02) { s with pins := p }))) ∧
  (∀ (p : Pins) (ref : Byte) (s : State), s.Steady →
     (s.firing = true →
       ∃ u, exec (.stopNow p ref []) s = .next (answered 0x05 [ref, 0x05] (.ok 0x00 []) u) ∧
         u.lc = { s.lc with line := .stopped } ∧ (∀ i, (u.fireWork i).pulse = false) ∧ u.fu.bundleKick = false ∧
         u.fu.trayKick = false ∧ u.mu = { s.mu with sim := .stopped } ∧
         (∀ i, (s.station i).kind = .caliper → (s.checkWork i).measure = .measuring → (u.checkWork i).measure = .notTaken ∧
           ∀ c, s.contentAt (s.station i).offset = .copy c →
             u.contentAt (s.station i).offset = .copy { c with marks := c.marks.add .suspect }) ∧
         (∀ i, (s.station i).kind ≠ .caliper ∨ (s.checkWork i).measure ≠ .measuring → u.checkWork i = s.checkWork i) ∧
         (∀ pos, (∀ i, (s.station i).kind = .caliper → (s.checkWork i).measure = .measuring → (s.station i).offset ≠ pos) →
           u.contentAt pos = s.contentAt pos) ∧
         u.trackLen = s.trackLen ∧ (∀ pos, (u.contentAt pos).occupied = (s.contentAt pos).occupied) ∧
         u.au = s.au ∧ u.pp = s.pp ∧ u.gm = s.gm ∧ u.bu = s.bu ∧ u.ll = s.ll) ∧
     (s.firing = false → exec (.stopNow p ref []) s =
       .next (answered 0x05 [ref, 0x05] (.refusal .state 0x02) { s with pins := p })))

/-- START in STOPPED with the configuration and the geometry in order latches T and g, enters RUNNING with no hold cause and
HOLDING, with HOLD_ENTERED and its record if its kind is ENABLED, with any, starts a simulated source, and answers and clears
the displaced flag (coded 01h set, 00h clear: the model's reading, notes/assumptions/23.md); a configuration that fails is
refused with CONFIG, a geometry with STATE, TRACK_GEOMETRY, and any other line state with STATE, NOT_STOPPED. A record that
comes inside a half-received frame is taken as the model chose in notes/assumptions/3.md. -/
def Obligations.StartLeavesStopped : Prop :=
  ∀ (p : Pins) (ref : Byte) (s : State), s.Steady →
    (s.lc.line = .stopped → configRefusal s = none → s.geometryFits = true →
      ∃ u, exec (.start p ref []) s =
          .next (answered 0x05 [ref, 0x01] (.ok (lineCode u.lc.line) [boolOctet s.lc.displaced]) u) ∧
        u.lc = { s.lc with
          line := if s.lc.holds = HoldSet.empty then .running else .holding
          displaced := false } ∧
        (s.lc.holds = HoldSet.empty → u.ll = s.ll) ∧
        (s.lc.holds ≠ HoldSet.empty → u.ll.flags.getLsbD 1 = true ∧
          (s.ll.mask.getLsbD 1 = true →
            u.ll.upstream = s.ll.upstream ++ [.notice (.holdEntered s.lc.holds) s.mu.pitch])) ∧
        u.tu.gate = some (s.offsetOf .gate) ∧ u.trackLen = s.offsetOf .stack + 1 ∧
        (∀ pos, u.contentAt pos = s.contentAt pos) ∧
        u.mu = { s.mu with sim := if s.mu.profile.source = .simulated then .generating s.mu.profile.rate 0 else s.mu.sim } ∧
        u.fu = s.fu ∧ u.au = s.au ∧ u.cu = s.cu ∧ u.pp = s.pp ∧ u.gm = s.gm ∧ u.bu = s.bu) ∧
    (s.lc.line = .stopped → ∀ a, configRefusal s = some a →
      exec (.start p ref []) s = .next (answered 0x05 [ref, 0x01] a { s with pins := p })) ∧
    (s.lc.line = .stopped → configRefusal s = none → s.geometryFits = false →
      exec (.start p ref []) s = .next (answered 0x05 [ref, 0x01] (.refusal .state 0x04) { s with pins := p })) ∧
    (s.lc.line ≠ .stopped →
      exec (.start p ref []) s = .next (answered 0x05 [ref, 0x01] (.refusal .state 0x01) { s with pins := p }))

/-- An accepted configuration has exactly one FEED at offset 0, one GATE and one STACK beyond it, every other station in use
before the gate, and every fire phase and window end within the pitch. A refused one is refused with CONFIG, the first reason
of the table of section 2.2 that fails and the lowest-numbered station that breaks it, or none; one that fails no reason is
accepted (CURVE is judged for the kinds with a fire point alone: notes/assumptions/17.md). -/
def Obligations.AcceptedConfigurationsAreSound : Prop :=
  (∀ s : State, configRefusal s = none →
     (∃ f g k : StationNo, (∀ i, (s.station i).kind = .feed ↔ i = f) ∧ (∀ i, (s.station i).kind = .gate ↔ i = g) ∧
       (∀ i, (s.station i).kind = .stack ↔ i = k) ∧ (s.station f).offset = 0 ∧
       (s.station g).offset < (s.station k).offset ∧
       (∀ i, (s.station i).kind ≠ .none → i ≠ g → i ≠ k → (s.station i).offset < (s.station g).offset)) ∧
     (∀ i, (s.station i).kind ≠ .none →
       (s.station i).phi ≤ s.mu.profile.p - 1 ∧ (s.station i).windowEnd ≤ s.mu.profile.p - 1) ∧
     (∀ i j, (s.station i).kind = .insert → (s.station j).kind = .insert →
       (s.station i).feeder = (s.station j).feeder → i = j) ∧
     ((∃ i, (s.station i).kind = .print) → s.pp.synchronised = true)) ∧
  (∀ (s : State) (n : Nat), 1 ≤ n → n ≤ 17 → (∀ m, 1 ≤ m → m < n → ¬ s.configFails m) → s.configFails n →
     (∀ i, s.breaks n i → (∀ j, j < i → ¬ s.breaks n j) →
       configRefusal s = some { status := .config, detail := BitVec.ofNat 8 n, data := [BitVec.ofNat 8 i.val] }) ∧
     ((∀ i, ¬ s.breaks n i) →
       configRefusal s = some { status := .config, detail := BitVec.ofNat 8 n, data := [0xFF] })) ∧
  (∀ s : State, (∀ n, 1 ≤ n → n ≤ 17 → ¬ s.configFails n) → configRefusal s = none)

/-- CLEAR_FAULT in FAULTED with ESTOP and the jam inputs inactive stops the line, marks every context on the track SUSPECT,
empties the causes and arms the locator; otherwise it is refused with STATE and its reason. A record that comes inside a
half-received frame is taken as the model chose in notes/assumptions/3.md. -/
def Obligations.ClearFaultEndsTheEpisode : Prop :=
  ∀ (p : Pins) (ref : Byte) (s : State), s.Calm →
    (s.lc.line = .faulted → p.estop = false → (setPins p s).jamInputActive = false →
      ∃ u, exec (.clearFault p ref []) s =
          .next (answered 0x05 [ref, 0x06] (.ok 0x00 [faultOctet s.lc.faults, BitVec.ofNat 8 s.lc.further]) u) ∧
        u.lc = { s.lc with line := .stopped, faults := FaultSet.empty, further := 0, armed := true } ∧
        u.trackLen = s.trackLen ∧
        (∀ pos c, s.contentAt pos = .copy c → u.contentAt pos = .copy { c with marks := c.marks.add .suspect }) ∧
        (∀ pos, (s.contentAt pos).isCopy = false → u.contentAt pos = s.contentAt pos) ∧
        u.mu = s.mu ∧ u.fu = s.fu ∧ u.au = s.au ∧ u.cu = s.cu ∧ u.pp = s.pp ∧ u.gm = s.gm ∧ u.bu = s.bu ∧ u.ll = s.ll) ∧
    (s.lc.line ≠ .faulted → exec (.clearFault p ref []) s =
      .next (answered 0x05 [ref, 0x06] (.refusal .state 0x03) { s with pins := p })) ∧
    (s.lc.line = .faulted → p.estop = true → exec (.clearFault p ref []) s =
      .next (answered 0x05 [ref, 0x06] (.refusal .state 0x05) { s with pins := p })) ∧
    (s.lc.line = .faulted → p.estop = false → (setPins p s).jamInputActive = true → exec (.clearFault p ref []) s =
      .next (answered 0x05 [ref, 0x06] (.refusal .state 0x06) { s with pins := p }))

/-- RUN_RESET in STOPPED empties staging, the track, the make-up queue, the bundle table and the job list, sets the counters
to 0, the Check Unit's consecutive-fault and drift counters among them, and keeps the tables, T, g, the kicks, the Check
Unit's per-pitch state and the upstream queue; an entry in RECEIVING stays, alone in the arrival order; the printer port drops
its unsent JOB messages and sends CLEAR, unless 255 are outstanding or one waits unsent (which leaves one outstanding:
notes/assumptions/9.md); elsewhere it is refused with STATE, NOT_STOPPED. A record that comes inside a half-received frame is
taken as the model chose in notes/assumptions/3.md. The head of the transmit queue is the message being sent
(notes/assumptions/8.md). -/
def Obligations.RunResetClearsTheJob : Prop :=
  ∀ (p : Pins) (ref : Byte) (s : State), s.Calm →
    (s.lc.line = .stopped →
      ∃ u, exec (.runReset p ref []) s = .next (answered 0x05 [ref, 0x08]
          (.ok 0x00 [BitVec.ofNat 8 (s.stagingFill + s.trackCopies + s.gm.queue.length), BitVec.ofNat 8 s.bu.table.length]) u) ∧
        u.mu = { s.mu with acc := 0, motionErrors := 0, reverseAbsorbed := 0 } ∧
        u.fu.stations = s.fu.stations ∧ u.fu.curves = s.fu.curves ∧ u.fu.outputs = s.fu.outputs ∧
        u.fu.latchedSpeed = s.fu.latchedSpeed ∧ u.fu.divertAll = s.fu.divertAll ∧ u.fu.passAll = s.fu.passAll ∧
        (∀ i, (u.fireWork i).e = (s.fireWork i).e ∧ (u.fireWork i).fired = (s.fireWork i).fired ∧
          (u.fireWork i).outcome = (s.fireWork i).outcome) ∧
        (∀ j : Fin 16, u.au.staging[j] = if s.au.staging[j] = .receiving then .receiving else .free) ∧
        u.au.order = s.au.order.filter (fun j => decide (s.au.staging[j] = .receiving)) ∧
        (s.receivingEntry = none → u.au.order = []) ∧
        (∀ i : Fin 16, s.StagingSound → (∀ j : Fin 16, s.au.staging[j] = .receiving ↔ j = i) → u.au.order = [i]) ∧
        u.cu.reader = s.cu.reader ∧
        (∀ i, u.checkWork i = { s.checkWork i with faultRun := 0, drift := 0 }) ∧
        u.au.resolver = none ∧ u.au.blocksUsed = 0 ∧ u.au.lastSeq = none ∧ u.au.plans = s.au.plans ∧
        u.trackLen = s.trackLen ∧ u.tu.gate = s.tu.gate ∧ (∀ pos, u.contentAt pos = .empty) ∧ u.tu.starved = 0 ∧
        u.tu.starvedRun = false ∧
        u.gm = { s.gm with queue := [], ghostDiverts := 0 } ∧
        u.bu = { s.bu with table := [], nextOrdinal := 0, receiving := none } ∧
        u.pp.jobs = [] ∧ u.pp.nextTag = 0 ∧ u.pp.synchronised = false ∧ u.pp.receive = s.pp.receive ∧
        (s.pp.clears ≠ 255 → PrinterMessage.clear ∉ s.pp.transmit.tail →
          u.pp.clears = s.pp.clears + 1 ∧ u.pp.transmit = s.pp.transmit.take 1 ++ [.clear]) ∧
        (s.pp.clears = 255 ∨ PrinterMessage.clear ∈ s.pp.transmit.tail →
          u.pp.clears = max s.pp.clears 1 ∧
          u.pp.transmit = s.pp.transmit.take 1 ++ s.pp.transmit.tail.filter (fun m => decide (m = .clear))) ∧
        u.lc = { s.lc with
          holds := { s.lc.holds with command := false, stationLimit := false, caliperDrift := false }
          faults := FaultSet.empty, locator := none, armed := true, further := 0, displaced := false } ∧
        u.ll.upstream = s.ll.upstream ∧ u.ll.flags = s.ll.flags ∧ u.ll.mask = s.ll.mask ∧
        u.ll.writeEnable = s.ll.writeEnable ∧ u.ll.lock = s.ll.lock ∧ u.ll.receive = s.ll.receive ∧
        (∀ n ∈ u.counters, n = 0)) ∧
    (s.lc.line ≠ .stopped → exec (.runReset p ref []) s =
      .next (answered 0x05 [ref, 0x08] (.refusal .state 0x01) { s with pins := p }))

/-- ESTOP becoming active takes the line to FAULTED: outside FAULTED it begins an episode, ends every pulse and writes the
armed locator; in FAULTED it adds its cause and one further fault; either raises FAULT. -/
def Obligations.EstopFaultsTheLine : Prop :=
  ∀ (p : Pins) (s : State), s.Calm →
    ∃ t, exec (.estopActive p) s = .next t ∧ t.pins.estop = true ∧ t.ll.flags.getLsbD 0 = true ∧
      (s.lc.line ≠ .faulted →
        t.lc = { s.lc with
          line := .faulted, faults := FaultSet.empty.add .estop, further := 0, armed := false
          locator := if s.lc.armed then some { cause := .estop, station := none, pitch := s.mu.pitch, seq := none }
            else s.lc.locator } ∧
        (s.firing = true → (∀ i, (t.fireWork i).pulse = false) ∧ t.fu.bundleKick = false ∧ t.fu.trayKick = false ∧
          t.mu.sim = .stopped) ∧
        (s.ll.mask.getLsbD 0 = true → t.ll.upstream = s.ll.upstream ++ [.notice (.fault .estop none none 0) s.mu.pitch])) ∧
      (s.lc.line = .faulted →
        t.lc = { s.lc with faults := s.lc.faults.add .estop, further := min (s.lc.further + 1) 255 } ∧ t.fu = s.fu ∧
        t.tu = s.tu ∧ t.mu = s.mu) ∧
      t.au = s.au ∧ t.bu = s.bu ∧ t.gm = s.gm ∧ t.pp = s.pp ∧ t.trackLen = s.trackLen

/-! ## The line link -/

/-- The receive state takes an octet by the table of R173, up to the last CRC octet; the kind octet of a COPY reserves the
lowest FREE entry, and none where none is FREE. An emptied buffer holds zeros (notes/assumptions/24.md). -/
def Obligations.LinkOctetsAdvanceTheReceiveState : Prop :=
  ∀ (p : Pins) (o : Byte) (s : State), s.inReset = false → s.ll.upstream.length ≤ 32 → s.lc.holds.linkBacklog = false →
    (s.ll.receive = .search → exec (.linkOctet p o) s = .next (beginSending (if o = 0xA5 then
      { s with pins := p, ll := { s.ll with
        receive := .length, buffer := { length := 0, kind := 0, payload := [], crcHigh := 0, crcLow := 0 } } }
      else { s with pins := p }))) ∧
    (s.ll.receive = .length → exec (.linkOctet p o) s = .next (beginSending { s with
      pins := p
      ll := if 1 ≤ o.toNat ∧ o.toNat ≤ 250 then { s.ll with receive := .kind, buffer := { s.ll.buffer with length := o } }
            else { s.ll with receive := .search, lengthErrors := min (s.ll.lengthErrors + 1) 65535 } })) ∧
    (s.ll.receive = .kind → o ≠ 0x01 → exec (.linkOctet p o) s = .next (beginSending { s with
      pins := p, ll := { s.ll with receive := .payload, buffer := { s.ll.buffer with kind := o } } })) ∧
    (∀ i : Fin 16, s.ll.receive = .kind → o = 0x01 → s.freeStaging = some i →
      exec (.linkOctet p o) s = .next (beginSending { s with
        pins := p
        au := { s.au with staging := s.au.staging.set i.val .receiving, order := s.au.order ++ [i] }
        ll := { s.ll with receive := .payload, buffer := { s.ll.buffer with kind := o } } })) ∧
    (s.ll.receive = .kind → o = 0x01 → s.freeStaging = none → exec (.linkOctet p o) s = .next (beginSending { s with
      pins := p, ll := { s.ll with receive := .payload, buffer := { s.ll.buffer with kind := o } } })) ∧
    (s.ll.receive = .payload → exec (.linkOctet p o) s = .next (beginSending { s with
      pins := p
      ll := { s.ll with
        receive := if s.ll.buffer.payload.length + 1 < s.ll.buffer.length.toNat then .payload else .crcHigh
        buffer := { s.ll.buffer with payload := s.ll.buffer.payload ++ [o] } } })) ∧
    (s.ll.receive = .crcHigh → exec (.linkOctet p o) s = .next (beginSending { s with
      pins := p, ll := { s.ll with receive := .crcLow, buffer := { s.ll.buffer with crcHigh := o } } }))

/-- A whole frame whose CRC differs is discarded with CRC_ERRORS and CRC_DISCARD and gets no reply; more than 5 ms inside a
frame discards it with FRAME_TIMEOUTS; the RECEIVING entry of a COPY frame returns to FREE and leaves the arrival order, and a
frame of no COPY leaves staging as it is; in SEARCH the timer does not run. -/
def Obligations.BadFramesAreDiscarded : Prop :=
  ∀ (p : Pins) (o : Byte) (s : State), s.Calm →
    (s.ll.receive = .crcLow → s.ll.buffer.crc ≠ s.ll.buffer.crcHigh ++ o → s.ll.buffer.kind ≠ 0x01 →
      ∃ t, exec (.linkOctet p o) s = .next t ∧ t.ll.receive = .search ∧
        t.ll.crcErrors = min (s.ll.crcErrors + 1) 65535 ∧ t.ll.flags.getLsbD 7 = true ∧
        t.ll.upstream = (if s.ll.mask.getLsbD 7 then s.ll.upstream ++
          [.notice (.crcDiscard s.ll.buffer.length s.ll.buffer.kind) s.mu.pitch] else s.ll.upstream) ∧
        t.au = s.au ∧ t.bu = s.bu ∧ t.lc = s.lc ∧ t.mu = s.mu ∧ t.fu = s.fu) ∧
    (s.ll.receive = .crcLow → s.ll.buffer.crc ≠ s.ll.buffer.crcHigh ++ o → s.ll.buffer.kind = 0x01 →
      ∃ t, exec (.linkOctet p o) s = .next t ∧ t.ll.receive = .search ∧
        t.ll.crcErrors = min (s.ll.crcErrors + 1) 65535 ∧ t.ll.flags.getLsbD 7 = true ∧
        t.ll.upstream = (if s.ll.mask.getLsbD 7 then s.ll.upstream ++
          [.notice (.crcDiscard s.ll.buffer.length s.ll.buffer.kind) s.mu.pitch] else s.ll.upstream) ∧
        (∀ i : Fin 16, s.receivingEntry = some i →
          t.au = { s.au with staging := s.au.staging.set i.val .free
                             order := s.au.order.filter (fun j => decide (j ≠ i)) }) ∧
        (s.receivingEntry = none → t.au = s.au) ∧
        t.bu = s.bu ∧ t.lc = s.lc ∧ t.mu = s.mu ∧ t.fu = s.fu) ∧
    (s.ll.receive ≠ .search → s.ll.buffer.kind ≠ 0x01 → exec (.frameTimeout p) s = .next (beginSending { s with
      pins := p, ll := { s.ll with receive := .search, frameTimeouts := min (s.ll.frameTimeouts + 1) 65535 } })) ∧
    (∀ i : Fin 16, s.ll.receive ≠ .search → s.ll.buffer.kind = 0x01 → s.receivingEntry = some i →
      ∃ t, exec (.frameTimeout p) s = .next t ∧ t.ll.receive = .search ∧ t.au.staging[i] = .free ∧ i ∉ t.au.order ∧
        t.ll.frameTimeouts = min (s.ll.frameTimeouts + 1) 65535 ∧ t.ll.upstream = s.ll.upstream) ∧
    (s.ll.receive = .search → exec (.frameTimeout p) s = .next (beginSending { s with pins := p }))

/-- A frame is held while the queue has fewer than 80 free places; octets that come then are counted and lost, and it is taken
at the event at which room returns (notes/assumptions/4.md). A record leaves the queue when its frame has been sent; LRDY_IN
becoming active begins the head record. At 96 records LINK_BACKLOG joins the hold-cause set, and joining an empty set takes
RUNNING to HOLDING with HOLD_ENTERED; at 32 it leaves, and leaving it empty takes HOLDING to RUNNING with HOLD_LEFT; so at the
event of a STATUS-READ whose reply is the 96th record and of the sent frame that leaves 32. A notice sets its flag, and its
record is placed if its kind is ENABLED and 80 places are free; ENABLED without them it is counted in NOTICES_DROPPED. Outside
reset LRDY_OUT is active exactly while a staging entry is FREE, fewer than 8 bundles are in the table and 80 places are free.
That LRDY_OUT is a function of the state: notes/assumptions/25.md. A record that comes inside a half-received frame is taken
as the model chose in notes/assumptions/3.md. -/
def Obligations.FramesWaitForRoomAndRecordsAreSent : Prop :=
  (∀ (p : Pins) (o : Byte) (s : State), s.inReset = false →
     (s.ll.receive = .crcLow → s.ll.buffer.crc = s.ll.buffer.crcHigh ++ o → s.hasRoom = false →
       ∃ t, exec (.linkOctet p o) s = .next t ∧ t.ll.receive = .held ∧ t.au = s.au ∧ t.bu = s.bu ∧
         t.ll.buffer = { s.ll.buffer with crcLow := o }) ∧
     (s.ll.receive = .held → s.hasRoom = false →
       ∃ t, exec (.linkOctet p o) s = .next t ∧ t.ll.receive = .held ∧ t.ll.buffer = s.ll.buffer ∧ t.au = s.au ∧
         t.ll.receiveOverruns = min (s.ll.receiveOverruns + 1) 65535) ∧
     (s.ll.receive = .held → s.hasRoom = true → exec (.heldFrameTaken p) s =
       .next (finish (takeFrame s.ll.buffer.kind s.ll.buffer.payload
         { s with pins := p, ll := { s.ll with receive := .search } }))) ∧
     (∀ r rest, s.ll.receive = .held → s.ll.sending = true → s.ll.upstream = r :: rest →
       rest.length + s.stagingFill + 80 ≤ 256 → exec (.upstreamFrameSent p) s =
       .next (beginSending (reportBacklog (takeFrame s.ll.buffer.kind s.ll.buffer.payload
         { s with pins := p, ll := { s.ll with receive := .search, upstream := rest, sending := false } }))))) ∧
  (∀ (p : Pins) (s : State), s.Calm →
     (s.ll.sending = true → exec (.upstreamFrameSent p) s = .next { s with
       pins := p
       ll := { s.ll with upstream := s.ll.upstream.tail
                         sending := p.lrdyIn && decide (s.ll.upstream.tail ≠ []) } }) ∧
     (∃ t, exec (.lrdyInActive p) s = .next t ∧ t.pins.lrdyIn = true ∧
       t = { s with pins := t.pins, ll := { s.ll with sending := s.ll.sending || decide (s.ll.upstream ≠ []) } })) ∧
  (∀ (n : Notice) (s : State) (enabled room : Bool), enabled = s.ll.mask.getLsbD (noticeCode n) →
     room = decide (s.ll.upstream.length + s.stagingFill + 80 ≤ 256) →
     raiseNotice n s = { s with ll := { s.ll with
       flags := s.ll.flags ||| BitVec.twoPow 11 (noticeCode n)
       upstream := if enabled && room then s.ll.upstream ++ [.notice n s.mu.pitch] else s.ll.upstream
       noticesDropped :=
         if enabled && !room then min (s.ll.noticesDropped + 1) 65535 else s.ll.noticesDropped } }) ∧
  (∀ s : State, s.inReset = false → (s.readyOut = true ↔
     (∃ i : Fin 16, s.au.staging[i] = .free) ∧ s.bu.table.length < 8 ∧ s.ll.upstream.length + s.stagingFill + 80 ≤ 256)) ∧
  (∀ s : State,
     (96 ≤ s.ll.upstream.length → s.lc.holds.linkBacklog = false →
       reportBacklog s = if s.lc.line = .running ∧ s.lc.holds = HoldSet.empty then
         raiseNotice (.holdEntered { HoldSet.empty with linkBacklog := true })
           { s with lc := { s.lc with line := .holding, holds := { HoldSet.empty with linkBacklog := true } } }
         else { s with lc := { s.lc with holds := { s.lc.holds with linkBacklog := true } } }) ∧
     (s.ll.upstream.length ≤ 32 → s.lc.holds.linkBacklog = true →
       reportBacklog s = if s.lc.line = .holding ∧ s.lc.holds = { HoldSet.empty with linkBacklog := true } then
         raiseNotice .holdLeft { s with lc := { s.lc with line := .running, holds := HoldSet.empty } }
         else { s with lc := { s.lc with holds := { s.lc.holds with linkBacklog := false } } }) ∧
     (33 ≤ s.ll.upstream.length → s.ll.upstream.length ≤ 95 → reportBacklog s = s)) ∧
  (∀ (p : Pins) (ref : Byte) (s : State), s.Open →
     (95 ≤ s.ll.upstream.length → s.ll.upstream.length ≤ 159 → s.lc.holds.linkBacklog = false →
       ∃ t, exec (.statusRead p ref []) s = .next t ∧
         t.lc = { s.lc with
           holds := { s.lc.holds with linkBacklog := true }
           line := if s.lc.line = .running ∧ s.lc.holds = HoldSet.empty then .holding else s.lc.line } ∧
         (s.lc.line = .running → s.lc.holds = HoldSet.empty → t.ll.flags.getLsbD 1 = true ∧
           (s.ll.mask.getLsbD 1 = true → t.ll.upstream = s.ll.upstream ++
             [.reply ref 0x06 .ok 0 s.statusOctets, .notice (.holdEntered t.lc.holds) s.mu.pitch])) ∧
         (s.lc.line ≠ .running ∨ s.lc.holds ≠ HoldSet.empty →
           t.ll.upstream = s.ll.upstream ++ [.reply ref 0x06 .ok 0 s.statusOctets])) ∧
     (s.ll.upstream.length ≤ 33 → s.ll.sending = true → s.lc.holds.linkBacklog = true →
       ∃ t, exec (.upstreamFrameSent p) s = .next t ∧
         t.lc = { s.lc with
           holds := { s.lc.holds with linkBacklog := false }
           line := if s.lc.line = .holding ∧ s.lc.holds = { HoldSet.empty with linkBacklog := true } then .running
             else s.lc.line } ∧
         (s.lc.line = .holding → s.lc.holds = { HoldSet.empty with linkBacklog := true } → t.ll.flags.getLsbD 2 = true ∧
           (s.ll.mask.getLsbD 2 = true →
             t.ll.upstream = s.ll.upstream.tail ++ [.notice .holdLeft s.mu.pitch])) ∧
         (s.lc.line ≠ .holding ∨ s.lc.holds ≠ { HoldSet.empty with linkBacklog := true } →
           t.ll.upstream = s.ll.upstream.tail)))

/-- STATUS-READ answers the 62 octets of the state as it stands and changes nothing: line state, hold and fault causes,
locator, further faults, displaced flag (its code is the model's reading: notes/assumptions/23.md), pitch index, phase, S, the
fills, the notice flags, the protection, the printer's synchronisation and the fourteen counters in their order. NOTICE-MASK
replaces the mask, FLAG-CLEAR clears the named flags, PROTECT replaces the write-enable set and clears the lock; NOTICE-MASK
and FLAG-CLEAR answer what now stands, PROTECT the set that now stands and the lock as it stood before; a set naming an
unassigned member is refused with RANGE, field 1. A frame of an unknown kind is answered FORMAT, UNKNOWN_KIND. A record that
comes inside a half-received frame is taken as the model chose in notes/assumptions/3.md. -/
def Obligations.TheLinkAnswersItsOwnRecords : Prop :=
  (∀ (p : Pins) (ref : Byte) (s : State), s.Calm →
     exec (.statusRead p ref []) s = .next (answered 0x06 [ref] (.ok 0 s.statusOctets) { s with pins := p }) ∧
     s.statusOctets.length = 62 ∧
     (∀ o rest, exec (.statusRead p ref (o :: rest)) s =
       .next (answered 0x06 (ref :: o :: rest) (.refusal .format 0x04) { s with pins := p }))) ∧
  (∀ (p : Pins) (ref : Byte) (s : State), s.Calm →
     (∀ m : BitVec 11, exec (.noticeMask p ref (octets2 m.toNat)) s =
       .next (answered 0x08 (ref :: octets2 m.toNat) (.ok 0 (octets2 m.toNat))
         { s with pins := p, ll := { s.ll with mask := m } })) ∧
     (∀ m : BitVec 11, exec (.flagClear p ref (octets2 m.toNat)) s =
       .next (answered 0x07 (ref :: octets2 m.toNat) (.ok 0 (octets2 (s.ll.flags &&& ~~~m).toNat))
         { s with pins := p, ll := { s.ll with flags := s.ll.flags &&& ~~~m } })) ∧
     (∀ w : BitVec 5, exec (.protect p ref [BitVec.ofNat 8 w.toNat]) s =
       .next (answered 0x09 [ref, BitVec.ofNat 8 w.toNat] (.ok 0 [BitVec.ofNat 8 w.toNat, boolOctet s.ll.lock])
         { s with pins := p, ll := { s.ll with writeEnable := w, lock := false } })) ∧
     (∀ n : BitVec 16, 2048 ≤ n.toNat →
       exec (.noticeMask p ref (octets2 n.toNat)) s =
         .next (answered 0x08 (ref :: octets2 n.toNat) (.refusal .range 1) { s with pins := p }) ∧
       exec (.flagClear p ref (octets2 n.toNat)) s =
         .next (answered 0x07 (ref :: octets2 n.toNat) (.refusal .range 1) { s with pins := p })) ∧
     (∀ w : Byte, 32 ≤ w.toNat → exec (.protect p ref [w]) s =
       .next (answered 0x09 [ref, w] (.refusal .range 1) { s with pins := p }))) ∧
  (∀ (p : Pins) (kind ref : Byte) (rest : List Byte) (s : State), s.Calm → kind.toNat = 0 ∨ 9 < kind.toNat →
     exec (.unknownKind p kind ref rest) s =
       .next (answered kind (ref :: rest) (.refusal .format 0x05) { s with pins := p })) ∧
  (∀ s : State, s.statusOctets =
     [match s.lc.line with
        | .stopped => 0x00 | .running => 0x01 | .holding => 0x02 | .runOut => 0x03 | .faulted => 0x04,
      BitVec.ofNat 8 (s.lc.holds.command.toNat + 2 * s.lc.holds.stationLimit.toNat + 4 * s.lc.holds.caliperDrift.toNat +
        8 * s.lc.holds.linkBacklog.toNat),
      BitVec.ofNat 8 (s.lc.faults.estop.toNat + 2 * s.lc.faults.jam.toNat + 4 * s.lc.faults.motion.toNat +
        8 * s.lc.faults.printSync.toNat + 16 * s.lc.faults.printOrder.toNat + 32 * s.lc.faults.printBacklog.toNat)] ++
     (match s.lc.locator with
        | none => [0x00, 0xFF, 0x00, 0x00, 0x00, 0x00, 0xFF, 0x00, 0x00, 0x00]
        | some l =>
          [match l.cause with
             | .estop => 0x01 | .jam => 0x02 | .motion => 0x03 | .printSync => 0x04 | .printOrder => 0x05
             | .printBacklog => 0x06,
           match l.station with
             | none => 0xFF
             | some i => BitVec.ofNat 8 i.val] ++ octets4 l.pitch.toNat ++
          (match l.seq with
             | none => [0xFF, 0x00, 0x00, 0x00]
             | some q => 0x00 :: octets3 q.toNat)) ++
     [BitVec.ofNat 8 s.lc.further, if s.lc.displaced then 0x01 else 0x00] ++
     octets4 s.mu.pitch.toNat ++ octets2 s.mu.phase ++ octets2 s.mu.speed ++
     [BitVec.ofNat 8 (s.au.staging.toList.countP (fun e => decide (e ≠ .free ∧ e ≠ .receiving))),
      BitVec.ofNat 8 (s.tu.track.countP Content.isCopy), BitVec.ofNat 8 s.gm.queue.length,
      BitVec.ofNat 8 s.bu.table.length] ++
     octets2 s.ll.upstream.length ++ octets2 s.ll.flags.toNat ++
     [BitVec.ofNat 8 s.ll.writeEnable.toNat, if s.ll.lock then 0x01 else 0x00,
      if s.pp.synchronised then 0x01 else 0x00] ++
     octets2 s.mu.motionErrors ++ octets2 s.mu.reverseAbsorbed ++ octets2 s.tu.starved ++ octets2 s.cu.strayProduct ++
     octets2 s.cu.strayRead ++ octets2 s.cu.readerErrors ++ octets2 s.pp.errors ++ octets2 s.pp.stray ++
     octets2 s.gm.ghostDiverts ++ octets2 s.ll.crcErrors ++ octets2 s.ll.frameTimeouts ++ octets2 s.ll.lengthErrors ++
     octets2 s.ll.receiveOverruns ++ octets2 s.ll.noticesDropped)
end

