-- ==== Sys2Proof/Laws/State.lean ====
section
/-! SUPPORT. What each plain update of the state leaves alone: one lemma for each update and each unit it does not touch, true by rfl. -/

namespace Sys2Proof.Machine

@[simp] theorem setFireWork_mu (i : StationNo) (f : FireWork → FireWork) (s : State) : (setFireWork i f s).mu = s.mu := rfl
@[simp] theorem setFireWork_au (i : StationNo) (f : FireWork → FireWork) (s : State) : (setFireWork i f s).au = s.au := rfl
@[simp] theorem setFireWork_tu (i : StationNo) (f : FireWork → FireWork) (s : State) : (setFireWork i f s).tu = s.tu := rfl
@[simp] theorem setFireWork_cu (i : StationNo) (f : FireWork → FireWork) (s : State) : (setFireWork i f s).cu = s.cu := rfl
@[simp] theorem setFireWork_pp (i : StationNo) (f : FireWork → FireWork) (s : State) : (setFireWork i f s).pp = s.pp := rfl
@[simp] theorem setFireWork_gm (i : StationNo) (f : FireWork → FireWork) (s : State) : (setFireWork i f s).gm = s.gm := rfl
@[simp] theorem setFireWork_bu (i : StationNo) (f : FireWork → FireWork) (s : State) : (setFireWork i f s).bu = s.bu := rfl
@[simp] theorem setFireWork_lc (i : StationNo) (f : FireWork → FireWork) (s : State) : (setFireWork i f s).lc = s.lc := rfl
@[simp] theorem setFireWork_ll (i : StationNo) (f : FireWork → FireWork) (s : State) : (setFireWork i f s).ll = s.ll := rfl
@[simp] theorem setFireWork_pins (i : StationNo) (f : FireWork → FireWork) (s : State) : (setFireWork i f s).pins = s.pins := rfl
@[simp] theorem setFireWork_inReset (i : StationNo) (f : FireWork → FireWork) (s : State) : (setFireWork i f s).inReset = s.inReset := rfl
@[simp] theorem setFireWork_countIndex (i : StationNo) (f : FireWork → FireWork) (s : State) : (setFireWork i f s).countIndex = s.countIndex := rfl
@[simp] theorem setFireWork_pending (i : StationNo) (f : FireWork → FireWork) (s : State) : (setFireWork i f s).pending = s.pending := rfl

@[simp] theorem setCheckWork_mu (i : StationNo) (f : CheckWork → CheckWork) (s : State) : (setCheckWork i f s).mu = s.mu := rfl
@[simp] theorem setCheckWork_fu (i : StationNo) (f : CheckWork → CheckWork) (s : State) : (setCheckWork i f s).fu = s.fu := rfl
@[simp] theorem setCheckWork_au (i : StationNo) (f : CheckWork → CheckWork) (s : State) : (setCheckWork i f s).au = s.au := rfl
@[simp] theorem setCheckWork_tu (i : StationNo) (f : CheckWork → CheckWork) (s : State) : (setCheckWork i f s).tu = s.tu := rfl
@[simp] theorem setCheckWork_pp (i : StationNo) (f : CheckWork → CheckWork) (s : State) : (setCheckWork i f s).pp = s.pp := rfl
@[simp] theorem setCheckWork_gm (i : StationNo) (f : CheckWork → CheckWork) (s : State) : (setCheckWork i f s).gm = s.gm := rfl
@[simp] theorem setCheckWork_bu (i : StationNo) (f : CheckWork → CheckWork) (s : State) : (setCheckWork i f s).bu = s.bu := rfl
@[simp] theorem setCheckWork_lc (i : StationNo) (f : CheckWork → CheckWork) (s : State) : (setCheckWork i f s).lc = s.lc := rfl
@[simp] theorem setCheckWork_ll (i : StationNo) (f : CheckWork → CheckWork) (s : State) : (setCheckWork i f s).ll = s.ll := rfl
@[simp] theorem setCheckWork_pins (i : StationNo) (f : CheckWork → CheckWork) (s : State) : (setCheckWork i f s).pins = s.pins := rfl
@[simp] theorem setCheckWork_inReset (i : StationNo) (f : CheckWork → CheckWork) (s : State) : (setCheckWork i f s).inReset = s.inReset := rfl
@[simp] theorem setCheckWork_countIndex (i : StationNo) (f : CheckWork → CheckWork) (s : State) : (setCheckWork i f s).countIndex = s.countIndex := rfl
@[simp] theorem setCheckWork_pending (i : StationNo) (f : CheckWork → CheckWork) (s : State) : (setCheckWork i f s).pending = s.pending := rfl

@[simp] theorem setContent_mu (pos : Nat) (c : Content) (s : State) : (setContent pos c s).mu = s.mu := rfl
@[simp] theorem setContent_fu (pos : Nat) (c : Content) (s : State) : (setContent pos c s).fu = s.fu := rfl
@[simp] theorem setContent_au (pos : Nat) (c : Content) (s : State) : (setContent pos c s).au = s.au := rfl
@[simp] theorem setContent_cu (pos : Nat) (c : Content) (s : State) : (setContent pos c s).cu = s.cu := rfl
@[simp] theorem setContent_pp (pos : Nat) (c : Content) (s : State) : (setContent pos c s).pp = s.pp := rfl
@[simp] theorem setContent_gm (pos : Nat) (c : Content) (s : State) : (setContent pos c s).gm = s.gm := rfl
@[simp] theorem setContent_bu (pos : Nat) (c : Content) (s : State) : (setContent pos c s).bu = s.bu := rfl
@[simp] theorem setContent_lc (pos : Nat) (c : Content) (s : State) : (setContent pos c s).lc = s.lc := rfl
@[simp] theorem setContent_ll (pos : Nat) (c : Content) (s : State) : (setContent pos c s).ll = s.ll := rfl
@[simp] theorem setContent_pins (pos : Nat) (c : Content) (s : State) : (setContent pos c s).pins = s.pins := rfl
@[simp] theorem setContent_inReset (pos : Nat) (c : Content) (s : State) : (setContent pos c s).inReset = s.inReset := rfl
@[simp] theorem setContent_countIndex (pos : Nat) (c : Content) (s : State) : (setContent pos c s).countIndex = s.countIndex := rfl
@[simp] theorem setContent_pending (pos : Nat) (c : Content) (s : State) : (setContent pos c s).pending = s.pending := rfl

@[simp] theorem modifyContext_mu (pos : Nat) (f : Context → Context) (s : State) : (modifyContext pos f s).mu = s.mu := rfl
@[simp] theorem modifyContext_fu (pos : Nat) (f : Context → Context) (s : State) : (modifyContext pos f s).fu = s.fu := rfl
@[simp] theorem modifyContext_au (pos : Nat) (f : Context → Context) (s : State) : (modifyContext pos f s).au = s.au := rfl
@[simp] theorem modifyContext_cu (pos : Nat) (f : Context → Context) (s : State) : (modifyContext pos f s).cu = s.cu := rfl
@[simp] theorem modifyContext_pp (pos : Nat) (f : Context → Context) (s : State) : (modifyContext pos f s).pp = s.pp := rfl
@[simp] theorem modifyContext_gm (pos : Nat) (f : Context → Context) (s : State) : (modifyContext pos f s).gm = s.gm := rfl
@[simp] theorem modifyContext_bu (pos : Nat) (f : Context → Context) (s : State) : (modifyContext pos f s).bu = s.bu := rfl
@[simp] theorem modifyContext_lc (pos : Nat) (f : Context → Context) (s : State) : (modifyContext pos f s).lc = s.lc := rfl
@[simp] theorem modifyContext_ll (pos : Nat) (f : Context → Context) (s : State) : (modifyContext pos f s).ll = s.ll := rfl
@[simp] theorem modifyContext_pins (pos : Nat) (f : Context → Context) (s : State) : (modifyContext pos f s).pins = s.pins := rfl
@[simp] theorem modifyContext_inReset (pos : Nat) (f : Context → Context) (s : State) : (modifyContext pos f s).inReset = s.inReset := rfl
@[simp] theorem modifyContext_countIndex (pos : Nat) (f : Context → Context) (s : State) : (modifyContext pos f s).countIndex = s.countIndex := rfl
@[simp] theorem modifyContext_pending (pos : Nat) (f : Context → Context) (s : State) : (modifyContext pos f s).pending = s.pending := rfl

@[simp] theorem markAt_mu (pos : Nat) (m : Mark) (s : State) : (markAt pos m s).mu = s.mu := rfl
@[simp] theorem markAt_fu (pos : Nat) (m : Mark) (s : State) : (markAt pos m s).fu = s.fu := rfl
@[simp] theorem markAt_au (pos : Nat) (m : Mark) (s : State) : (markAt pos m s).au = s.au := rfl
@[simp] theorem markAt_cu (pos : Nat) (m : Mark) (s : State) : (markAt pos m s).cu = s.cu := rfl
@[simp] theorem markAt_pp (pos : Nat) (m : Mark) (s : State) : (markAt pos m s).pp = s.pp := rfl
@[simp] theorem markAt_gm (pos : Nat) (m : Mark) (s : State) : (markAt pos m s).gm = s.gm := rfl
@[simp] theorem markAt_bu (pos : Nat) (m : Mark) (s : State) : (markAt pos m s).bu = s.bu := rfl
@[simp] theorem markAt_lc (pos : Nat) (m : Mark) (s : State) : (markAt pos m s).lc = s.lc := rfl
@[simp] theorem markAt_ll (pos : Nat) (m : Mark) (s : State) : (markAt pos m s).ll = s.ll := rfl
@[simp] theorem markAt_pins (pos : Nat) (m : Mark) (s : State) : (markAt pos m s).pins = s.pins := rfl
@[simp] theorem markAt_inReset (pos : Nat) (m : Mark) (s : State) : (markAt pos m s).inReset = s.inReset := rfl
@[simp] theorem markAt_countIndex (pos : Nat) (m : Mark) (s : State) : (markAt pos m s).countIndex = s.countIndex := rfl
@[simp] theorem markAt_pending (pos : Nat) (m : Mark) (s : State) : (markAt pos m s).pending = s.pending := rfl

@[simp] theorem suspectAt_mu (pos : Nat) (s : State) : (suspectAt pos s).mu = s.mu := rfl
@[simp] theorem suspectAt_fu (pos : Nat) (s : State) : (suspectAt pos s).fu = s.fu := rfl
@[simp] theorem suspectAt_au (pos : Nat) (s : State) : (suspectAt pos s).au = s.au := rfl
@[simp] theorem suspectAt_cu (pos : Nat) (s : State) : (suspectAt pos s).cu = s.cu := rfl
@[simp] theorem suspectAt_pp (pos : Nat) (s : State) : (suspectAt pos s).pp = s.pp := rfl
@[simp] theorem suspectAt_gm (pos : Nat) (s : State) : (suspectAt pos s).gm = s.gm := rfl
@[simp] theorem suspectAt_bu (pos : Nat) (s : State) : (suspectAt pos s).bu = s.bu := rfl
@[simp] theorem suspectAt_lc (pos : Nat) (s : State) : (suspectAt pos s).lc = s.lc := rfl
@[simp] theorem suspectAt_ll (pos : Nat) (s : State) : (suspectAt pos s).ll = s.ll := rfl
@[simp] theorem suspectAt_pins (pos : Nat) (s : State) : (suspectAt pos s).pins = s.pins := rfl
@[simp] theorem suspectAt_inReset (pos : Nat) (s : State) : (suspectAt pos s).inReset = s.inReset := rfl
@[simp] theorem suspectAt_countIndex (pos : Nat) (s : State) : (suspectAt pos s).countIndex = s.countIndex := rfl
@[simp] theorem suspectAt_pending (pos : Nat) (s : State) : (suspectAt pos s).pending = s.pending := rfl

@[simp] theorem place_mu (r : Record) (s : State) : (place r s).mu = s.mu := rfl
@[simp] theorem place_fu (r : Record) (s : State) : (place r s).fu = s.fu := rfl
@[simp] theorem place_au (r : Record) (s : State) : (place r s).au = s.au := rfl
@[simp] theorem place_tu (r : Record) (s : State) : (place r s).tu = s.tu := rfl
@[simp] theorem place_cu (r : Record) (s : State) : (place r s).cu = s.cu := rfl
@[simp] theorem place_pp (r : Record) (s : State) : (place r s).pp = s.pp := rfl
@[simp] theorem place_gm (r : Record) (s : State) : (place r s).gm = s.gm := rfl
@[simp] theorem place_bu (r : Record) (s : State) : (place r s).bu = s.bu := rfl
@[simp] theorem place_lc (r : Record) (s : State) : (place r s).lc = s.lc := rfl
@[simp] theorem place_pins (r : Record) (s : State) : (place r s).pins = s.pins := rfl
@[simp] theorem place_inReset (r : Record) (s : State) : (place r s).inReset = s.inReset := rfl
@[simp] theorem place_countIndex (r : Record) (s : State) : (place r s).countIndex = s.countIndex := rfl
@[simp] theorem place_pending (r : Record) (s : State) : (place r s).pending = s.pending := rfl

@[simp] theorem placeAll_mu (rs : List Record) (s : State) : (placeAll rs s).mu = s.mu := rfl
@[simp] theorem placeAll_fu (rs : List Record) (s : State) : (placeAll rs s).fu = s.fu := rfl
@[simp] theorem placeAll_au (rs : List Record) (s : State) : (placeAll rs s).au = s.au := rfl
@[simp] theorem placeAll_tu (rs : List Record) (s : State) : (placeAll rs s).tu = s.tu := rfl
@[simp] theorem placeAll_cu (rs : List Record) (s : State) : (placeAll rs s).cu = s.cu := rfl
@[simp] theorem placeAll_pp (rs : List Record) (s : State) : (placeAll rs s).pp = s.pp := rfl
@[simp] theorem placeAll_gm (rs : List Record) (s : State) : (placeAll rs s).gm = s.gm := rfl
@[simp] theorem placeAll_bu (rs : List Record) (s : State) : (placeAll rs s).bu = s.bu := rfl
@[simp] theorem placeAll_lc (rs : List Record) (s : State) : (placeAll rs s).lc = s.lc := rfl
@[simp] theorem placeAll_pins (rs : List Record) (s : State) : (placeAll rs s).pins = s.pins := rfl
@[simp] theorem placeAll_inReset (rs : List Record) (s : State) : (placeAll rs s).inReset = s.inReset := rfl
@[simp] theorem placeAll_countIndex (rs : List Record) (s : State) : (placeAll rs s).countIndex = s.countIndex := rfl
@[simp] theorem placeAll_pending (rs : List Record) (s : State) : (placeAll rs s).pending = s.pending := rfl

@[simp] theorem setLine_mu (l : LineState) (s : State) : (setLine l s).mu = s.mu := rfl
@[simp] theorem setLine_fu (l : LineState) (s : State) : (setLine l s).fu = s.fu := rfl
@[simp] theorem setLine_au (l : LineState) (s : State) : (setLine l s).au = s.au := rfl
@[simp] theorem setLine_tu (l : LineState) (s : State) : (setLine l s).tu = s.tu := rfl
@[simp] theorem setLine_cu (l : LineState) (s : State) : (setLine l s).cu = s.cu := rfl
@[simp] theorem setLine_pp (l : LineState) (s : State) : (setLine l s).pp = s.pp := rfl
@[simp] theorem setLine_gm (l : LineState) (s : State) : (setLine l s).gm = s.gm := rfl
@[simp] theorem setLine_bu (l : LineState) (s : State) : (setLine l s).bu = s.bu := rfl
@[simp] theorem setLine_ll (l : LineState) (s : State) : (setLine l s).ll = s.ll := rfl
@[simp] theorem setLine_pins (l : LineState) (s : State) : (setLine l s).pins = s.pins := rfl
@[simp] theorem setLine_inReset (l : LineState) (s : State) : (setLine l s).inReset = s.inReset := rfl
@[simp] theorem setLine_countIndex (l : LineState) (s : State) : (setLine l s).countIndex = s.countIndex := rfl
@[simp] theorem setLine_pending (l : LineState) (s : State) : (setLine l s).pending = s.pending := rfl

@[simp] theorem endPulses_mu (s : State) : (endPulses s).mu = s.mu := by dsimp only [endPulses]
@[simp] theorem endPulses_au (s : State) : (endPulses s).au = s.au := by dsimp only [endPulses]
@[simp] theorem endPulses_tu (s : State) : (endPulses s).tu = s.tu := by dsimp only [endPulses]
@[simp] theorem endPulses_cu (s : State) : (endPulses s).cu = s.cu := by dsimp only [endPulses]
@[simp] theorem endPulses_pp (s : State) : (endPulses s).pp = s.pp := by dsimp only [endPulses]
@[simp] theorem endPulses_gm (s : State) : (endPulses s).gm = s.gm := by dsimp only [endPulses]
@[simp] theorem endPulses_bu (s : State) : (endPulses s).bu = s.bu := by dsimp only [endPulses]
@[simp] theorem endPulses_lc (s : State) : (endPulses s).lc = s.lc := by dsimp only [endPulses]
@[simp] theorem endPulses_ll (s : State) : (endPulses s).ll = s.ll := by dsimp only [endPulses]
@[simp] theorem endPulses_pins (s : State) : (endPulses s).pins = s.pins := by dsimp only [endPulses]
@[simp] theorem endPulses_inReset (s : State) : (endPulses s).inReset = s.inReset := by dsimp only [endPulses]
@[simp] theorem endPulses_countIndex (s : State) : (endPulses s).countIndex = s.countIndex := by dsimp only [endPulses]
@[simp] theorem endPulses_pending (s : State) : (endPulses s).pending = s.pending := by dsimp only [endPulses]

@[simp] theorem freeText_mu (blocks : List Nat) (s : State) : (freeText blocks s).mu = s.mu := rfl
@[simp] theorem freeText_fu (blocks : List Nat) (s : State) : (freeText blocks s).fu = s.fu := rfl
@[simp] theorem freeText_tu (blocks : List Nat) (s : State) : (freeText blocks s).tu = s.tu := rfl
@[simp] theorem freeText_cu (blocks : List Nat) (s : State) : (freeText blocks s).cu = s.cu := rfl
@[simp] theorem freeText_pp (blocks : List Nat) (s : State) : (freeText blocks s).pp = s.pp := rfl
@[simp] theorem freeText_gm (blocks : List Nat) (s : State) : (freeText blocks s).gm = s.gm := rfl
@[simp] theorem freeText_bu (blocks : List Nat) (s : State) : (freeText blocks s).bu = s.bu := rfl
@[simp] theorem freeText_lc (blocks : List Nat) (s : State) : (freeText blocks s).lc = s.lc := rfl
@[simp] theorem freeText_ll (blocks : List Nat) (s : State) : (freeText blocks s).ll = s.ll := rfl
@[simp] theorem freeText_pins (blocks : List Nat) (s : State) : (freeText blocks s).pins = s.pins := rfl
@[simp] theorem freeText_inReset (blocks : List Nat) (s : State) : (freeText blocks s).inReset = s.inReset := rfl
@[simp] theorem freeText_countIndex (blocks : List Nat) (s : State) : (freeText blocks s).countIndex = s.countIndex := rfl
@[simp] theorem freeText_pending (blocks : List Nat) (s : State) : (freeText blocks s).pending = s.pending := rfl

@[simp] theorem setEntry_mu (i : Fin 16) (e : StagingEntry) (s : State) : (setEntry i e s).mu = s.mu := rfl
@[simp] theorem setEntry_fu (i : Fin 16) (e : StagingEntry) (s : State) : (setEntry i e s).fu = s.fu := rfl
@[simp] theorem setEntry_tu (i : Fin 16) (e : StagingEntry) (s : State) : (setEntry i e s).tu = s.tu := rfl
@[simp] theorem setEntry_cu (i : Fin 16) (e : StagingEntry) (s : State) : (setEntry i e s).cu = s.cu := rfl
@[simp] theorem setEntry_pp (i : Fin 16) (e : StagingEntry) (s : State) : (setEntry i e s).pp = s.pp := rfl
@[simp] theorem setEntry_gm (i : Fin 16) (e : StagingEntry) (s : State) : (setEntry i e s).gm = s.gm := rfl
@[simp] theorem setEntry_bu (i : Fin 16) (e : StagingEntry) (s : State) : (setEntry i e s).bu = s.bu := rfl
@[simp] theorem setEntry_lc (i : Fin 16) (e : StagingEntry) (s : State) : (setEntry i e s).lc = s.lc := rfl
@[simp] theorem setEntry_ll (i : Fin 16) (e : StagingEntry) (s : State) : (setEntry i e s).ll = s.ll := rfl
@[simp] theorem setEntry_pins (i : Fin 16) (e : StagingEntry) (s : State) : (setEntry i e s).pins = s.pins := rfl
@[simp] theorem setEntry_inReset (i : Fin 16) (e : StagingEntry) (s : State) : (setEntry i e s).inReset = s.inReset := rfl
@[simp] theorem setEntry_countIndex (i : Fin 16) (e : StagingEntry) (s : State) : (setEntry i e s).countIndex = s.countIndex := rfl
@[simp] theorem setEntry_pending (i : Fin 16) (e : StagingEntry) (s : State) : (setEntry i e s).pending = s.pending := rfl

@[simp] theorem freeEntry_mu (i : Fin 16) (s : State) : (freeEntry i s).mu = s.mu := rfl
@[simp] theorem freeEntry_fu (i : Fin 16) (s : State) : (freeEntry i s).fu = s.fu := rfl
@[simp] theorem freeEntry_tu (i : Fin 16) (s : State) : (freeEntry i s).tu = s.tu := rfl
@[simp] theorem freeEntry_cu (i : Fin 16) (s : State) : (freeEntry i s).cu = s.cu := rfl
@[simp] theorem freeEntry_pp (i : Fin 16) (s : State) : (freeEntry i s).pp = s.pp := rfl
@[simp] theorem freeEntry_gm (i : Fin 16) (s : State) : (freeEntry i s).gm = s.gm := rfl
@[simp] theorem freeEntry_bu (i : Fin 16) (s : State) : (freeEntry i s).bu = s.bu := rfl
@[simp] theorem freeEntry_lc (i : Fin 16) (s : State) : (freeEntry i s).lc = s.lc := rfl
@[simp] theorem freeEntry_ll (i : Fin 16) (s : State) : (freeEntry i s).ll = s.ll := rfl
@[simp] theorem freeEntry_pins (i : Fin 16) (s : State) : (freeEntry i s).pins = s.pins := rfl
@[simp] theorem freeEntry_inReset (i : Fin 16) (s : State) : (freeEntry i s).inReset = s.inReset := rfl
@[simp] theorem freeEntry_countIndex (i : Fin 16) (s : State) : (freeEntry i s).countIndex = s.countIndex := rfl
@[simp] theorem freeEntry_pending (i : Fin 16) (s : State) : (freeEntry i s).pending = s.pending := rfl

@[simp] theorem modifyBundle_mu (o : Word16) (f : Bundle → Bundle) (s : State) : (modifyBundle o f s).mu = s.mu := rfl
@[simp] theorem modifyBundle_fu (o : Word16) (f : Bundle → Bundle) (s : State) : (modifyBundle o f s).fu = s.fu := rfl
@[simp] theorem modifyBundle_au (o : Word16) (f : Bundle → Bundle) (s : State) : (modifyBundle o f s).au = s.au := rfl
@[simp] theorem modifyBundle_tu (o : Word16) (f : Bundle → Bundle) (s : State) : (modifyBundle o f s).tu = s.tu := rfl
@[simp] theorem modifyBundle_cu (o : Word16) (f : Bundle → Bundle) (s : State) : (modifyBundle o f s).cu = s.cu := rfl
@[simp] theorem modifyBundle_pp (o : Word16) (f : Bundle → Bundle) (s : State) : (modifyBundle o f s).pp = s.pp := rfl
@[simp] theorem modifyBundle_gm (o : Word16) (f : Bundle → Bundle) (s : State) : (modifyBundle o f s).gm = s.gm := rfl
@[simp] theorem modifyBundle_lc (o : Word16) (f : Bundle → Bundle) (s : State) : (modifyBundle o f s).lc = s.lc := rfl
@[simp] theorem modifyBundle_ll (o : Word16) (f : Bundle → Bundle) (s : State) : (modifyBundle o f s).ll = s.ll := rfl
@[simp] theorem modifyBundle_pins (o : Word16) (f : Bundle → Bundle) (s : State) : (modifyBundle o f s).pins = s.pins := rfl
@[simp] theorem modifyBundle_inReset (o : Word16) (f : Bundle → Bundle) (s : State) : (modifyBundle o f s).inReset = s.inReset := rfl
@[simp] theorem modifyBundle_countIndex (o : Word16) (f : Bundle → Bundle) (s : State) : (modifyBundle o f s).countIndex = s.countIndex := rfl
@[simp] theorem modifyBundle_pending (o : Word16) (f : Bundle → Bundle) (s : State) : (modifyBundle o f s).pending = s.pending := rfl

@[simp] theorem countExcepted_mu (o : Word16) (s : State) : (countExcepted o s).mu = s.mu := rfl
@[simp] theorem countExcepted_fu (o : Word16) (s : State) : (countExcepted o s).fu = s.fu := rfl
@[simp] theorem countExcepted_au (o : Word16) (s : State) : (countExcepted o s).au = s.au := rfl
@[simp] theorem countExcepted_tu (o : Word16) (s : State) : (countExcepted o s).tu = s.tu := rfl
@[simp] theorem countExcepted_cu (o : Word16) (s : State) : (countExcepted o s).cu = s.cu := rfl
@[simp] theorem countExcepted_pp (o : Word16) (s : State) : (countExcepted o s).pp = s.pp := rfl
@[simp] theorem countExcepted_gm (o : Word16) (s : State) : (countExcepted o s).gm = s.gm := rfl
@[simp] theorem countExcepted_lc (o : Word16) (s : State) : (countExcepted o s).lc = s.lc := rfl
@[simp] theorem countExcepted_ll (o : Word16) (s : State) : (countExcepted o s).ll = s.ll := rfl
@[simp] theorem countExcepted_pins (o : Word16) (s : State) : (countExcepted o s).pins = s.pins := rfl
@[simp] theorem countExcepted_inReset (o : Word16) (s : State) : (countExcepted o s).inReset = s.inReset := rfl
@[simp] theorem countExcepted_countIndex (o : Word16) (s : State) : (countExcepted o s).countIndex = s.countIndex := rfl
@[simp] theorem countExcepted_pending (o : Word16) (s : State) : (countExcepted o s).pending = s.pending := rfl

@[simp] theorem countDelivered_mu (o : Word16) (q : Seq) (s : State) : (countDelivered o q s).mu = s.mu := rfl
@[simp] theorem countDelivered_fu (o : Word16) (q : Seq) (s : State) : (countDelivered o q s).fu = s.fu := rfl
@[simp] theorem countDelivered_au (o : Word16) (q : Seq) (s : State) : (countDelivered o q s).au = s.au := rfl
@[simp] theorem countDelivered_tu (o : Word16) (q : Seq) (s : State) : (countDelivered o q s).tu = s.tu := rfl
@[simp] theorem countDelivered_cu (o : Word16) (q : Seq) (s : State) : (countDelivered o q s).cu = s.cu := rfl
@[simp] theorem countDelivered_pp (o : Word16) (q : Seq) (s : State) : (countDelivered o q s).pp = s.pp := rfl
@[simp] theorem countDelivered_gm (o : Word16) (q : Seq) (s : State) : (countDelivered o q s).gm = s.gm := rfl
@[simp] theorem countDelivered_lc (o : Word16) (q : Seq) (s : State) : (countDelivered o q s).lc = s.lc := rfl
@[simp] theorem countDelivered_ll (o : Word16) (q : Seq) (s : State) : (countDelivered o q s).ll = s.ll := rfl
@[simp] theorem countDelivered_pins (o : Word16) (q : Seq) (s : State) : (countDelivered o q s).pins = s.pins := rfl
@[simp] theorem countDelivered_inReset (o : Word16) (q : Seq) (s : State) : (countDelivered o q s).inReset = s.inReset := rfl
@[simp] theorem countDelivered_countIndex (o : Word16) (q : Seq) (s : State) : (countDelivered o q s).countIndex = s.countIndex := rfl
@[simp] theorem countDelivered_pending (o : Word16) (q : Seq) (s : State) : (countDelivered o q s).pending = s.pending := rfl

@[simp] theorem countReceived_mu (o : Word16) (s : State) : (countReceived o s).mu = s.mu := rfl
@[simp] theorem countReceived_fu (o : Word16) (s : State) : (countReceived o s).fu = s.fu := rfl
@[simp] theorem countReceived_au (o : Word16) (s : State) : (countReceived o s).au = s.au := rfl
@[simp] theorem countReceived_tu (o : Word16) (s : State) : (countReceived o s).tu = s.tu := rfl
@[simp] theorem countReceived_cu (o : Word16) (s : State) : (countReceived o s).cu = s.cu := rfl
@[simp] theorem countReceived_pp (o : Word16) (s : State) : (countReceived o s).pp = s.pp := rfl
@[simp] theorem countReceived_gm (o : Word16) (s : State) : (countReceived o s).gm = s.gm := rfl
@[simp] theorem countReceived_lc (o : Word16) (s : State) : (countReceived o s).lc = s.lc := rfl
@[simp] theorem countReceived_ll (o : Word16) (s : State) : (countReceived o s).ll = s.ll := rfl
@[simp] theorem countReceived_pins (o : Word16) (s : State) : (countReceived o s).pins = s.pins := rfl
@[simp] theorem countReceived_inReset (o : Word16) (s : State) : (countReceived o s).inReset = s.inReset := rfl
@[simp] theorem countReceived_countIndex (o : Word16) (s : State) : (countReceived o s).countIndex = s.countIndex := rfl
@[simp] theorem countReceived_pending (o : Word16) (s : State) : (countReceived o s).pending = s.pending := rfl

@[simp] theorem closeBundles_mu (s : State) : (closeBundles s).mu = s.mu := rfl
@[simp] theorem closeBundles_fu (s : State) : (closeBundles s).fu = s.fu := rfl
@[simp] theorem closeBundles_au (s : State) : (closeBundles s).au = s.au := rfl
@[simp] theorem closeBundles_tu (s : State) : (closeBundles s).tu = s.tu := rfl
@[simp] theorem closeBundles_cu (s : State) : (closeBundles s).cu = s.cu := rfl
@[simp] theorem closeBundles_pp (s : State) : (closeBundles s).pp = s.pp := rfl
@[simp] theorem closeBundles_gm (s : State) : (closeBundles s).gm = s.gm := rfl
@[simp] theorem closeBundles_lc (s : State) : (closeBundles s).lc = s.lc := rfl
@[simp] theorem closeBundles_pins (s : State) : (closeBundles s).pins = s.pins := rfl
@[simp] theorem closeBundles_inReset (s : State) : (closeBundles s).inReset = s.inReset := rfl
@[simp] theorem closeBundles_countIndex (s : State) : (closeBundles s).countIndex = s.countIndex := rfl
@[simp] theorem closeBundles_pending (s : State) : (closeBundles s).pending = s.pending := rfl

@[simp] theorem countPrintStray_mu (s : State) : (countPrintStray s).mu = s.mu := rfl
@[simp] theorem countPrintStray_fu (s : State) : (countPrintStray s).fu = s.fu := rfl
@[simp] theorem countPrintStray_au (s : State) : (countPrintStray s).au = s.au := rfl
@[simp] theorem countPrintStray_tu (s : State) : (countPrintStray s).tu = s.tu := rfl
@[simp] theorem countPrintStray_cu (s : State) : (countPrintStray s).cu = s.cu := rfl
@[simp] theorem countPrintStray_gm (s : State) : (countPrintStray s).gm = s.gm := rfl
@[simp] theorem countPrintStray_bu (s : State) : (countPrintStray s).bu = s.bu := rfl
@[simp] theorem countPrintStray_lc (s : State) : (countPrintStray s).lc = s.lc := rfl
@[simp] theorem countPrintStray_ll (s : State) : (countPrintStray s).ll = s.ll := rfl
@[simp] theorem countPrintStray_pins (s : State) : (countPrintStray s).pins = s.pins := rfl
@[simp] theorem countPrintStray_inReset (s : State) : (countPrintStray s).inReset = s.inReset := rfl
@[simp] theorem countPrintStray_countIndex (s : State) : (countPrintStray s).countIndex = s.countIndex := rfl
@[simp] theorem countPrintStray_pending (s : State) : (countPrintStray s).pending = s.pending := rfl

@[simp] theorem makeJob_mu (lead : Nat) (c : Context) (s : State) : (makeJob lead c s).mu = s.mu := rfl
@[simp] theorem makeJob_fu (lead : Nat) (c : Context) (s : State) : (makeJob lead c s).fu = s.fu := rfl
@[simp] theorem makeJob_au (lead : Nat) (c : Context) (s : State) : (makeJob lead c s).au = s.au := rfl
@[simp] theorem makeJob_cu (lead : Nat) (c : Context) (s : State) : (makeJob lead c s).cu = s.cu := rfl
@[simp] theorem makeJob_gm (lead : Nat) (c : Context) (s : State) : (makeJob lead c s).gm = s.gm := rfl
@[simp] theorem makeJob_bu (lead : Nat) (c : Context) (s : State) : (makeJob lead c s).bu = s.bu := rfl
@[simp] theorem makeJob_lc (lead : Nat) (c : Context) (s : State) : (makeJob lead c s).lc = s.lc := rfl
@[simp] theorem makeJob_ll (lead : Nat) (c : Context) (s : State) : (makeJob lead c s).ll = s.ll := rfl
@[simp] theorem makeJob_pins (lead : Nat) (c : Context) (s : State) : (makeJob lead c s).pins = s.pins := rfl
@[simp] theorem makeJob_inReset (lead : Nat) (c : Context) (s : State) : (makeJob lead c s).inReset = s.inReset := rfl
@[simp] theorem makeJob_countIndex (lead : Nat) (c : Context) (s : State) : (makeJob lead c s).countIndex = s.countIndex := rfl
@[simp] theorem makeJob_pending (lead : Nat) (c : Context) (s : State) : (makeJob lead c s).pending = s.pending := rfl

@[simp] theorem printerSent_mu (s : State) : (printerSent s).mu = s.mu := rfl
@[simp] theorem printerSent_fu (s : State) : (printerSent s).fu = s.fu := rfl
@[simp] theorem printerSent_au (s : State) : (printerSent s).au = s.au := rfl
@[simp] theorem printerSent_tu (s : State) : (printerSent s).tu = s.tu := rfl
@[simp] theorem printerSent_cu (s : State) : (printerSent s).cu = s.cu := rfl
@[simp] theorem printerSent_gm (s : State) : (printerSent s).gm = s.gm := rfl
@[simp] theorem printerSent_bu (s : State) : (printerSent s).bu = s.bu := rfl
@[simp] theorem printerSent_lc (s : State) : (printerSent s).lc = s.lc := rfl
@[simp] theorem printerSent_ll (s : State) : (printerSent s).ll = s.ll := rfl
@[simp] theorem printerSent_pins (s : State) : (printerSent s).pins = s.pins := rfl
@[simp] theorem printerSent_inReset (s : State) : (printerSent s).inReset = s.inReset := rfl
@[simp] theorem printerSent_countIndex (s : State) : (printerSent s).countIndex = s.countIndex := rfl
@[simp] theorem printerSent_pending (s : State) : (printerSent s).pending = s.pending := rfl

@[simp] theorem enqueue_mu (c : Context) (s : State) : (enqueue c s).mu = s.mu := rfl
@[simp] theorem enqueue_fu (c : Context) (s : State) : (enqueue c s).fu = s.fu := rfl
@[simp] theorem enqueue_au (c : Context) (s : State) : (enqueue c s).au = s.au := rfl
@[simp] theorem enqueue_tu (c : Context) (s : State) : (enqueue c s).tu = s.tu := rfl
@[simp] theorem enqueue_cu (c : Context) (s : State) : (enqueue c s).cu = s.cu := rfl
@[simp] theorem enqueue_pp (c : Context) (s : State) : (enqueue c s).pp = s.pp := rfl
@[simp] theorem enqueue_bu (c : Context) (s : State) : (enqueue c s).bu = s.bu := rfl
@[simp] theorem enqueue_lc (c : Context) (s : State) : (enqueue c s).lc = s.lc := rfl
@[simp] theorem enqueue_ll (c : Context) (s : State) : (enqueue c s).ll = s.ll := rfl
@[simp] theorem enqueue_pins (c : Context) (s : State) : (enqueue c s).pins = s.pins := rfl
@[simp] theorem enqueue_inReset (c : Context) (s : State) : (enqueue c s).inReset = s.inReset := rfl
@[simp] theorem enqueue_countIndex (c : Context) (s : State) : (enqueue c s).countIndex = s.countIndex := rfl
@[simp] theorem enqueue_pending (c : Context) (s : State) : (enqueue c s).pending = s.pending := rfl

@[simp] theorem clearStarvedRun_mu (s : State) : (clearStarvedRun s).mu = s.mu := rfl
@[simp] theorem clearStarvedRun_fu (s : State) : (clearStarvedRun s).fu = s.fu := rfl
@[simp] theorem clearStarvedRun_au (s : State) : (clearStarvedRun s).au = s.au := rfl
@[simp] theorem clearStarvedRun_cu (s : State) : (clearStarvedRun s).cu = s.cu := rfl
@[simp] theorem clearStarvedRun_pp (s : State) : (clearStarvedRun s).pp = s.pp := rfl
@[simp] theorem clearStarvedRun_gm (s : State) : (clearStarvedRun s).gm = s.gm := rfl
@[simp] theorem clearStarvedRun_bu (s : State) : (clearStarvedRun s).bu = s.bu := rfl
@[simp] theorem clearStarvedRun_lc (s : State) : (clearStarvedRun s).lc = s.lc := rfl
@[simp] theorem clearStarvedRun_ll (s : State) : (clearStarvedRun s).ll = s.ll := rfl
@[simp] theorem clearStarvedRun_pins (s : State) : (clearStarvedRun s).pins = s.pins := rfl
@[simp] theorem clearStarvedRun_inReset (s : State) : (clearStarvedRun s).inReset = s.inReset := rfl
@[simp] theorem clearStarvedRun_countIndex (s : State) : (clearStarvedRun s).countIndex = s.countIndex := rfl
@[simp] theorem clearStarvedRun_pending (s : State) : (clearStarvedRun s).pending = s.pending := rfl

@[simp] theorem senseCount_mu (s : State) : (senseCount s).mu = s.mu := by dsimp only [senseCount]
@[simp] theorem senseCount_fu (s : State) : (senseCount s).fu = s.fu := by dsimp only [senseCount]
@[simp] theorem senseCount_au (s : State) : (senseCount s).au = s.au := by dsimp only [senseCount]
@[simp] theorem senseCount_tu (s : State) : (senseCount s).tu = s.tu := by dsimp only [senseCount]
@[simp] theorem senseCount_pp (s : State) : (senseCount s).pp = s.pp := by dsimp only [senseCount]
@[simp] theorem senseCount_gm (s : State) : (senseCount s).gm = s.gm := by dsimp only [senseCount]
@[simp] theorem senseCount_bu (s : State) : (senseCount s).bu = s.bu := by dsimp only [senseCount]
@[simp] theorem senseCount_lc (s : State) : (senseCount s).lc = s.lc := by dsimp only [senseCount]
@[simp] theorem senseCount_ll (s : State) : (senseCount s).ll = s.ll := by dsimp only [senseCount]
@[simp] theorem senseCount_pins (s : State) : (senseCount s).pins = s.pins := by dsimp only [senseCount]
@[simp] theorem senseCount_inReset (s : State) : (senseCount s).inReset = s.inReset := by dsimp only [senseCount]
@[simp] theorem senseCount_countIndex (s : State) : (senseCount s).countIndex = s.countIndex := by dsimp only [senseCount]
@[simp] theorem senseCount_pending (s : State) : (senseCount s).pending = s.pending := by dsimp only [senseCount]

@[simp] theorem newPitchChecks_mu (s : State) : (newPitchChecks s).mu = s.mu := by dsimp only [newPitchChecks]
@[simp] theorem newPitchChecks_fu (s : State) : (newPitchChecks s).fu = s.fu := by dsimp only [newPitchChecks]
@[simp] theorem newPitchChecks_au (s : State) : (newPitchChecks s).au = s.au := by dsimp only [newPitchChecks]
@[simp] theorem newPitchChecks_tu (s : State) : (newPitchChecks s).tu = s.tu := by dsimp only [newPitchChecks]
@[simp] theorem newPitchChecks_pp (s : State) : (newPitchChecks s).pp = s.pp := by dsimp only [newPitchChecks]
@[simp] theorem newPitchChecks_gm (s : State) : (newPitchChecks s).gm = s.gm := by dsimp only [newPitchChecks]
@[simp] theorem newPitchChecks_bu (s : State) : (newPitchChecks s).bu = s.bu := by dsimp only [newPitchChecks]
@[simp] theorem newPitchChecks_lc (s : State) : (newPitchChecks s).lc = s.lc := by dsimp only [newPitchChecks]
@[simp] theorem newPitchChecks_ll (s : State) : (newPitchChecks s).ll = s.ll := by dsimp only [newPitchChecks]
@[simp] theorem newPitchChecks_pins (s : State) : (newPitchChecks s).pins = s.pins := by dsimp only [newPitchChecks]
@[simp] theorem newPitchChecks_inReset (s : State) : (newPitchChecks s).inReset = s.inReset := by dsimp only [newPitchChecks]
@[simp] theorem newPitchChecks_countIndex (s : State) : (newPitchChecks s).countIndex = s.countIndex := by dsimp only [newPitchChecks]
@[simp] theorem newPitchChecks_pending (s : State) : (newPitchChecks s).pending = s.pending := by dsimp only [newPitchChecks]

@[simp] theorem cleanVerdict_mu (i : StationNo) (s : State) : (cleanVerdict i s).mu = s.mu := rfl
@[simp] theorem cleanVerdict_fu (i : StationNo) (s : State) : (cleanVerdict i s).fu = s.fu := rfl
@[simp] theorem cleanVerdict_au (i : StationNo) (s : State) : (cleanVerdict i s).au = s.au := rfl
@[simp] theorem cleanVerdict_tu (i : StationNo) (s : State) : (cleanVerdict i s).tu = s.tu := rfl
@[simp] theorem cleanVerdict_pp (i : StationNo) (s : State) : (cleanVerdict i s).pp = s.pp := rfl
@[simp] theorem cleanVerdict_gm (i : StationNo) (s : State) : (cleanVerdict i s).gm = s.gm := rfl
@[simp] theorem cleanVerdict_bu (i : StationNo) (s : State) : (cleanVerdict i s).bu = s.bu := rfl
@[simp] theorem cleanVerdict_lc (i : StationNo) (s : State) : (cleanVerdict i s).lc = s.lc := rfl
@[simp] theorem cleanVerdict_ll (i : StationNo) (s : State) : (cleanVerdict i s).ll = s.ll := rfl
@[simp] theorem cleanVerdict_pins (i : StationNo) (s : State) : (cleanVerdict i s).pins = s.pins := rfl
@[simp] theorem cleanVerdict_inReset (i : StationNo) (s : State) : (cleanVerdict i s).inReset = s.inReset := rfl
@[simp] theorem cleanVerdict_countIndex (i : StationNo) (s : State) : (cleanVerdict i s).countIndex = s.countIndex := rfl
@[simp] theorem cleanVerdict_pending (i : StationNo) (s : State) : (cleanVerdict i s).pending = s.pending := rfl

@[simp] theorem countReaderError_mu (s : State) : (countReaderError s).mu = s.mu := rfl
@[simp] theorem countReaderError_fu (s : State) : (countReaderError s).fu = s.fu := rfl
@[simp] theorem countReaderError_au (s : State) : (countReaderError s).au = s.au := rfl
@[simp] theorem countReaderError_tu (s : State) : (countReaderError s).tu = s.tu := rfl
@[simp] theorem countReaderError_pp (s : State) : (countReaderError s).pp = s.pp := rfl
@[simp] theorem countReaderError_gm (s : State) : (countReaderError s).gm = s.gm := rfl
@[simp] theorem countReaderError_bu (s : State) : (countReaderError s).bu = s.bu := rfl
@[simp] theorem countReaderError_lc (s : State) : (countReaderError s).lc = s.lc := rfl
@[simp] theorem countReaderError_ll (s : State) : (countReaderError s).ll = s.ll := rfl
@[simp] theorem countReaderError_pins (s : State) : (countReaderError s).pins = s.pins := rfl
@[simp] theorem countReaderError_inReset (s : State) : (countReaderError s).inReset = s.inReset := rfl
@[simp] theorem countReaderError_countIndex (s : State) : (countReaderError s).countIndex = s.countIndex := rfl
@[simp] theorem countReaderError_pending (s : State) : (countReaderError s).pending = s.pending := rfl

@[simp] theorem endDuePulses_mu (s : State) : (endDuePulses s).mu = s.mu := by dsimp only [endDuePulses]
@[simp] theorem endDuePulses_au (s : State) : (endDuePulses s).au = s.au := by dsimp only [endDuePulses]
@[simp] theorem endDuePulses_tu (s : State) : (endDuePulses s).tu = s.tu := by dsimp only [endDuePulses]
@[simp] theorem endDuePulses_cu (s : State) : (endDuePulses s).cu = s.cu := by dsimp only [endDuePulses]
@[simp] theorem endDuePulses_pp (s : State) : (endDuePulses s).pp = s.pp := by dsimp only [endDuePulses]
@[simp] theorem endDuePulses_gm (s : State) : (endDuePulses s).gm = s.gm := by dsimp only [endDuePulses]
@[simp] theorem endDuePulses_bu (s : State) : (endDuePulses s).bu = s.bu := by dsimp only [endDuePulses]
@[simp] theorem endDuePulses_lc (s : State) : (endDuePulses s).lc = s.lc := by dsimp only [endDuePulses]
@[simp] theorem endDuePulses_ll (s : State) : (endDuePulses s).ll = s.ll := by dsimp only [endDuePulses]
@[simp] theorem endDuePulses_pins (s : State) : (endDuePulses s).pins = s.pins := by dsimp only [endDuePulses]
@[simp] theorem endDuePulses_inReset (s : State) : (endDuePulses s).inReset = s.inReset := by dsimp only [endDuePulses]
@[simp] theorem endDuePulses_countIndex (s : State) : (endDuePulses s).countIndex = s.countIndex := by dsimp only [endDuePulses]
@[simp] theorem endDuePulses_pending (s : State) : (endDuePulses s).pending = s.pending := by dsimp only [endDuePulses]

@[simp] theorem startPulse_mu (i : StationNo) (s : State) : (startPulse i s).mu = s.mu := rfl
@[simp] theorem startPulse_au (i : StationNo) (s : State) : (startPulse i s).au = s.au := rfl
@[simp] theorem startPulse_tu (i : StationNo) (s : State) : (startPulse i s).tu = s.tu := rfl
@[simp] theorem startPulse_cu (i : StationNo) (s : State) : (startPulse i s).cu = s.cu := rfl
@[simp] theorem startPulse_pp (i : StationNo) (s : State) : (startPulse i s).pp = s.pp := rfl
@[simp] theorem startPulse_gm (i : StationNo) (s : State) : (startPulse i s).gm = s.gm := rfl
@[simp] theorem startPulse_bu (i : StationNo) (s : State) : (startPulse i s).bu = s.bu := rfl
@[simp] theorem startPulse_lc (i : StationNo) (s : State) : (startPulse i s).lc = s.lc := rfl
@[simp] theorem startPulse_ll (i : StationNo) (s : State) : (startPulse i s).ll = s.ll := rfl
@[simp] theorem startPulse_pins (i : StationNo) (s : State) : (startPulse i s).pins = s.pins := rfl
@[simp] theorem startPulse_inReset (i : StationNo) (s : State) : (startPulse i s).inReset = s.inReset := rfl
@[simp] theorem startPulse_countIndex (i : StationNo) (s : State) : (startPulse i s).countIndex = s.countIndex := rfl
@[simp] theorem startPulse_pending (i : StationNo) (s : State) : (startPulse i s).pending = s.pending := rfl

@[simp] theorem latchPitch_mu (s : State) : (latchPitch s).mu = s.mu := by simp [latchPitch]
@[simp] theorem latchPitch_au (s : State) : (latchPitch s).au = s.au := by simp [latchPitch]
@[simp] theorem latchPitch_tu (s : State) : (latchPitch s).tu = s.tu := by simp [latchPitch]
@[simp] theorem latchPitch_cu (s : State) : (latchPitch s).cu = s.cu := by simp [latchPitch]
@[simp] theorem latchPitch_pp (s : State) : (latchPitch s).pp = s.pp := by simp [latchPitch]
@[simp] theorem latchPitch_gm (s : State) : (latchPitch s).gm = s.gm := by simp [latchPitch]
@[simp] theorem latchPitch_bu (s : State) : (latchPitch s).bu = s.bu := by simp [latchPitch]
@[simp] theorem latchPitch_lc (s : State) : (latchPitch s).lc = s.lc := by simp [latchPitch]
@[simp] theorem latchPitch_ll (s : State) : (latchPitch s).ll = s.ll := by simp [latchPitch]
@[simp] theorem latchPitch_pins (s : State) : (latchPitch s).pins = s.pins := by simp [latchPitch]
@[simp] theorem latchPitch_inReset (s : State) : (latchPitch s).inReset = s.inReset := by simp [latchPitch]
@[simp] theorem latchPitch_countIndex (s : State) : (latchPitch s).countIndex = s.countIndex := by simp [latchPitch]
@[simp] theorem latchPitch_pending (s : State) : (latchPitch s).pending = s.pending := by simp [latchPitch]

@[simp] theorem newPitchFiring_mu (s : State) : (newPitchFiring s).mu = s.mu := by simp [newPitchFiring]
@[simp] theorem newPitchFiring_au (s : State) : (newPitchFiring s).au = s.au := by simp [newPitchFiring]
@[simp] theorem newPitchFiring_tu (s : State) : (newPitchFiring s).tu = s.tu := by simp [newPitchFiring]
@[simp] theorem newPitchFiring_cu (s : State) : (newPitchFiring s).cu = s.cu := by simp [newPitchFiring]
@[simp] theorem newPitchFiring_pp (s : State) : (newPitchFiring s).pp = s.pp := by simp [newPitchFiring]
@[simp] theorem newPitchFiring_gm (s : State) : (newPitchFiring s).gm = s.gm := by simp [newPitchFiring]
@[simp] theorem newPitchFiring_bu (s : State) : (newPitchFiring s).bu = s.bu := by simp [newPitchFiring]
@[simp] theorem newPitchFiring_lc (s : State) : (newPitchFiring s).lc = s.lc := by simp [newPitchFiring]
@[simp] theorem newPitchFiring_ll (s : State) : (newPitchFiring s).ll = s.ll := by simp [newPitchFiring]
@[simp] theorem newPitchFiring_pins (s : State) : (newPitchFiring s).pins = s.pins := by simp [newPitchFiring]
@[simp] theorem newPitchFiring_inReset (s : State) : (newPitchFiring s).inReset = s.inReset := by simp [newPitchFiring]
@[simp] theorem newPitchFiring_countIndex (s : State) : (newPitchFiring s).countIndex = s.countIndex := by simp [newPitchFiring]
@[simp] theorem newPitchFiring_pending (s : State) : (newPitchFiring s).pending = s.pending := by simp [newPitchFiring]

@[simp] theorem setOutcome_mu (i : StationNo) (o : PitchOutcome) (s : State) : (setOutcome i o s).mu = s.mu := rfl
@[simp] theorem setOutcome_au (i : StationNo) (o : PitchOutcome) (s : State) : (setOutcome i o s).au = s.au := rfl
@[simp] theorem setOutcome_tu (i : StationNo) (o : PitchOutcome) (s : State) : (setOutcome i o s).tu = s.tu := rfl
@[simp] theorem setOutcome_cu (i : StationNo) (o : PitchOutcome) (s : State) : (setOutcome i o s).cu = s.cu := rfl
@[simp] theorem setOutcome_pp (i : StationNo) (o : PitchOutcome) (s : State) : (setOutcome i o s).pp = s.pp := rfl
@[simp] theorem setOutcome_gm (i : StationNo) (o : PitchOutcome) (s : State) : (setOutcome i o s).gm = s.gm := rfl
@[simp] theorem setOutcome_bu (i : StationNo) (o : PitchOutcome) (s : State) : (setOutcome i o s).bu = s.bu := rfl
@[simp] theorem setOutcome_lc (i : StationNo) (o : PitchOutcome) (s : State) : (setOutcome i o s).lc = s.lc := rfl
@[simp] theorem setOutcome_ll (i : StationNo) (o : PitchOutcome) (s : State) : (setOutcome i o s).ll = s.ll := rfl
@[simp] theorem setOutcome_pins (i : StationNo) (o : PitchOutcome) (s : State) : (setOutcome i o s).pins = s.pins := rfl
@[simp] theorem setOutcome_inReset (i : StationNo) (o : PitchOutcome) (s : State) : (setOutcome i o s).inReset = s.inReset := rfl
@[simp] theorem setOutcome_countIndex (i : StationNo) (o : PitchOutcome) (s : State) : (setOutcome i o s).countIndex = s.countIndex := rfl
@[simp] theorem setOutcome_pending (i : StationNo) (o : PitchOutcome) (s : State) : (setOutcome i o s).pending = s.pending := rfl

@[simp] theorem fireWithPulse_mu (i : StationNo) (s : State) : (fireWithPulse i s).mu = s.mu := rfl
@[simp] theorem fireWithPulse_au (i : StationNo) (s : State) : (fireWithPulse i s).au = s.au := rfl
@[simp] theorem fireWithPulse_tu (i : StationNo) (s : State) : (fireWithPulse i s).tu = s.tu := rfl
@[simp] theorem fireWithPulse_cu (i : StationNo) (s : State) : (fireWithPulse i s).cu = s.cu := rfl
@[simp] theorem fireWithPulse_pp (i : StationNo) (s : State) : (fireWithPulse i s).pp = s.pp := rfl
@[simp] theorem fireWithPulse_gm (i : StationNo) (s : State) : (fireWithPulse i s).gm = s.gm := rfl
@[simp] theorem fireWithPulse_bu (i : StationNo) (s : State) : (fireWithPulse i s).bu = s.bu := rfl
@[simp] theorem fireWithPulse_lc (i : StationNo) (s : State) : (fireWithPulse i s).lc = s.lc := rfl
@[simp] theorem fireWithPulse_ll (i : StationNo) (s : State) : (fireWithPulse i s).ll = s.ll := rfl
@[simp] theorem fireWithPulse_pins (i : StationNo) (s : State) : (fireWithPulse i s).pins = s.pins := rfl
@[simp] theorem fireWithPulse_inReset (i : StationNo) (s : State) : (fireWithPulse i s).inReset = s.inReset := rfl
@[simp] theorem fireWithPulse_countIndex (i : StationNo) (s : State) : (fireWithPulse i s).countIndex = s.countIndex := rfl
@[simp] theorem fireWithPulse_pending (i : StationNo) (s : State) : (fireWithPulse i s).pending = s.pending := rfl

@[simp] theorem countUp_mu (s : State) : (countUp s).mu = s.mu := rfl
@[simp] theorem countUp_fu (s : State) : (countUp s).fu = s.fu := rfl
@[simp] theorem countUp_au (s : State) : (countUp s).au = s.au := rfl
@[simp] theorem countUp_tu (s : State) : (countUp s).tu = s.tu := rfl
@[simp] theorem countUp_cu (s : State) : (countUp s).cu = s.cu := rfl
@[simp] theorem countUp_pp (s : State) : (countUp s).pp = s.pp := rfl
@[simp] theorem countUp_gm (s : State) : (countUp s).gm = s.gm := rfl
@[simp] theorem countUp_bu (s : State) : (countUp s).bu = s.bu := rfl
@[simp] theorem countUp_lc (s : State) : (countUp s).lc = s.lc := rfl
@[simp] theorem countUp_ll (s : State) : (countUp s).ll = s.ll := rfl
@[simp] theorem countUp_pins (s : State) : (countUp s).pins = s.pins := rfl
@[simp] theorem countUp_inReset (s : State) : (countUp s).inReset = s.inReset := rfl
@[simp] theorem countUp_pending (s : State) : (countUp s).pending = s.pending := rfl

@[simp] theorem motionBoundary_fu (s : State) : (motionBoundary s).fu = s.fu := rfl
@[simp] theorem motionBoundary_au (s : State) : (motionBoundary s).au = s.au := rfl
@[simp] theorem motionBoundary_tu (s : State) : (motionBoundary s).tu = s.tu := rfl
@[simp] theorem motionBoundary_cu (s : State) : (motionBoundary s).cu = s.cu := rfl
@[simp] theorem motionBoundary_pp (s : State) : (motionBoundary s).pp = s.pp := rfl
@[simp] theorem motionBoundary_gm (s : State) : (motionBoundary s).gm = s.gm := rfl
@[simp] theorem motionBoundary_bu (s : State) : (motionBoundary s).bu = s.bu := rfl
@[simp] theorem motionBoundary_lc (s : State) : (motionBoundary s).lc = s.lc := rfl
@[simp] theorem motionBoundary_ll (s : State) : (motionBoundary s).ll = s.ll := rfl
@[simp] theorem motionBoundary_pins (s : State) : (motionBoundary s).pins = s.pins := rfl
@[simp] theorem motionBoundary_inReset (s : State) : (motionBoundary s).inReset = s.inReset := rfl
@[simp] theorem motionBoundary_countIndex (s : State) : (motionBoundary s).countIndex = s.countIndex := rfl
@[simp] theorem motionBoundary_pending (s : State) : (motionBoundary s).pending = s.pending := rfl

@[simp] theorem newPitchGate_mu (s : State) : (newPitchGate s).mu = s.mu := rfl
@[simp] theorem newPitchGate_fu (s : State) : (newPitchGate s).fu = s.fu := rfl
@[simp] theorem newPitchGate_au (s : State) : (newPitchGate s).au = s.au := rfl
@[simp] theorem newPitchGate_tu (s : State) : (newPitchGate s).tu = s.tu := rfl
@[simp] theorem newPitchGate_cu (s : State) : (newPitchGate s).cu = s.cu := rfl
@[simp] theorem newPitchGate_pp (s : State) : (newPitchGate s).pp = s.pp := rfl
@[simp] theorem newPitchGate_bu (s : State) : (newPitchGate s).bu = s.bu := rfl
@[simp] theorem newPitchGate_lc (s : State) : (newPitchGate s).lc = s.lc := rfl
@[simp] theorem newPitchGate_ll (s : State) : (newPitchGate s).ll = s.ll := rfl
@[simp] theorem newPitchGate_pins (s : State) : (newPitchGate s).pins = s.pins := rfl
@[simp] theorem newPitchGate_inReset (s : State) : (newPitchGate s).inReset = s.inReset := rfl
@[simp] theorem newPitchGate_countIndex (s : State) : (newPitchGate s).countIndex = s.countIndex := rfl
@[simp] theorem newPitchGate_pending (s : State) : (newPitchGate s).pending = s.pending := rfl

@[simp] theorem raisePhase_fu (s : State) : (raisePhase s).fu = s.fu := rfl
@[simp] theorem raisePhase_au (s : State) : (raisePhase s).au = s.au := rfl
@[simp] theorem raisePhase_tu (s : State) : (raisePhase s).tu = s.tu := rfl
@[simp] theorem raisePhase_cu (s : State) : (raisePhase s).cu = s.cu := rfl
@[simp] theorem raisePhase_pp (s : State) : (raisePhase s).pp = s.pp := rfl
@[simp] theorem raisePhase_gm (s : State) : (raisePhase s).gm = s.gm := rfl
@[simp] theorem raisePhase_bu (s : State) : (raisePhase s).bu = s.bu := rfl
@[simp] theorem raisePhase_lc (s : State) : (raisePhase s).lc = s.lc := rfl
@[simp] theorem raisePhase_ll (s : State) : (raisePhase s).ll = s.ll := rfl
@[simp] theorem raisePhase_pins (s : State) : (raisePhase s).pins = s.pins := rfl
@[simp] theorem raisePhase_inReset (s : State) : (raisePhase s).inReset = s.inReset := rfl
@[simp] theorem raisePhase_countIndex (s : State) : (raisePhase s).countIndex = s.countIndex := rfl
@[simp] theorem raisePhase_pending (s : State) : (raisePhase s).pending = s.pending := rfl

@[simp] theorem lowerPhase_fu (s : State) : (lowerPhase s).fu = s.fu := rfl
@[simp] theorem lowerPhase_au (s : State) : (lowerPhase s).au = s.au := rfl
@[simp] theorem lowerPhase_tu (s : State) : (lowerPhase s).tu = s.tu := rfl
@[simp] theorem lowerPhase_cu (s : State) : (lowerPhase s).cu = s.cu := rfl
@[simp] theorem lowerPhase_pp (s : State) : (lowerPhase s).pp = s.pp := rfl
@[simp] theorem lowerPhase_gm (s : State) : (lowerPhase s).gm = s.gm := rfl
@[simp] theorem lowerPhase_bu (s : State) : (lowerPhase s).bu = s.bu := rfl
@[simp] theorem lowerPhase_lc (s : State) : (lowerPhase s).lc = s.lc := rfl
@[simp] theorem lowerPhase_ll (s : State) : (lowerPhase s).ll = s.ll := rfl
@[simp] theorem lowerPhase_pins (s : State) : (lowerPhase s).pins = s.pins := rfl
@[simp] theorem lowerPhase_inReset (s : State) : (lowerPhase s).inReset = s.inReset := rfl
@[simp] theorem lowerPhase_countIndex (s : State) : (lowerPhase s).countIndex = s.countIndex := rfl
@[simp] theorem lowerPhase_pending (s : State) : (lowerPhase s).pending = s.pending := rfl

@[simp] theorem countForward_fu (s : State) : (countForward s).fu = s.fu := rfl
@[simp] theorem countForward_au (s : State) : (countForward s).au = s.au := rfl
@[simp] theorem countForward_tu (s : State) : (countForward s).tu = s.tu := rfl
@[simp] theorem countForward_cu (s : State) : (countForward s).cu = s.cu := rfl
@[simp] theorem countForward_pp (s : State) : (countForward s).pp = s.pp := rfl
@[simp] theorem countForward_gm (s : State) : (countForward s).gm = s.gm := rfl
@[simp] theorem countForward_bu (s : State) : (countForward s).bu = s.bu := rfl
@[simp] theorem countForward_lc (s : State) : (countForward s).lc = s.lc := rfl
@[simp] theorem countForward_ll (s : State) : (countForward s).ll = s.ll := rfl
@[simp] theorem countForward_pins (s : State) : (countForward s).pins = s.pins := rfl
@[simp] theorem countForward_inReset (s : State) : (countForward s).inReset = s.inReset := rfl
@[simp] theorem countForward_countIndex (s : State) : (countForward s).countIndex = s.countIndex := rfl
@[simp] theorem countForward_pending (s : State) : (countForward s).pending = s.pending := rfl

@[simp] theorem countReverse_fu (s : State) : (countReverse s).fu = s.fu := rfl
@[simp] theorem countReverse_au (s : State) : (countReverse s).au = s.au := rfl
@[simp] theorem countReverse_tu (s : State) : (countReverse s).tu = s.tu := rfl
@[simp] theorem countReverse_cu (s : State) : (countReverse s).cu = s.cu := rfl
@[simp] theorem countReverse_pp (s : State) : (countReverse s).pp = s.pp := rfl
@[simp] theorem countReverse_gm (s : State) : (countReverse s).gm = s.gm := rfl
@[simp] theorem countReverse_bu (s : State) : (countReverse s).bu = s.bu := rfl
@[simp] theorem countReverse_lc (s : State) : (countReverse s).lc = s.lc := rfl
@[simp] theorem countReverse_ll (s : State) : (countReverse s).ll = s.ll := rfl
@[simp] theorem countReverse_pins (s : State) : (countReverse s).pins = s.pins := rfl
@[simp] theorem countReverse_inReset (s : State) : (countReverse s).inReset = s.inReset := rfl
@[simp] theorem countReverse_countIndex (s : State) : (countReverse s).countIndex = s.countIndex := rfl
@[simp] theorem countReverse_pending (s : State) : (countReverse s).pending = s.pending := rfl

@[simp] theorem setEncoder_fu (a b : Bool) (s : State) : (setEncoder a b s).fu = s.fu := rfl
@[simp] theorem setEncoder_au (a b : Bool) (s : State) : (setEncoder a b s).au = s.au := rfl
@[simp] theorem setEncoder_tu (a b : Bool) (s : State) : (setEncoder a b s).tu = s.tu := rfl
@[simp] theorem setEncoder_cu (a b : Bool) (s : State) : (setEncoder a b s).cu = s.cu := rfl
@[simp] theorem setEncoder_pp (a b : Bool) (s : State) : (setEncoder a b s).pp = s.pp := rfl
@[simp] theorem setEncoder_gm (a b : Bool) (s : State) : (setEncoder a b s).gm = s.gm := rfl
@[simp] theorem setEncoder_bu (a b : Bool) (s : State) : (setEncoder a b s).bu = s.bu := rfl
@[simp] theorem setEncoder_lc (a b : Bool) (s : State) : (setEncoder a b s).lc = s.lc := rfl
@[simp] theorem setEncoder_ll (a b : Bool) (s : State) : (setEncoder a b s).ll = s.ll := rfl
@[simp] theorem setEncoder_pins (a b : Bool) (s : State) : (setEncoder a b s).pins = s.pins := rfl
@[simp] theorem setEncoder_inReset (a b : Bool) (s : State) : (setEncoder a b s).inReset = s.inReset := rfl
@[simp] theorem setEncoder_countIndex (a b : Bool) (s : State) : (setEncoder a b s).countIndex = s.countIndex := rfl
@[simp] theorem setEncoder_pending (a b : Bool) (s : State) : (setEncoder a b s).pending = s.pending := rfl

@[simp] theorem windowExpiry_fu (s : State) : (windowExpiry s).fu = s.fu := rfl
@[simp] theorem windowExpiry_au (s : State) : (windowExpiry s).au = s.au := rfl
@[simp] theorem windowExpiry_tu (s : State) : (windowExpiry s).tu = s.tu := rfl
@[simp] theorem windowExpiry_cu (s : State) : (windowExpiry s).cu = s.cu := rfl
@[simp] theorem windowExpiry_pp (s : State) : (windowExpiry s).pp = s.pp := rfl
@[simp] theorem windowExpiry_gm (s : State) : (windowExpiry s).gm = s.gm := rfl
@[simp] theorem windowExpiry_bu (s : State) : (windowExpiry s).bu = s.bu := rfl
@[simp] theorem windowExpiry_lc (s : State) : (windowExpiry s).lc = s.lc := rfl
@[simp] theorem windowExpiry_ll (s : State) : (windowExpiry s).ll = s.ll := rfl
@[simp] theorem windowExpiry_pins (s : State) : (windowExpiry s).pins = s.pins := rfl
@[simp] theorem windowExpiry_inReset (s : State) : (windowExpiry s).inReset = s.inReset := rfl
@[simp] theorem windowExpiry_countIndex (s : State) : (windowExpiry s).countIndex = s.countIndex := rfl
@[simp] theorem windowExpiry_pending (s : State) : (windowExpiry s).pending = s.pending := rfl

@[simp] theorem stageCopy_mu (i : Fin 16) (payload : List Byte) (o : Word16) (s : State) : (stageCopy i payload o s).mu = s.mu := rfl
@[simp] theorem stageCopy_fu (i : Fin 16) (payload : List Byte) (o : Word16) (s : State) : (stageCopy i payload o s).fu = s.fu := rfl
@[simp] theorem stageCopy_tu (i : Fin 16) (payload : List Byte) (o : Word16) (s : State) : (stageCopy i payload o s).tu = s.tu := rfl
@[simp] theorem stageCopy_cu (i : Fin 16) (payload : List Byte) (o : Word16) (s : State) : (stageCopy i payload o s).cu = s.cu := rfl
@[simp] theorem stageCopy_pp (i : Fin 16) (payload : List Byte) (o : Word16) (s : State) : (stageCopy i payload o s).pp = s.pp := rfl
@[simp] theorem stageCopy_gm (i : Fin 16) (payload : List Byte) (o : Word16) (s : State) : (stageCopy i payload o s).gm = s.gm := rfl
@[simp] theorem stageCopy_bu (i : Fin 16) (payload : List Byte) (o : Word16) (s : State) : (stageCopy i payload o s).bu = s.bu := rfl
@[simp] theorem stageCopy_lc (i : Fin 16) (payload : List Byte) (o : Word16) (s : State) : (stageCopy i payload o s).lc = s.lc := rfl
@[simp] theorem stageCopy_ll (i : Fin 16) (payload : List Byte) (o : Word16) (s : State) : (stageCopy i payload o s).ll = s.ll := rfl
@[simp] theorem stageCopy_pins (i : Fin 16) (payload : List Byte) (o : Word16) (s : State) : (stageCopy i payload o s).pins = s.pins := rfl
@[simp] theorem stageCopy_inReset (i : Fin 16) (payload : List Byte) (o : Word16) (s : State) : (stageCopy i payload o s).inReset = s.inReset := rfl
@[simp] theorem stageCopy_countIndex (i : Fin 16) (payload : List Byte) (o : Word16) (s : State) : (stageCopy i payload o s).countIndex = s.countIndex := rfl
@[simp] theorem stageCopy_pending (i : Fin 16) (payload : List Byte) (o : Word16) (s : State) : (stageCopy i payload o s).pending = s.pending := rfl

@[simp] theorem setProfile_fu (p : LineProfile) (s : State) : (setProfile p s).fu = s.fu := rfl
@[simp] theorem setProfile_au (p : LineProfile) (s : State) : (setProfile p s).au = s.au := rfl
@[simp] theorem setProfile_tu (p : LineProfile) (s : State) : (setProfile p s).tu = s.tu := rfl
@[simp] theorem setProfile_cu (p : LineProfile) (s : State) : (setProfile p s).cu = s.cu := rfl
@[simp] theorem setProfile_pp (p : LineProfile) (s : State) : (setProfile p s).pp = s.pp := rfl
@[simp] theorem setProfile_gm (p : LineProfile) (s : State) : (setProfile p s).gm = s.gm := rfl
@[simp] theorem setProfile_bu (p : LineProfile) (s : State) : (setProfile p s).bu = s.bu := rfl
@[simp] theorem setProfile_lc (p : LineProfile) (s : State) : (setProfile p s).lc = s.lc := rfl
@[simp] theorem setProfile_ll (p : LineProfile) (s : State) : (setProfile p s).ll = s.ll := rfl
@[simp] theorem setProfile_pins (p : LineProfile) (s : State) : (setProfile p s).pins = s.pins := rfl
@[simp] theorem setProfile_inReset (p : LineProfile) (s : State) : (setProfile p s).inReset = s.inReset := rfl
@[simp] theorem setProfile_countIndex (p : LineProfile) (s : State) : (setProfile p s).countIndex = s.countIndex := rfl
@[simp] theorem setProfile_pending (p : LineProfile) (s : State) : (setProfile p s).pending = s.pending := rfl

@[simp] theorem putStation_mu (i : StationNo) (e : StationEntry) (s : State) : (putStation i e s).mu = s.mu := rfl
@[simp] theorem putStation_au (i : StationNo) (e : StationEntry) (s : State) : (putStation i e s).au = s.au := rfl
@[simp] theorem putStation_tu (i : StationNo) (e : StationEntry) (s : State) : (putStation i e s).tu = s.tu := rfl
@[simp] theorem putStation_cu (i : StationNo) (e : StationEntry) (s : State) : (putStation i e s).cu = s.cu := rfl
@[simp] theorem putStation_pp (i : StationNo) (e : StationEntry) (s : State) : (putStation i e s).pp = s.pp := rfl
@[simp] theorem putStation_gm (i : StationNo) (e : StationEntry) (s : State) : (putStation i e s).gm = s.gm := rfl
@[simp] theorem putStation_bu (i : StationNo) (e : StationEntry) (s : State) : (putStation i e s).bu = s.bu := rfl
@[simp] theorem putStation_lc (i : StationNo) (e : StationEntry) (s : State) : (putStation i e s).lc = s.lc := rfl
@[simp] theorem putStation_ll (i : StationNo) (e : StationEntry) (s : State) : (putStation i e s).ll = s.ll := rfl
@[simp] theorem putStation_pins (i : StationNo) (e : StationEntry) (s : State) : (putStation i e s).pins = s.pins := rfl
@[simp] theorem putStation_inReset (i : StationNo) (e : StationEntry) (s : State) : (putStation i e s).inReset = s.inReset := rfl
@[simp] theorem putStation_countIndex (i : StationNo) (e : StationEntry) (s : State) : (putStation i e s).countIndex = s.countIndex := rfl
@[simp] theorem putStation_pending (i : StationNo) (e : StationEntry) (s : State) : (putStation i e s).pending = s.pending := rfl

@[simp] theorem putCurve_mu (k : Fin 4) (f : CurveSlot → CurveSlot) (s : State) : (putCurve k f s).mu = s.mu := rfl
@[simp] theorem putCurve_au (k : Fin 4) (f : CurveSlot → CurveSlot) (s : State) : (putCurve k f s).au = s.au := rfl
@[simp] theorem putCurve_tu (k : Fin 4) (f : CurveSlot → CurveSlot) (s : State) : (putCurve k f s).tu = s.tu := rfl
@[simp] theorem putCurve_cu (k : Fin 4) (f : CurveSlot → CurveSlot) (s : State) : (putCurve k f s).cu = s.cu := rfl
@[simp] theorem putCurve_pp (k : Fin 4) (f : CurveSlot → CurveSlot) (s : State) : (putCurve k f s).pp = s.pp := rfl
@[simp] theorem putCurve_gm (k : Fin 4) (f : CurveSlot → CurveSlot) (s : State) : (putCurve k f s).gm = s.gm := rfl
@[simp] theorem putCurve_bu (k : Fin 4) (f : CurveSlot → CurveSlot) (s : State) : (putCurve k f s).bu = s.bu := rfl
@[simp] theorem putCurve_lc (k : Fin 4) (f : CurveSlot → CurveSlot) (s : State) : (putCurve k f s).lc = s.lc := rfl
@[simp] theorem putCurve_ll (k : Fin 4) (f : CurveSlot → CurveSlot) (s : State) : (putCurve k f s).ll = s.ll := rfl
@[simp] theorem putCurve_pins (k : Fin 4) (f : CurveSlot → CurveSlot) (s : State) : (putCurve k f s).pins = s.pins := rfl
@[simp] theorem putCurve_inReset (k : Fin 4) (f : CurveSlot → CurveSlot) (s : State) : (putCurve k f s).inReset = s.inReset := rfl
@[simp] theorem putCurve_countIndex (k : Fin 4) (f : CurveSlot → CurveSlot) (s : State) : (putCurve k f s).countIndex = s.countIndex := rfl
@[simp] theorem putCurve_pending (k : Fin 4) (f : CurveSlot → CurveSlot) (s : State) : (putCurve k f s).pending = s.pending := rfl

@[simp] theorem putOutput_mu (k : Fin 24) (e : OutputEntry) (s : State) : (putOutput k e s).mu = s.mu := rfl
@[simp] theorem putOutput_au (k : Fin 24) (e : OutputEntry) (s : State) : (putOutput k e s).au = s.au := rfl
@[simp] theorem putOutput_tu (k : Fin 24) (e : OutputEntry) (s : State) : (putOutput k e s).tu = s.tu := rfl
@[simp] theorem putOutput_cu (k : Fin 24) (e : OutputEntry) (s : State) : (putOutput k e s).cu = s.cu := rfl
@[simp] theorem putOutput_pp (k : Fin 24) (e : OutputEntry) (s : State) : (putOutput k e s).pp = s.pp := rfl
@[simp] theorem putOutput_gm (k : Fin 24) (e : OutputEntry) (s : State) : (putOutput k e s).gm = s.gm := rfl
@[simp] theorem putOutput_bu (k : Fin 24) (e : OutputEntry) (s : State) : (putOutput k e s).bu = s.bu := rfl
@[simp] theorem putOutput_lc (k : Fin 24) (e : OutputEntry) (s : State) : (putOutput k e s).lc = s.lc := rfl
@[simp] theorem putOutput_ll (k : Fin 24) (e : OutputEntry) (s : State) : (putOutput k e s).ll = s.ll := rfl
@[simp] theorem putOutput_pins (k : Fin 24) (e : OutputEntry) (s : State) : (putOutput k e s).pins = s.pins := rfl
@[simp] theorem putOutput_inReset (k : Fin 24) (e : OutputEntry) (s : State) : (putOutput k e s).inReset = s.inReset := rfl
@[simp] theorem putOutput_countIndex (k : Fin 24) (e : OutputEntry) (s : State) : (putOutput k e s).countIndex = s.countIndex := rfl
@[simp] theorem putOutput_pending (k : Fin 24) (e : OutputEntry) (s : State) : (putOutput k e s).pending = s.pending := rfl

@[simp] theorem putPlan_mu (code : PlanCode) (p : PlanEntry) (s : State) : (putPlan code p s).mu = s.mu := by dsimp only [putPlan]
@[simp] theorem putPlan_fu (code : PlanCode) (p : PlanEntry) (s : State) : (putPlan code p s).fu = s.fu := by dsimp only [putPlan]
@[simp] theorem putPlan_tu (code : PlanCode) (p : PlanEntry) (s : State) : (putPlan code p s).tu = s.tu := by dsimp only [putPlan]
@[simp] theorem putPlan_cu (code : PlanCode) (p : PlanEntry) (s : State) : (putPlan code p s).cu = s.cu := by dsimp only [putPlan]
@[simp] theorem putPlan_pp (code : PlanCode) (p : PlanEntry) (s : State) : (putPlan code p s).pp = s.pp := by dsimp only [putPlan]
@[simp] theorem putPlan_gm (code : PlanCode) (p : PlanEntry) (s : State) : (putPlan code p s).gm = s.gm := by dsimp only [putPlan]
@[simp] theorem putPlan_bu (code : PlanCode) (p : PlanEntry) (s : State) : (putPlan code p s).bu = s.bu := by dsimp only [putPlan]
@[simp] theorem putPlan_lc (code : PlanCode) (p : PlanEntry) (s : State) : (putPlan code p s).lc = s.lc := by dsimp only [putPlan]
@[simp] theorem putPlan_ll (code : PlanCode) (p : PlanEntry) (s : State) : (putPlan code p s).ll = s.ll := by dsimp only [putPlan]
@[simp] theorem putPlan_pins (code : PlanCode) (p : PlanEntry) (s : State) : (putPlan code p s).pins = s.pins := by dsimp only [putPlan]
@[simp] theorem putPlan_inReset (code : PlanCode) (p : PlanEntry) (s : State) : (putPlan code p s).inReset = s.inReset := by dsimp only [putPlan]
@[simp] theorem putPlan_countIndex (code : PlanCode) (p : PlanEntry) (s : State) : (putPlan code p s).countIndex = s.countIndex := by dsimp only [putPlan]
@[simp] theorem putPlan_pending (code : PlanCode) (p : PlanEntry) (s : State) : (putPlan code p s).pending = s.pending := by dsimp only [putPlan]

@[simp] theorem setLock_mu (s : State) : (setLock s).mu = s.mu := rfl
@[simp] theorem setLock_fu (s : State) : (setLock s).fu = s.fu := rfl
@[simp] theorem setLock_au (s : State) : (setLock s).au = s.au := rfl
@[simp] theorem setLock_tu (s : State) : (setLock s).tu = s.tu := rfl
@[simp] theorem setLock_cu (s : State) : (setLock s).cu = s.cu := rfl
@[simp] theorem setLock_pp (s : State) : (setLock s).pp = s.pp := rfl
@[simp] theorem setLock_gm (s : State) : (setLock s).gm = s.gm := rfl
@[simp] theorem setLock_bu (s : State) : (setLock s).bu = s.bu := rfl
@[simp] theorem setLock_lc (s : State) : (setLock s).lc = s.lc := rfl
@[simp] theorem setLock_pins (s : State) : (setLock s).pins = s.pins := rfl
@[simp] theorem setLock_inReset (s : State) : (setLock s).inReset = s.inReset := rfl
@[simp] theorem setLock_countIndex (s : State) : (setLock s).countIndex = s.countIndex := rfl
@[simp] theorem setLock_pending (s : State) : (setLock s).pending = s.pending := rfl

@[simp] theorem latchTrack_mu (s : State) : (latchTrack s).mu = s.mu := rfl
@[simp] theorem latchTrack_fu (s : State) : (latchTrack s).fu = s.fu := rfl
@[simp] theorem latchTrack_au (s : State) : (latchTrack s).au = s.au := rfl
@[simp] theorem latchTrack_cu (s : State) : (latchTrack s).cu = s.cu := rfl
@[simp] theorem latchTrack_pp (s : State) : (latchTrack s).pp = s.pp := rfl
@[simp] theorem latchTrack_gm (s : State) : (latchTrack s).gm = s.gm := rfl
@[simp] theorem latchTrack_bu (s : State) : (latchTrack s).bu = s.bu := rfl
@[simp] theorem latchTrack_lc (s : State) : (latchTrack s).lc = s.lc := rfl
@[simp] theorem latchTrack_ll (s : State) : (latchTrack s).ll = s.ll := rfl
@[simp] theorem latchTrack_pins (s : State) : (latchTrack s).pins = s.pins := rfl
@[simp] theorem latchTrack_inReset (s : State) : (latchTrack s).inReset = s.inReset := rfl
@[simp] theorem latchTrack_countIndex (s : State) : (latchTrack s).countIndex = s.countIndex := rfl
@[simp] theorem latchTrack_pending (s : State) : (latchTrack s).pending = s.pending := rfl

@[simp] theorem clearDisplaced_mu (s : State) : (clearDisplaced s).mu = s.mu := rfl
@[simp] theorem clearDisplaced_fu (s : State) : (clearDisplaced s).fu = s.fu := rfl
@[simp] theorem clearDisplaced_au (s : State) : (clearDisplaced s).au = s.au := rfl
@[simp] theorem clearDisplaced_tu (s : State) : (clearDisplaced s).tu = s.tu := rfl
@[simp] theorem clearDisplaced_cu (s : State) : (clearDisplaced s).cu = s.cu := rfl
@[simp] theorem clearDisplaced_pp (s : State) : (clearDisplaced s).pp = s.pp := rfl
@[simp] theorem clearDisplaced_gm (s : State) : (clearDisplaced s).gm = s.gm := rfl
@[simp] theorem clearDisplaced_bu (s : State) : (clearDisplaced s).bu = s.bu := rfl
@[simp] theorem clearDisplaced_ll (s : State) : (clearDisplaced s).ll = s.ll := rfl
@[simp] theorem clearDisplaced_pins (s : State) : (clearDisplaced s).pins = s.pins := rfl
@[simp] theorem clearDisplaced_inReset (s : State) : (clearDisplaced s).inReset = s.inReset := rfl
@[simp] theorem clearDisplaced_countIndex (s : State) : (clearDisplaced s).countIndex = s.countIndex := rfl
@[simp] theorem clearDisplaced_pending (s : State) : (clearDisplaced s).pending = s.pending := rfl

@[simp] theorem setOverrides_mu (d a : Bool) (s : State) : (setOverrides d a s).mu = s.mu := rfl
@[simp] theorem setOverrides_au (d a : Bool) (s : State) : (setOverrides d a s).au = s.au := rfl
@[simp] theorem setOverrides_tu (d a : Bool) (s : State) : (setOverrides d a s).tu = s.tu := rfl
@[simp] theorem setOverrides_cu (d a : Bool) (s : State) : (setOverrides d a s).cu = s.cu := rfl
@[simp] theorem setOverrides_pp (d a : Bool) (s : State) : (setOverrides d a s).pp = s.pp := rfl
@[simp] theorem setOverrides_gm (d a : Bool) (s : State) : (setOverrides d a s).gm = s.gm := rfl
@[simp] theorem setOverrides_bu (d a : Bool) (s : State) : (setOverrides d a s).bu = s.bu := rfl
@[simp] theorem setOverrides_lc (d a : Bool) (s : State) : (setOverrides d a s).lc = s.lc := rfl
@[simp] theorem setOverrides_ll (d a : Bool) (s : State) : (setOverrides d a s).ll = s.ll := rfl
@[simp] theorem setOverrides_pins (d a : Bool) (s : State) : (setOverrides d a s).pins = s.pins := rfl
@[simp] theorem setOverrides_inReset (d a : Bool) (s : State) : (setOverrides d a s).inReset = s.inReset := rfl
@[simp] theorem setOverrides_countIndex (d a : Bool) (s : State) : (setOverrides d a s).countIndex = s.countIndex := rfl
@[simp] theorem setOverrides_pending (d a : Bool) (s : State) : (setOverrides d a s).pending = s.pending := rfl

@[simp] theorem suspectAll_mu (s : State) : (suspectAll s).mu = s.mu := rfl
@[simp] theorem suspectAll_fu (s : State) : (suspectAll s).fu = s.fu := rfl
@[simp] theorem suspectAll_au (s : State) : (suspectAll s).au = s.au := rfl
@[simp] theorem suspectAll_cu (s : State) : (suspectAll s).cu = s.cu := rfl
@[simp] theorem suspectAll_pp (s : State) : (suspectAll s).pp = s.pp := rfl
@[simp] theorem suspectAll_gm (s : State) : (suspectAll s).gm = s.gm := rfl
@[simp] theorem suspectAll_bu (s : State) : (suspectAll s).bu = s.bu := rfl
@[simp] theorem suspectAll_lc (s : State) : (suspectAll s).lc = s.lc := rfl
@[simp] theorem suspectAll_ll (s : State) : (suspectAll s).ll = s.ll := rfl
@[simp] theorem suspectAll_pins (s : State) : (suspectAll s).pins = s.pins := rfl
@[simp] theorem suspectAll_inReset (s : State) : (suspectAll s).inReset = s.inReset := rfl
@[simp] theorem suspectAll_countIndex (s : State) : (suspectAll s).countIndex = s.countIndex := rfl
@[simp] theorem suspectAll_pending (s : State) : (suspectAll s).pending = s.pending := rfl

@[simp] theorem endEpisode_mu (s : State) : (endEpisode s).mu = s.mu := rfl
@[simp] theorem endEpisode_fu (s : State) : (endEpisode s).fu = s.fu := rfl
@[simp] theorem endEpisode_au (s : State) : (endEpisode s).au = s.au := rfl
@[simp] theorem endEpisode_tu (s : State) : (endEpisode s).tu = s.tu := rfl
@[simp] theorem endEpisode_cu (s : State) : (endEpisode s).cu = s.cu := rfl
@[simp] theorem endEpisode_pp (s : State) : (endEpisode s).pp = s.pp := rfl
@[simp] theorem endEpisode_gm (s : State) : (endEpisode s).gm = s.gm := rfl
@[simp] theorem endEpisode_bu (s : State) : (endEpisode s).bu = s.bu := rfl
@[simp] theorem endEpisode_ll (s : State) : (endEpisode s).ll = s.ll := rfl
@[simp] theorem endEpisode_pins (s : State) : (endEpisode s).pins = s.pins := rfl
@[simp] theorem endEpisode_inReset (s : State) : (endEpisode s).inReset = s.inReset := rfl
@[simp] theorem endEpisode_countIndex (s : State) : (endEpisode s).countIndex = s.countIndex := rfl
@[simp] theorem endEpisode_pending (s : State) : (endEpisode s).pending = s.pending := rfl

@[simp] theorem resetMotion_fu (s : State) : (resetMotion s).fu = s.fu := rfl
@[simp] theorem resetMotion_au (s : State) : (resetMotion s).au = s.au := rfl
@[simp] theorem resetMotion_tu (s : State) : (resetMotion s).tu = s.tu := rfl
@[simp] theorem resetMotion_cu (s : State) : (resetMotion s).cu = s.cu := rfl
@[simp] theorem resetMotion_pp (s : State) : (resetMotion s).pp = s.pp := rfl
@[simp] theorem resetMotion_gm (s : State) : (resetMotion s).gm = s.gm := rfl
@[simp] theorem resetMotion_bu (s : State) : (resetMotion s).bu = s.bu := rfl
@[simp] theorem resetMotion_lc (s : State) : (resetMotion s).lc = s.lc := rfl
@[simp] theorem resetMotion_ll (s : State) : (resetMotion s).ll = s.ll := rfl
@[simp] theorem resetMotion_pins (s : State) : (resetMotion s).pins = s.pins := rfl
@[simp] theorem resetMotion_inReset (s : State) : (resetMotion s).inReset = s.inReset := rfl
@[simp] theorem resetMotion_countIndex (s : State) : (resetMotion s).countIndex = s.countIndex := rfl
@[simp] theorem resetMotion_pending (s : State) : (resetMotion s).pending = s.pending := rfl

@[simp] theorem resetFiring_mu (s : State) : (resetFiring s).mu = s.mu := by dsimp only [resetFiring]
@[simp] theorem resetFiring_au (s : State) : (resetFiring s).au = s.au := by dsimp only [resetFiring]
@[simp] theorem resetFiring_tu (s : State) : (resetFiring s).tu = s.tu := by dsimp only [resetFiring]
@[simp] theorem resetFiring_cu (s : State) : (resetFiring s).cu = s.cu := by dsimp only [resetFiring]
@[simp] theorem resetFiring_pp (s : State) : (resetFiring s).pp = s.pp := by dsimp only [resetFiring]
@[simp] theorem resetFiring_gm (s : State) : (resetFiring s).gm = s.gm := by dsimp only [resetFiring]
@[simp] theorem resetFiring_bu (s : State) : (resetFiring s).bu = s.bu := by dsimp only [resetFiring]
@[simp] theorem resetFiring_lc (s : State) : (resetFiring s).lc = s.lc := by dsimp only [resetFiring]
@[simp] theorem resetFiring_ll (s : State) : (resetFiring s).ll = s.ll := by dsimp only [resetFiring]
@[simp] theorem resetFiring_pins (s : State) : (resetFiring s).pins = s.pins := by dsimp only [resetFiring]
@[simp] theorem resetFiring_inReset (s : State) : (resetFiring s).inReset = s.inReset := by dsimp only [resetFiring]
@[simp] theorem resetFiring_countIndex (s : State) : (resetFiring s).countIndex = s.countIndex := by dsimp only [resetFiring]
@[simp] theorem resetFiring_pending (s : State) : (resetFiring s).pending = s.pending := by dsimp only [resetFiring]

@[simp] theorem resetAdmission_mu (s : State) : (resetAdmission s).mu = s.mu := by dsimp only [resetAdmission]
@[simp] theorem resetAdmission_fu (s : State) : (resetAdmission s).fu = s.fu := by dsimp only [resetAdmission]
@[simp] theorem resetAdmission_tu (s : State) : (resetAdmission s).tu = s.tu := by dsimp only [resetAdmission]
@[simp] theorem resetAdmission_cu (s : State) : (resetAdmission s).cu = s.cu := by dsimp only [resetAdmission]
@[simp] theorem resetAdmission_pp (s : State) : (resetAdmission s).pp = s.pp := by dsimp only [resetAdmission]
@[simp] theorem resetAdmission_gm (s : State) : (resetAdmission s).gm = s.gm := by dsimp only [resetAdmission]
@[simp] theorem resetAdmission_bu (s : State) : (resetAdmission s).bu = s.bu := by dsimp only [resetAdmission]
@[simp] theorem resetAdmission_lc (s : State) : (resetAdmission s).lc = s.lc := by dsimp only [resetAdmission]
@[simp] theorem resetAdmission_ll (s : State) : (resetAdmission s).ll = s.ll := by dsimp only [resetAdmission]
@[simp] theorem resetAdmission_pins (s : State) : (resetAdmission s).pins = s.pins := by dsimp only [resetAdmission]
@[simp] theorem resetAdmission_inReset (s : State) : (resetAdmission s).inReset = s.inReset := by dsimp only [resetAdmission]
@[simp] theorem resetAdmission_countIndex (s : State) : (resetAdmission s).countIndex = s.countIndex := by dsimp only [resetAdmission]
@[simp] theorem resetAdmission_pending (s : State) : (resetAdmission s).pending = s.pending := by dsimp only [resetAdmission]

@[simp] theorem resetTrack_mu (s : State) : (resetTrack s).mu = s.mu := rfl
@[simp] theorem resetTrack_fu (s : State) : (resetTrack s).fu = s.fu := rfl
@[simp] theorem resetTrack_au (s : State) : (resetTrack s).au = s.au := rfl
@[simp] theorem resetTrack_cu (s : State) : (resetTrack s).cu = s.cu := rfl
@[simp] theorem resetTrack_pp (s : State) : (resetTrack s).pp = s.pp := rfl
@[simp] theorem resetTrack_gm (s : State) : (resetTrack s).gm = s.gm := rfl
@[simp] theorem resetTrack_bu (s : State) : (resetTrack s).bu = s.bu := rfl
@[simp] theorem resetTrack_lc (s : State) : (resetTrack s).lc = s.lc := rfl
@[simp] theorem resetTrack_ll (s : State) : (resetTrack s).ll = s.ll := rfl
@[simp] theorem resetTrack_pins (s : State) : (resetTrack s).pins = s.pins := rfl
@[simp] theorem resetTrack_inReset (s : State) : (resetTrack s).inReset = s.inReset := rfl
@[simp] theorem resetTrack_countIndex (s : State) : (resetTrack s).countIndex = s.countIndex := rfl
@[simp] theorem resetTrack_pending (s : State) : (resetTrack s).pending = s.pending := rfl

@[simp] theorem resetChecks_mu (s : State) : (resetChecks s).mu = s.mu := by dsimp only [resetChecks]
@[simp] theorem resetChecks_fu (s : State) : (resetChecks s).fu = s.fu := by dsimp only [resetChecks]
@[simp] theorem resetChecks_au (s : State) : (resetChecks s).au = s.au := by dsimp only [resetChecks]
@[simp] theorem resetChecks_tu (s : State) : (resetChecks s).tu = s.tu := by dsimp only [resetChecks]
@[simp] theorem resetChecks_pp (s : State) : (resetChecks s).pp = s.pp := by dsimp only [resetChecks]
@[simp] theorem resetChecks_gm (s : State) : (resetChecks s).gm = s.gm := by dsimp only [resetChecks]
@[simp] theorem resetChecks_bu (s : State) : (resetChecks s).bu = s.bu := by dsimp only [resetChecks]
@[simp] theorem resetChecks_lc (s : State) : (resetChecks s).lc = s.lc := by dsimp only [resetChecks]
@[simp] theorem resetChecks_ll (s : State) : (resetChecks s).ll = s.ll := by dsimp only [resetChecks]
@[simp] theorem resetChecks_pins (s : State) : (resetChecks s).pins = s.pins := by dsimp only [resetChecks]
@[simp] theorem resetChecks_inReset (s : State) : (resetChecks s).inReset = s.inReset := by dsimp only [resetChecks]
@[simp] theorem resetChecks_countIndex (s : State) : (resetChecks s).countIndex = s.countIndex := by dsimp only [resetChecks]
@[simp] theorem resetChecks_pending (s : State) : (resetChecks s).pending = s.pending := by dsimp only [resetChecks]

@[simp] theorem resetGate_mu (s : State) : (resetGate s).mu = s.mu := rfl
@[simp] theorem resetGate_fu (s : State) : (resetGate s).fu = s.fu := rfl
@[simp] theorem resetGate_au (s : State) : (resetGate s).au = s.au := rfl
@[simp] theorem resetGate_tu (s : State) : (resetGate s).tu = s.tu := rfl
@[simp] theorem resetGate_cu (s : State) : (resetGate s).cu = s.cu := rfl
@[simp] theorem resetGate_pp (s : State) : (resetGate s).pp = s.pp := rfl
@[simp] theorem resetGate_bu (s : State) : (resetGate s).bu = s.bu := rfl
@[simp] theorem resetGate_lc (s : State) : (resetGate s).lc = s.lc := rfl
@[simp] theorem resetGate_ll (s : State) : (resetGate s).ll = s.ll := rfl
@[simp] theorem resetGate_pins (s : State) : (resetGate s).pins = s.pins := rfl
@[simp] theorem resetGate_inReset (s : State) : (resetGate s).inReset = s.inReset := rfl
@[simp] theorem resetGate_countIndex (s : State) : (resetGate s).countIndex = s.countIndex := rfl
@[simp] theorem resetGate_pending (s : State) : (resetGate s).pending = s.pending := rfl

@[simp] theorem resetBundles_mu (s : State) : (resetBundles s).mu = s.mu := rfl
@[simp] theorem resetBundles_fu (s : State) : (resetBundles s).fu = s.fu := rfl
@[simp] theorem resetBundles_au (s : State) : (resetBundles s).au = s.au := rfl
@[simp] theorem resetBundles_tu (s : State) : (resetBundles s).tu = s.tu := rfl
@[simp] theorem resetBundles_cu (s : State) : (resetBundles s).cu = s.cu := rfl
@[simp] theorem resetBundles_pp (s : State) : (resetBundles s).pp = s.pp := rfl
@[simp] theorem resetBundles_gm (s : State) : (resetBundles s).gm = s.gm := rfl
@[simp] theorem resetBundles_lc (s : State) : (resetBundles s).lc = s.lc := rfl
@[simp] theorem resetBundles_ll (s : State) : (resetBundles s).ll = s.ll := rfl
@[simp] theorem resetBundles_pins (s : State) : (resetBundles s).pins = s.pins := rfl
@[simp] theorem resetBundles_inReset (s : State) : (resetBundles s).inReset = s.inReset := rfl
@[simp] theorem resetBundles_countIndex (s : State) : (resetBundles s).countIndex = s.countIndex := rfl
@[simp] theorem resetBundles_pending (s : State) : (resetBundles s).pending = s.pending := rfl

@[simp] theorem resetLink_mu (s : State) : (resetLink s).mu = s.mu := rfl
@[simp] theorem resetLink_fu (s : State) : (resetLink s).fu = s.fu := rfl
@[simp] theorem resetLink_au (s : State) : (resetLink s).au = s.au := rfl
@[simp] theorem resetLink_tu (s : State) : (resetLink s).tu = s.tu := rfl
@[simp] theorem resetLink_cu (s : State) : (resetLink s).cu = s.cu := rfl
@[simp] theorem resetLink_pp (s : State) : (resetLink s).pp = s.pp := rfl
@[simp] theorem resetLink_gm (s : State) : (resetLink s).gm = s.gm := rfl
@[simp] theorem resetLink_bu (s : State) : (resetLink s).bu = s.bu := rfl
@[simp] theorem resetLink_lc (s : State) : (resetLink s).lc = s.lc := rfl
@[simp] theorem resetLink_pins (s : State) : (resetLink s).pins = s.pins := rfl
@[simp] theorem resetLink_inReset (s : State) : (resetLink s).inReset = s.inReset := rfl
@[simp] theorem resetLink_countIndex (s : State) : (resetLink s).countIndex = s.countIndex := rfl
@[simp] theorem resetLink_pending (s : State) : (resetLink s).pending = s.pending := rfl

@[simp] theorem resetLine_mu (s : State) : (resetLine s).mu = s.mu := rfl
@[simp] theorem resetLine_fu (s : State) : (resetLine s).fu = s.fu := rfl
@[simp] theorem resetLine_au (s : State) : (resetLine s).au = s.au := rfl
@[simp] theorem resetLine_tu (s : State) : (resetLine s).tu = s.tu := rfl
@[simp] theorem resetLine_cu (s : State) : (resetLine s).cu = s.cu := rfl
@[simp] theorem resetLine_pp (s : State) : (resetLine s).pp = s.pp := rfl
@[simp] theorem resetLine_gm (s : State) : (resetLine s).gm = s.gm := rfl
@[simp] theorem resetLine_bu (s : State) : (resetLine s).bu = s.bu := rfl
@[simp] theorem resetLine_ll (s : State) : (resetLine s).ll = s.ll := rfl
@[simp] theorem resetLine_pins (s : State) : (resetLine s).pins = s.pins := rfl
@[simp] theorem resetLine_inReset (s : State) : (resetLine s).inReset = s.inReset := rfl
@[simp] theorem resetLine_countIndex (s : State) : (resetLine s).countIndex = s.countIndex := rfl
@[simp] theorem resetLine_pending (s : State) : (resetLine s).pending = s.pending := rfl

@[simp] theorem setReceive_mu (r : ReceiveState) (s : State) : (setReceive r s).mu = s.mu := rfl
@[simp] theorem setReceive_fu (r : ReceiveState) (s : State) : (setReceive r s).fu = s.fu := rfl
@[simp] theorem setReceive_au (r : ReceiveState) (s : State) : (setReceive r s).au = s.au := rfl
@[simp] theorem setReceive_tu (r : ReceiveState) (s : State) : (setReceive r s).tu = s.tu := rfl
@[simp] theorem setReceive_cu (r : ReceiveState) (s : State) : (setReceive r s).cu = s.cu := rfl
@[simp] theorem setReceive_pp (r : ReceiveState) (s : State) : (setReceive r s).pp = s.pp := rfl
@[simp] theorem setReceive_gm (r : ReceiveState) (s : State) : (setReceive r s).gm = s.gm := rfl
@[simp] theorem setReceive_bu (r : ReceiveState) (s : State) : (setReceive r s).bu = s.bu := rfl
@[simp] theorem setReceive_lc (r : ReceiveState) (s : State) : (setReceive r s).lc = s.lc := rfl
@[simp] theorem setReceive_pins (r : ReceiveState) (s : State) : (setReceive r s).pins = s.pins := rfl
@[simp] theorem setReceive_inReset (r : ReceiveState) (s : State) : (setReceive r s).inReset = s.inReset := rfl
@[simp] theorem setReceive_countIndex (r : ReceiveState) (s : State) : (setReceive r s).countIndex = s.countIndex := rfl
@[simp] theorem setReceive_pending (r : ReceiveState) (s : State) : (setReceive r s).pending = s.pending := rfl

@[simp] theorem setBuffer_mu (f : FrameBuffer → FrameBuffer) (s : State) : (setBuffer f s).mu = s.mu := rfl
@[simp] theorem setBuffer_fu (f : FrameBuffer → FrameBuffer) (s : State) : (setBuffer f s).fu = s.fu := rfl
@[simp] theorem setBuffer_au (f : FrameBuffer → FrameBuffer) (s : State) : (setBuffer f s).au = s.au := rfl
@[simp] theorem setBuffer_tu (f : FrameBuffer → FrameBuffer) (s : State) : (setBuffer f s).tu = s.tu := rfl
@[simp] theorem setBuffer_cu (f : FrameBuffer → FrameBuffer) (s : State) : (setBuffer f s).cu = s.cu := rfl
@[simp] theorem setBuffer_pp (f : FrameBuffer → FrameBuffer) (s : State) : (setBuffer f s).pp = s.pp := rfl
@[simp] theorem setBuffer_gm (f : FrameBuffer → FrameBuffer) (s : State) : (setBuffer f s).gm = s.gm := rfl
@[simp] theorem setBuffer_bu (f : FrameBuffer → FrameBuffer) (s : State) : (setBuffer f s).bu = s.bu := rfl
@[simp] theorem setBuffer_lc (f : FrameBuffer → FrameBuffer) (s : State) : (setBuffer f s).lc = s.lc := rfl
@[simp] theorem setBuffer_pins (f : FrameBuffer → FrameBuffer) (s : State) : (setBuffer f s).pins = s.pins := rfl
@[simp] theorem setBuffer_inReset (f : FrameBuffer → FrameBuffer) (s : State) : (setBuffer f s).inReset = s.inReset := rfl
@[simp] theorem setBuffer_countIndex (f : FrameBuffer → FrameBuffer) (s : State) : (setBuffer f s).countIndex = s.countIndex := rfl
@[simp] theorem setBuffer_pending (f : FrameBuffer → FrameBuffer) (s : State) : (setBuffer f s).pending = s.pending := rfl

@[simp] theorem overrunFrame_mu (payload : List Byte) (s : State) : (overrunFrame payload s).mu = s.mu := rfl
@[simp] theorem overrunFrame_fu (payload : List Byte) (s : State) : (overrunFrame payload s).fu = s.fu := rfl
@[simp] theorem overrunFrame_au (payload : List Byte) (s : State) : (overrunFrame payload s).au = s.au := rfl
@[simp] theorem overrunFrame_tu (payload : List Byte) (s : State) : (overrunFrame payload s).tu = s.tu := rfl
@[simp] theorem overrunFrame_cu (payload : List Byte) (s : State) : (overrunFrame payload s).cu = s.cu := rfl
@[simp] theorem overrunFrame_pp (payload : List Byte) (s : State) : (overrunFrame payload s).pp = s.pp := rfl
@[simp] theorem overrunFrame_gm (payload : List Byte) (s : State) : (overrunFrame payload s).gm = s.gm := rfl
@[simp] theorem overrunFrame_bu (payload : List Byte) (s : State) : (overrunFrame payload s).bu = s.bu := rfl
@[simp] theorem overrunFrame_lc (payload : List Byte) (s : State) : (overrunFrame payload s).lc = s.lc := rfl
@[simp] theorem overrunFrame_pins (payload : List Byte) (s : State) : (overrunFrame payload s).pins = s.pins := rfl
@[simp] theorem overrunFrame_inReset (payload : List Byte) (s : State) : (overrunFrame payload s).inReset = s.inReset := rfl
@[simp] theorem overrunFrame_countIndex (payload : List Byte) (s : State) : (overrunFrame payload s).countIndex = s.countIndex := rfl
@[simp] theorem overrunFrame_pending (payload : List Byte) (s : State) : (overrunFrame payload s).pending = s.pending := rfl

@[simp] theorem setReader_mu (r : PortReceive) (s : State) : (setReader r s).mu = s.mu := rfl
@[simp] theorem setReader_fu (r : PortReceive) (s : State) : (setReader r s).fu = s.fu := rfl
@[simp] theorem setReader_au (r : PortReceive) (s : State) : (setReader r s).au = s.au := rfl
@[simp] theorem setReader_tu (r : PortReceive) (s : State) : (setReader r s).tu = s.tu := rfl
@[simp] theorem setReader_pp (r : PortReceive) (s : State) : (setReader r s).pp = s.pp := rfl
@[simp] theorem setReader_gm (r : PortReceive) (s : State) : (setReader r s).gm = s.gm := rfl
@[simp] theorem setReader_bu (r : PortReceive) (s : State) : (setReader r s).bu = s.bu := rfl
@[simp] theorem setReader_lc (r : PortReceive) (s : State) : (setReader r s).lc = s.lc := rfl
@[simp] theorem setReader_ll (r : PortReceive) (s : State) : (setReader r s).ll = s.ll := rfl
@[simp] theorem setReader_pins (r : PortReceive) (s : State) : (setReader r s).pins = s.pins := rfl
@[simp] theorem setReader_inReset (r : PortReceive) (s : State) : (setReader r s).inReset = s.inReset := rfl
@[simp] theorem setReader_countIndex (r : PortReceive) (s : State) : (setReader r s).countIndex = s.countIndex := rfl
@[simp] theorem setReader_pending (r : PortReceive) (s : State) : (setReader r s).pending = s.pending := rfl

@[simp] theorem setPrinterReceive_mu (r : PortReceive) (s : State) : (setPrinterReceive r s).mu = s.mu := rfl
@[simp] theorem setPrinterReceive_fu (r : PortReceive) (s : State) : (setPrinterReceive r s).fu = s.fu := rfl
@[simp] theorem setPrinterReceive_au (r : PortReceive) (s : State) : (setPrinterReceive r s).au = s.au := rfl
@[simp] theorem setPrinterReceive_tu (r : PortReceive) (s : State) : (setPrinterReceive r s).tu = s.tu := rfl
@[simp] theorem setPrinterReceive_cu (r : PortReceive) (s : State) : (setPrinterReceive r s).cu = s.cu := rfl
@[simp] theorem setPrinterReceive_gm (r : PortReceive) (s : State) : (setPrinterReceive r s).gm = s.gm := rfl
@[simp] theorem setPrinterReceive_bu (r : PortReceive) (s : State) : (setPrinterReceive r s).bu = s.bu := rfl
@[simp] theorem setPrinterReceive_lc (r : PortReceive) (s : State) : (setPrinterReceive r s).lc = s.lc := rfl
@[simp] theorem setPrinterReceive_ll (r : PortReceive) (s : State) : (setPrinterReceive r s).ll = s.ll := rfl
@[simp] theorem setPrinterReceive_pins (r : PortReceive) (s : State) : (setPrinterReceive r s).pins = s.pins := rfl
@[simp] theorem setPrinterReceive_inReset (r : PortReceive) (s : State) : (setPrinterReceive r s).inReset = s.inReset := rfl
@[simp] theorem setPrinterReceive_countIndex (r : PortReceive) (s : State) : (setPrinterReceive r s).countIndex = s.countIndex := rfl
@[simp] theorem setPrinterReceive_pending (r : PortReceive) (s : State) : (setPrinterReceive r s).pending = s.pending := rfl

@[simp] theorem countPrinterError_mu (s : State) : (countPrinterError s).mu = s.mu := rfl
@[simp] theorem countPrinterError_fu (s : State) : (countPrinterError s).fu = s.fu := rfl
@[simp] theorem countPrinterError_au (s : State) : (countPrinterError s).au = s.au := rfl
@[simp] theorem countPrinterError_tu (s : State) : (countPrinterError s).tu = s.tu := rfl
@[simp] theorem countPrinterError_cu (s : State) : (countPrinterError s).cu = s.cu := rfl
@[simp] theorem countPrinterError_gm (s : State) : (countPrinterError s).gm = s.gm := rfl
@[simp] theorem countPrinterError_bu (s : State) : (countPrinterError s).bu = s.bu := rfl
@[simp] theorem countPrinterError_lc (s : State) : (countPrinterError s).lc = s.lc := rfl
@[simp] theorem countPrinterError_ll (s : State) : (countPrinterError s).ll = s.ll := rfl
@[simp] theorem countPrinterError_pins (s : State) : (countPrinterError s).pins = s.pins := rfl
@[simp] theorem countPrinterError_inReset (s : State) : (countPrinterError s).inReset = s.inReset := rfl
@[simp] theorem countPrinterError_countIndex (s : State) : (countPrinterError s).countIndex = s.countIndex := rfl
@[simp] theorem countPrinterError_pending (s : State) : (countPrinterError s).pending = s.pending := rfl

@[simp] theorem setPins_mu (p : Pins) (s : State) : (setPins p s).mu = s.mu := rfl
@[simp] theorem setPins_fu (p : Pins) (s : State) : (setPins p s).fu = s.fu := rfl
@[simp] theorem setPins_au (p : Pins) (s : State) : (setPins p s).au = s.au := rfl
@[simp] theorem setPins_tu (p : Pins) (s : State) : (setPins p s).tu = s.tu := rfl
@[simp] theorem setPins_cu (p : Pins) (s : State) : (setPins p s).cu = s.cu := rfl
@[simp] theorem setPins_pp (p : Pins) (s : State) : (setPins p s).pp = s.pp := rfl
@[simp] theorem setPins_gm (p : Pins) (s : State) : (setPins p s).gm = s.gm := rfl
@[simp] theorem setPins_bu (p : Pins) (s : State) : (setPins p s).bu = s.bu := rfl
@[simp] theorem setPins_lc (p : Pins) (s : State) : (setPins p s).lc = s.lc := rfl
@[simp] theorem setPins_ll (p : Pins) (s : State) : (setPins p s).ll = s.ll := rfl
@[simp] theorem setPins_inReset (p : Pins) (s : State) : (setPins p s).inReset = s.inReset := rfl
@[simp] theorem setPins_countIndex (p : Pins) (s : State) : (setPins p s).countIndex = s.countIndex := rfl
@[simp] theorem setPins_pending (p : Pins) (s : State) : (setPins p s).pending = s.pending := rfl

@[simp] theorem enterReset_mu (s : State) : (enterReset s).mu = s.mu := by simp [enterReset]
@[simp] theorem enterReset_au (s : State) : (enterReset s).au = s.au := by simp [enterReset]
@[simp] theorem enterReset_tu (s : State) : (enterReset s).tu = s.tu := by simp [enterReset]
@[simp] theorem enterReset_cu (s : State) : (enterReset s).cu = s.cu := by simp [enterReset]
@[simp] theorem enterReset_pp (s : State) : (enterReset s).pp = s.pp := by simp [enterReset]
@[simp] theorem enterReset_gm (s : State) : (enterReset s).gm = s.gm := by simp [enterReset]
@[simp] theorem enterReset_bu (s : State) : (enterReset s).bu = s.bu := by simp [enterReset]
@[simp] theorem enterReset_lc (s : State) : (enterReset s).lc = s.lc := by simp [enterReset]
@[simp] theorem enterReset_ll (s : State) : (enterReset s).ll = s.ll := by simp [enterReset]
@[simp] theorem enterReset_pins (s : State) : (enterReset s).pins = s.pins := by simp [enterReset]
@[simp] theorem enterReset_countIndex (s : State) : (enterReset s).countIndex = s.countIndex := by simp [enterReset]
@[simp] theorem enterReset_pending (s : State) : (enterReset s).pending = s.pending := by simp [enterReset]

@[simp] theorem lineOk_state (data : List Byte) (s : State) : (lineOk data s).1 = s := rfl
@[simp] theorem stateRefusal_state (reason : Byte) (s : State) : (stateRefusal reason s).1 = s := rfl

end Sys2Proof.Machine
end

