-- ==== Sys2Proof/Laws/Frames.lean ====
section
/-! SUPPORT. What each shared operation leaves alone: one lemma for each operation and each unit it does not touch. -/

-- The lemmas of this file are elaborated one after another: side by side, each waits for the others on a thread of its own.
set_option Elab.async false

namespace Sys2Proof.Machine

/-- A quantity that an operation keeps at every station is kept by the operation run for all of them. -/
theorem forStations_keeps {α : Type} (q : State → α) (f : StationNo → State → State)
    (h : ∀ i s, q (f i s) = q s) (s : State) : q (forStations f s) = q s := by
  have key : ∀ (l : List StationNo) (s : State), q (l.foldl (fun s i => f i s) s) = q s := by
    intro l
    induction l with
    | nil => intro s; rfl
    | cons i l ih => intro s; rw [List.foldl_cons, ih, h]
  exact key stationNos s

@[simp] theorem forStations_mu (f : StationNo → State → State) (h : ∀ i s, (f i s).mu = s.mu) (s : State) :
    (forStations f s).mu = s.mu := forStations_keeps (fun s => s.mu) f h s
@[simp] theorem forStations_fu (f : StationNo → State → State) (h : ∀ i s, (f i s).fu = s.fu) (s : State) :
    (forStations f s).fu = s.fu := forStations_keeps (fun s => s.fu) f h s
@[simp] theorem forStations_au (f : StationNo → State → State) (h : ∀ i s, (f i s).au = s.au) (s : State) :
    (forStations f s).au = s.au := forStations_keeps (fun s => s.au) f h s
@[simp] theorem forStations_tu (f : StationNo → State → State) (h : ∀ i s, (f i s).tu = s.tu) (s : State) :
    (forStations f s).tu = s.tu := forStations_keeps (fun s => s.tu) f h s
@[simp] theorem forStations_cu (f : StationNo → State → State) (h : ∀ i s, (f i s).cu = s.cu) (s : State) :
    (forStations f s).cu = s.cu := forStations_keeps (fun s => s.cu) f h s
@[simp] theorem forStations_pp (f : StationNo → State → State) (h : ∀ i s, (f i s).pp = s.pp) (s : State) :
    (forStations f s).pp = s.pp := forStations_keeps (fun s => s.pp) f h s
@[simp] theorem forStations_gm (f : StationNo → State → State) (h : ∀ i s, (f i s).gm = s.gm) (s : State) :
    (forStations f s).gm = s.gm := forStations_keeps (fun s => s.gm) f h s
@[simp] theorem forStations_bu (f : StationNo → State → State) (h : ∀ i s, (f i s).bu = s.bu) (s : State) :
    (forStations f s).bu = s.bu := forStations_keeps (fun s => s.bu) f h s
@[simp] theorem forStations_lc (f : StationNo → State → State) (h : ∀ i s, (f i s).lc = s.lc) (s : State) :
    (forStations f s).lc = s.lc := forStations_keeps (fun s => s.lc) f h s
@[simp] theorem forStations_ll (f : StationNo → State → State) (h : ∀ i s, (f i s).ll = s.ll) (s : State) :
    (forStations f s).ll = s.ll := forStations_keeps (fun s => s.ll) f h s
@[simp] theorem forStations_pins (f : StationNo → State → State) (h : ∀ i s, (f i s).pins = s.pins) (s : State) :
    (forStations f s).pins = s.pins := forStations_keeps (fun s => s.pins) f h s
@[simp] theorem forStations_inReset (f : StationNo → State → State) (h : ∀ i s, (f i s).inReset = s.inReset) (s : State) :
    (forStations f s).inReset = s.inReset := forStations_keeps (fun s => s.inReset) f h s
@[simp] theorem forStations_countIndex (f : StationNo → State → State) (h : ∀ i s, (f i s).countIndex = s.countIndex) (s : State) :
    (forStations f s).countIndex = s.countIndex := forStations_keeps (fun s => s.countIndex) f h s
@[simp] theorem forStations_pending (f : StationNo → State → State) (h : ∀ i s, (f i s).pending = s.pending) (s : State) :
    (forStations f s).pending = s.pending := forStations_keeps (fun s => s.pending) f h s

@[simp] theorem raiseNotice_mu (n : Notice) (s : State) : (raiseNotice n s).mu = s.mu := by unfold raiseNotice; (repeat' split) <;> simp
@[simp] theorem raiseNotice_fu (n : Notice) (s : State) : (raiseNotice n s).fu = s.fu := by unfold raiseNotice; (repeat' split) <;> simp
@[simp] theorem raiseNotice_au (n : Notice) (s : State) : (raiseNotice n s).au = s.au := by unfold raiseNotice; (repeat' split) <;> simp
@[simp] theorem raiseNotice_tu (n : Notice) (s : State) : (raiseNotice n s).tu = s.tu := by unfold raiseNotice; (repeat' split) <;> simp
@[simp] theorem raiseNotice_cu (n : Notice) (s : State) : (raiseNotice n s).cu = s.cu := by unfold raiseNotice; (repeat' split) <;> simp
@[simp] theorem raiseNotice_pp (n : Notice) (s : State) : (raiseNotice n s).pp = s.pp := by unfold raiseNotice; (repeat' split) <;> simp
@[simp] theorem raiseNotice_gm (n : Notice) (s : State) : (raiseNotice n s).gm = s.gm := by unfold raiseNotice; (repeat' split) <;> simp
@[simp] theorem raiseNotice_bu (n : Notice) (s : State) : (raiseNotice n s).bu = s.bu := by unfold raiseNotice; (repeat' split) <;> simp
@[simp] theorem raiseNotice_lc (n : Notice) (s : State) : (raiseNotice n s).lc = s.lc := by unfold raiseNotice; (repeat' split) <;> simp
@[simp] theorem raiseNotice_pins (n : Notice) (s : State) : (raiseNotice n s).pins = s.pins := by unfold raiseNotice; (repeat' split) <;> simp
@[simp] theorem raiseNotice_inReset (n : Notice) (s : State) : (raiseNotice n s).inReset = s.inReset := by unfold raiseNotice; (repeat' split) <;> simp
@[simp] theorem raiseNotice_countIndex (n : Notice) (s : State) : (raiseNotice n s).countIndex = s.countIndex := by unfold raiseNotice; (repeat' split) <;> simp
@[simp] theorem raiseNotice_pending (n : Notice) (s : State) : (raiseNotice n s).pending = s.pending := by unfold raiseNotice; (repeat' split) <;> simp

@[simp] theorem addHold_mu (c : HoldCause) (s : State) : (addHold c s).mu = s.mu := by unfold addHold; split <;> simp
@[simp] theorem addHold_fu (c : HoldCause) (s : State) : (addHold c s).fu = s.fu := by unfold addHold; split <;> simp
@[simp] theorem addHold_au (c : HoldCause) (s : State) : (addHold c s).au = s.au := by unfold addHold; split <;> simp
@[simp] theorem addHold_tu (c : HoldCause) (s : State) : (addHold c s).tu = s.tu := by unfold addHold; split <;> simp
@[simp] theorem addHold_cu (c : HoldCause) (s : State) : (addHold c s).cu = s.cu := by unfold addHold; split <;> simp
@[simp] theorem addHold_pp (c : HoldCause) (s : State) : (addHold c s).pp = s.pp := by unfold addHold; split <;> simp
@[simp] theorem addHold_gm (c : HoldCause) (s : State) : (addHold c s).gm = s.gm := by unfold addHold; split <;> simp
@[simp] theorem addHold_bu (c : HoldCause) (s : State) : (addHold c s).bu = s.bu := by unfold addHold; split <;> simp
@[simp] theorem addHold_pins (c : HoldCause) (s : State) : (addHold c s).pins = s.pins := by unfold addHold; split <;> simp
@[simp] theorem addHold_inReset (c : HoldCause) (s : State) : (addHold c s).inReset = s.inReset := by unfold addHold; split <;> simp
@[simp] theorem addHold_countIndex (c : HoldCause) (s : State) : (addHold c s).countIndex = s.countIndex := by unfold addHold; split <;> simp
@[simp] theorem addHold_pending (c : HoldCause) (s : State) : (addHold c s).pending = s.pending := by unfold addHold; split <;> simp

@[simp] theorem reduceHolds_mu (h : HoldSet) (s : State) : (reduceHolds h s).mu = s.mu := by unfold reduceHolds; split <;> simp
@[simp] theorem reduceHolds_fu (h : HoldSet) (s : State) : (reduceHolds h s).fu = s.fu := by unfold reduceHolds; split <;> simp
@[simp] theorem reduceHolds_au (h : HoldSet) (s : State) : (reduceHolds h s).au = s.au := by unfold reduceHolds; split <;> simp
@[simp] theorem reduceHolds_tu (h : HoldSet) (s : State) : (reduceHolds h s).tu = s.tu := by unfold reduceHolds; split <;> simp
@[simp] theorem reduceHolds_cu (h : HoldSet) (s : State) : (reduceHolds h s).cu = s.cu := by unfold reduceHolds; split <;> simp
@[simp] theorem reduceHolds_pp (h : HoldSet) (s : State) : (reduceHolds h s).pp = s.pp := by unfold reduceHolds; split <;> simp
@[simp] theorem reduceHolds_gm (h : HoldSet) (s : State) : (reduceHolds h s).gm = s.gm := by unfold reduceHolds; split <;> simp
@[simp] theorem reduceHolds_bu (h : HoldSet) (s : State) : (reduceHolds h s).bu = s.bu := by unfold reduceHolds; split <;> simp
@[simp] theorem reduceHolds_pins (h : HoldSet) (s : State) : (reduceHolds h s).pins = s.pins := by unfold reduceHolds; split <;> simp
@[simp] theorem reduceHolds_inReset (h : HoldSet) (s : State) : (reduceHolds h s).inReset = s.inReset := by unfold reduceHolds; split <;> simp
@[simp] theorem reduceHolds_countIndex (h : HoldSet) (s : State) : (reduceHolds h s).countIndex = s.countIndex := by unfold reduceHolds; split <;> simp
@[simp] theorem reduceHolds_pending (h : HoldSet) (s : State) : (reduceHolds h s).pending = s.pending := by unfold reduceHolds; split <;> simp

@[simp] theorem abandonMeasurement_mu (i : StationNo) (s : State) : (abandonMeasurement i s).mu = s.mu := by unfold abandonMeasurement; split <;> simp
@[simp] theorem abandonMeasurement_fu (i : StationNo) (s : State) : (abandonMeasurement i s).fu = s.fu := by unfold abandonMeasurement; split <;> simp
@[simp] theorem abandonMeasurement_au (i : StationNo) (s : State) : (abandonMeasurement i s).au = s.au := by unfold abandonMeasurement; split <;> simp
@[simp] theorem abandonMeasurement_pp (i : StationNo) (s : State) : (abandonMeasurement i s).pp = s.pp := by unfold abandonMeasurement; split <;> simp
@[simp] theorem abandonMeasurement_gm (i : StationNo) (s : State) : (abandonMeasurement i s).gm = s.gm := by unfold abandonMeasurement; split <;> simp
@[simp] theorem abandonMeasurement_bu (i : StationNo) (s : State) : (abandonMeasurement i s).bu = s.bu := by unfold abandonMeasurement; split <;> simp
@[simp] theorem abandonMeasurement_lc (i : StationNo) (s : State) : (abandonMeasurement i s).lc = s.lc := by unfold abandonMeasurement; split <;> simp
@[simp] theorem abandonMeasurement_ll (i : StationNo) (s : State) : (abandonMeasurement i s).ll = s.ll := by unfold abandonMeasurement; split <;> simp
@[simp] theorem abandonMeasurement_pins (i : StationNo) (s : State) : (abandonMeasurement i s).pins = s.pins := by unfold abandonMeasurement; split <;> simp
@[simp] theorem abandonMeasurement_inReset (i : StationNo) (s : State) : (abandonMeasurement i s).inReset = s.inReset := by unfold abandonMeasurement; split <;> simp
@[simp] theorem abandonMeasurement_countIndex (i : StationNo) (s : State) : (abandonMeasurement i s).countIndex = s.countIndex := by unfold abandonMeasurement; split <;> simp
@[simp] theorem abandonMeasurement_pending (i : StationNo) (s : State) : (abandonMeasurement i s).pending = s.pending := by unfold abandonMeasurement; split <;> simp

@[simp] theorem leaveFiring_au (s : State) : (leaveFiring s).au = s.au := by simp [leaveFiring]
@[simp] theorem leaveFiring_pp (s : State) : (leaveFiring s).pp = s.pp := by simp [leaveFiring]
@[simp] theorem leaveFiring_gm (s : State) : (leaveFiring s).gm = s.gm := by simp [leaveFiring]
@[simp] theorem leaveFiring_bu (s : State) : (leaveFiring s).bu = s.bu := by simp [leaveFiring]
@[simp] theorem leaveFiring_lc (s : State) : (leaveFiring s).lc = s.lc := by simp [leaveFiring]
@[simp] theorem leaveFiring_ll (s : State) : (leaveFiring s).ll = s.ll := by simp [leaveFiring]
@[simp] theorem leaveFiring_pins (s : State) : (leaveFiring s).pins = s.pins := by simp [leaveFiring]
@[simp] theorem leaveFiring_inReset (s : State) : (leaveFiring s).inReset = s.inReset := by simp [leaveFiring]
@[simp] theorem leaveFiring_countIndex (s : State) : (leaveFiring s).countIndex = s.countIndex := by simp [leaveFiring]
@[simp] theorem leaveFiring_pending (s : State) : (leaveFiring s).pending = s.pending := by simp [leaveFiring]

@[simp] theorem stopLine_au (l : LineState) (s : State) : (stopLine l s).au = s.au := by unfold stopLine; split <;> simp
@[simp] theorem stopLine_pp (l : LineState) (s : State) : (stopLine l s).pp = s.pp := by unfold stopLine; split <;> simp
@[simp] theorem stopLine_gm (l : LineState) (s : State) : (stopLine l s).gm = s.gm := by unfold stopLine; split <;> simp
@[simp] theorem stopLine_bu (l : LineState) (s : State) : (stopLine l s).bu = s.bu := by unfold stopLine; split <;> simp
@[simp] theorem stopLine_ll (l : LineState) (s : State) : (stopLine l s).ll = s.ll := by unfold stopLine; split <;> simp
@[simp] theorem stopLine_pins (l : LineState) (s : State) : (stopLine l s).pins = s.pins := by unfold stopLine; split <;> simp
@[simp] theorem stopLine_inReset (l : LineState) (s : State) : (stopLine l s).inReset = s.inReset := by unfold stopLine; split <;> simp
@[simp] theorem stopLine_countIndex (l : LineState) (s : State) : (stopLine l s).countIndex = s.countIndex := by unfold stopLine; split <;> simp
@[simp] theorem stopLine_pending (l : LineState) (s : State) : (stopLine l s).pending = s.pending := by unfold stopLine; split <;> simp

@[simp] theorem reportTrackClear_au (s : State) : (reportTrackClear s).au = s.au := by unfold reportTrackClear; split <;> simp
@[simp] theorem reportTrackClear_pp (s : State) : (reportTrackClear s).pp = s.pp := by unfold reportTrackClear; split <;> simp
@[simp] theorem reportTrackClear_gm (s : State) : (reportTrackClear s).gm = s.gm := by unfold reportTrackClear; split <;> simp
@[simp] theorem reportTrackClear_bu (s : State) : (reportTrackClear s).bu = s.bu := by unfold reportTrackClear; split <;> simp
@[simp] theorem reportTrackClear_ll (s : State) : (reportTrackClear s).ll = s.ll := by unfold reportTrackClear; split <;> simp
@[simp] theorem reportTrackClear_pins (s : State) : (reportTrackClear s).pins = s.pins := by unfold reportTrackClear; split <;> simp
@[simp] theorem reportTrackClear_inReset (s : State) : (reportTrackClear s).inReset = s.inReset := by unfold reportTrackClear; split <;> simp
@[simp] theorem reportTrackClear_countIndex (s : State) : (reportTrackClear s).countIndex = s.countIndex := by unfold reportTrackClear; split <;> simp
@[simp] theorem reportTrackClear_pending (s : State) : (reportTrackClear s).pending = s.pending := by unfold reportTrackClear; split <;> simp

@[simp] theorem beginEpisode_au (c : FaultCause) (st : Option StationNo) (s : State) : (beginEpisode c st s).au = s.au := by simp [beginEpisode]
@[simp] theorem beginEpisode_pp (c : FaultCause) (st : Option StationNo) (s : State) : (beginEpisode c st s).pp = s.pp := by simp [beginEpisode]
@[simp] theorem beginEpisode_gm (c : FaultCause) (st : Option StationNo) (s : State) : (beginEpisode c st s).gm = s.gm := by simp [beginEpisode]
@[simp] theorem beginEpisode_bu (c : FaultCause) (st : Option StationNo) (s : State) : (beginEpisode c st s).bu = s.bu := by simp [beginEpisode]
@[simp] theorem beginEpisode_pins (c : FaultCause) (st : Option StationNo) (s : State) : (beginEpisode c st s).pins = s.pins := by simp [beginEpisode]
@[simp] theorem beginEpisode_inReset (c : FaultCause) (st : Option StationNo) (s : State) : (beginEpisode c st s).inReset = s.inReset := by simp [beginEpisode]
@[simp] theorem beginEpisode_countIndex (c : FaultCause) (st : Option StationNo) (s : State) : (beginEpisode c st s).countIndex = s.countIndex := by simp [beginEpisode]
@[simp] theorem beginEpisode_pending (c : FaultCause) (st : Option StationNo) (s : State) : (beginEpisode c st s).pending = s.pending := by simp [beginEpisode]

@[simp] theorem furtherFault_mu (c : FaultCause) (st : Option StationNo) (s : State) : (furtherFault c st s).mu = s.mu := by simp [furtherFault]
@[simp] theorem furtherFault_fu (c : FaultCause) (st : Option StationNo) (s : State) : (furtherFault c st s).fu = s.fu := by simp [furtherFault]
@[simp] theorem furtherFault_au (c : FaultCause) (st : Option StationNo) (s : State) : (furtherFault c st s).au = s.au := by simp [furtherFault]
@[simp] theorem furtherFault_tu (c : FaultCause) (st : Option StationNo) (s : State) : (furtherFault c st s).tu = s.tu := by simp [furtherFault]
@[simp] theorem furtherFault_cu (c : FaultCause) (st : Option StationNo) (s : State) : (furtherFault c st s).cu = s.cu := by simp [furtherFault]
@[simp] theorem furtherFault_pp (c : FaultCause) (st : Option StationNo) (s : State) : (furtherFault c st s).pp = s.pp := by simp [furtherFault]
@[simp] theorem furtherFault_gm (c : FaultCause) (st : Option StationNo) (s : State) : (furtherFault c st s).gm = s.gm := by simp [furtherFault]
@[simp] theorem furtherFault_bu (c : FaultCause) (st : Option StationNo) (s : State) : (furtherFault c st s).bu = s.bu := by simp [furtherFault]
@[simp] theorem furtherFault_pins (c : FaultCause) (st : Option StationNo) (s : State) : (furtherFault c st s).pins = s.pins := by simp [furtherFault]
@[simp] theorem furtherFault_inReset (c : FaultCause) (st : Option StationNo) (s : State) : (furtherFault c st s).inReset = s.inReset := by simp [furtherFault]
@[simp] theorem furtherFault_countIndex (c : FaultCause) (st : Option StationNo) (s : State) : (furtherFault c st s).countIndex = s.countIndex := by simp [furtherFault]
@[simp] theorem furtherFault_pending (c : FaultCause) (st : Option StationNo) (s : State) : (furtherFault c st s).pending = s.pending := by simp [furtherFault]

@[simp] theorem stopFault_au (c : FaultCause) (st : Option StationNo) (s : State) : (stopFault c st s).au = s.au := by unfold stopFault; split <;> simp
@[simp] theorem stopFault_pp (c : FaultCause) (st : Option StationNo) (s : State) : (stopFault c st s).pp = s.pp := by unfold stopFault; split <;> simp
@[simp] theorem stopFault_gm (c : FaultCause) (st : Option StationNo) (s : State) : (stopFault c st s).gm = s.gm := by unfold stopFault; split <;> simp
@[simp] theorem stopFault_bu (c : FaultCause) (st : Option StationNo) (s : State) : (stopFault c st s).bu = s.bu := by unfold stopFault; split <;> simp
@[simp] theorem stopFault_pins (c : FaultCause) (st : Option StationNo) (s : State) : (stopFault c st s).pins = s.pins := by unfold stopFault; split <;> simp
@[simp] theorem stopFault_inReset (c : FaultCause) (st : Option StationNo) (s : State) : (stopFault c st s).inReset = s.inReset := by unfold stopFault; split <;> simp
@[simp] theorem stopFault_countIndex (c : FaultCause) (st : Option StationNo) (s : State) : (stopFault c st s).countIndex = s.countIndex := by unfold stopFault; split <;> simp
@[simp] theorem stopFault_pending (c : FaultCause) (st : Option StationNo) (s : State) : (stopFault c st s).pending = s.pending := by unfold stopFault; split <;> simp

@[simp] theorem reserveEntry_mu (s : State) : (reserveEntry s).mu = s.mu := by unfold reserveEntry; split <;> simp
@[simp] theorem reserveEntry_fu (s : State) : (reserveEntry s).fu = s.fu := by unfold reserveEntry; split <;> simp
@[simp] theorem reserveEntry_tu (s : State) : (reserveEntry s).tu = s.tu := by unfold reserveEntry; split <;> simp
@[simp] theorem reserveEntry_cu (s : State) : (reserveEntry s).cu = s.cu := by unfold reserveEntry; split <;> simp
@[simp] theorem reserveEntry_pp (s : State) : (reserveEntry s).pp = s.pp := by unfold reserveEntry; split <;> simp
@[simp] theorem reserveEntry_gm (s : State) : (reserveEntry s).gm = s.gm := by unfold reserveEntry; split <;> simp
@[simp] theorem reserveEntry_bu (s : State) : (reserveEntry s).bu = s.bu := by unfold reserveEntry; split <;> simp
@[simp] theorem reserveEntry_lc (s : State) : (reserveEntry s).lc = s.lc := by unfold reserveEntry; split <;> simp
@[simp] theorem reserveEntry_ll (s : State) : (reserveEntry s).ll = s.ll := by unfold reserveEntry; split <;> simp
@[simp] theorem reserveEntry_pins (s : State) : (reserveEntry s).pins = s.pins := by unfold reserveEntry; split <;> simp
@[simp] theorem reserveEntry_inReset (s : State) : (reserveEntry s).inReset = s.inReset := by unfold reserveEntry; split <;> simp
@[simp] theorem reserveEntry_countIndex (s : State) : (reserveEntry s).countIndex = s.countIndex := by unfold reserveEntry; split <;> simp
@[simp] theorem reserveEntry_pending (s : State) : (reserveEntry s).pending = s.pending := by unfold reserveEntry; split <;> simp

@[simp] theorem freeReceiving_mu (s : State) : (freeReceiving s).mu = s.mu := by unfold freeReceiving; split <;> simp
@[simp] theorem freeReceiving_fu (s : State) : (freeReceiving s).fu = s.fu := by unfold freeReceiving; split <;> simp
@[simp] theorem freeReceiving_tu (s : State) : (freeReceiving s).tu = s.tu := by unfold freeReceiving; split <;> simp
@[simp] theorem freeReceiving_cu (s : State) : (freeReceiving s).cu = s.cu := by unfold freeReceiving; split <;> simp
@[simp] theorem freeReceiving_pp (s : State) : (freeReceiving s).pp = s.pp := by unfold freeReceiving; split <;> simp
@[simp] theorem freeReceiving_gm (s : State) : (freeReceiving s).gm = s.gm := by unfold freeReceiving; split <;> simp
@[simp] theorem freeReceiving_bu (s : State) : (freeReceiving s).bu = s.bu := by unfold freeReceiving; split <;> simp
@[simp] theorem freeReceiving_lc (s : State) : (freeReceiving s).lc = s.lc := by unfold freeReceiving; split <;> simp
@[simp] theorem freeReceiving_ll (s : State) : (freeReceiving s).ll = s.ll := by unfold freeReceiving; split <;> simp
@[simp] theorem freeReceiving_pins (s : State) : (freeReceiving s).pins = s.pins := by unfold freeReceiving; split <;> simp
@[simp] theorem freeReceiving_inReset (s : State) : (freeReceiving s).inReset = s.inReset := by unfold freeReceiving; split <;> simp
@[simp] theorem freeReceiving_countIndex (s : State) : (freeReceiving s).countIndex = s.countIndex := by unfold freeReceiving; split <;> simp
@[simp] theorem freeReceiving_pending (s : State) : (freeReceiving s).pending = s.pending := by unfold freeReceiving; split <;> simp

@[simp] theorem testComplete_mu (o : Word16) (s : State) : (testComplete o s).mu = s.mu := by unfold testComplete; (repeat' split) <;> simp
@[simp] theorem testComplete_fu (o : Word16) (s : State) : (testComplete o s).fu = s.fu := by unfold testComplete; (repeat' split) <;> simp
@[simp] theorem testComplete_au (o : Word16) (s : State) : (testComplete o s).au = s.au := by unfold testComplete; (repeat' split) <;> simp
@[simp] theorem testComplete_tu (o : Word16) (s : State) : (testComplete o s).tu = s.tu := by unfold testComplete; (repeat' split) <;> simp
@[simp] theorem testComplete_cu (o : Word16) (s : State) : (testComplete o s).cu = s.cu := by unfold testComplete; (repeat' split) <;> simp
@[simp] theorem testComplete_pp (o : Word16) (s : State) : (testComplete o s).pp = s.pp := by unfold testComplete; (repeat' split) <;> simp
@[simp] theorem testComplete_gm (o : Word16) (s : State) : (testComplete o s).gm = s.gm := by unfold testComplete; (repeat' split) <;> simp
@[simp] theorem testComplete_lc (o : Word16) (s : State) : (testComplete o s).lc = s.lc := by unfold testComplete; (repeat' split) <;> simp
@[simp] theorem testComplete_pins (o : Word16) (s : State) : (testComplete o s).pins = s.pins := by unfold testComplete; (repeat' split) <;> simp
@[simp] theorem testComplete_inReset (o : Word16) (s : State) : (testComplete o s).inReset = s.inReset := by unfold testComplete; (repeat' split) <;> simp
@[simp] theorem testComplete_countIndex (o : Word16) (s : State) : (testComplete o s).countIndex = s.countIndex := by unfold testComplete; (repeat' split) <;> simp
@[simp] theorem testComplete_pending (o : Word16) (s : State) : (testComplete o s).pending = s.pending := by unfold testComplete; (repeat' split) <;> simp

@[simp] theorem deliver_pp (c : Context) (s : State) : (deliver c s).pp = s.pp := by simp [deliver]
@[simp] theorem deliver_gm (c : Context) (s : State) : (deliver c s).gm = s.gm := by simp [deliver]
@[simp] theorem deliver_pins (c : Context) (s : State) : (deliver c s).pins = s.pins := by simp [deliver]
@[simp] theorem deliver_inReset (c : Context) (s : State) : (deliver c s).inReset = s.inReset := by simp [deliver]
@[simp] theorem deliver_countIndex (c : Context) (s : State) : (deliver c s).countIndex = s.countIndex := by simp [deliver]
@[simp] theorem deliver_pending (c : Context) (s : State) : (deliver c s).pending = s.pending := by simp [deliver]

@[simp] theorem lose_pp (c : Context) (p : PitchIndex) (s : State) : (lose c p s).pp = s.pp := by simp [lose]
@[simp] theorem lose_gm (c : Context) (p : PitchIndex) (s : State) : (lose c p s).gm = s.gm := by simp [lose]
@[simp] theorem lose_pins (c : Context) (p : PitchIndex) (s : State) : (lose c p s).pins = s.pins := by simp [lose]
@[simp] theorem lose_inReset (c : Context) (p : PitchIndex) (s : State) : (lose c p s).inReset = s.inReset := by simp [lose]
@[simp] theorem lose_countIndex (c : Context) (p : PitchIndex) (s : State) : (lose c p s).countIndex = s.countIndex := by simp [lose]
@[simp] theorem lose_pending (c : Context) (p : PitchIndex) (s : State) : (lose c p s).pending = s.pending := by simp [lose]

@[simp] theorem stackEvent_pp (i : StationNo) (s : State) : (stackEvent i s).pp = s.pp := by unfold stackEvent; (repeat' split) <;> simp
@[simp] theorem stackEvent_gm (i : StationNo) (s : State) : (stackEvent i s).gm = s.gm := by unfold stackEvent; (repeat' split) <;> simp
@[simp] theorem stackEvent_pins (i : StationNo) (s : State) : (stackEvent i s).pins = s.pins := by unfold stackEvent; (repeat' split) <;> simp
@[simp] theorem stackEvent_inReset (i : StationNo) (s : State) : (stackEvent i s).inReset = s.inReset := by unfold stackEvent; (repeat' split) <;> simp
@[simp] theorem stackEvent_countIndex (i : StationNo) (s : State) : (stackEvent i s).countIndex = s.countIndex := by unfold stackEvent; (repeat' split) <;> simp
@[simp] theorem stackEvent_pending (i : StationNo) (s : State) : (stackEvent i s).pending = s.pending := by unfold stackEvent; (repeat' split) <;> simp

@[simp] theorem takeKick_mu (i : StationNo) (s : State) : (takeKick i s).mu = s.mu := by unfold takeKick; (repeat' split) <;> simp
@[simp] theorem takeKick_au (i : StationNo) (s : State) : (takeKick i s).au = s.au := by unfold takeKick; (repeat' split) <;> simp
@[simp] theorem takeKick_tu (i : StationNo) (s : State) : (takeKick i s).tu = s.tu := by unfold takeKick; (repeat' split) <;> simp
@[simp] theorem takeKick_cu (i : StationNo) (s : State) : (takeKick i s).cu = s.cu := by unfold takeKick; (repeat' split) <;> simp
@[simp] theorem takeKick_pp (i : StationNo) (s : State) : (takeKick i s).pp = s.pp := by unfold takeKick; (repeat' split) <;> simp
@[simp] theorem takeKick_gm (i : StationNo) (s : State) : (takeKick i s).gm = s.gm := by unfold takeKick; (repeat' split) <;> simp
@[simp] theorem takeKick_lc (i : StationNo) (s : State) : (takeKick i s).lc = s.lc := by unfold takeKick; (repeat' split) <;> simp
@[simp] theorem takeKick_ll (i : StationNo) (s : State) : (takeKick i s).ll = s.ll := by unfold takeKick; (repeat' split) <;> simp
@[simp] theorem takeKick_pins (i : StationNo) (s : State) : (takeKick i s).pins = s.pins := by unfold takeKick; (repeat' split) <;> simp
@[simp] theorem takeKick_inReset (i : StationNo) (s : State) : (takeKick i s).inReset = s.inReset := by unfold takeKick; (repeat' split) <;> simp
@[simp] theorem takeKick_countIndex (i : StationNo) (s : State) : (takeKick i s).countIndex = s.countIndex := by unfold takeKick; (repeat' split) <;> simp
@[simp] theorem takeKick_pending (i : StationNo) (s : State) : (takeKick i s).pending = s.pending := by unfold takeKick; (repeat' split) <;> simp

@[simp] theorem endReceipt_mu (s : State) : (endReceipt s).mu = s.mu := by unfold endReceipt; (repeat' split) <;> simp
@[simp] theorem endReceipt_fu (s : State) : (endReceipt s).fu = s.fu := by unfold endReceipt; (repeat' split) <;> simp
@[simp] theorem endReceipt_au (s : State) : (endReceipt s).au = s.au := by unfold endReceipt; (repeat' split) <;> simp
@[simp] theorem endReceipt_tu (s : State) : (endReceipt s).tu = s.tu := by unfold endReceipt; (repeat' split) <;> simp
@[simp] theorem endReceipt_cu (s : State) : (endReceipt s).cu = s.cu := by unfold endReceipt; (repeat' split) <;> simp
@[simp] theorem endReceipt_pp (s : State) : (endReceipt s).pp = s.pp := by unfold endReceipt; (repeat' split) <;> simp
@[simp] theorem endReceipt_gm (s : State) : (endReceipt s).gm = s.gm := by unfold endReceipt; (repeat' split) <;> simp
@[simp] theorem endReceipt_lc (s : State) : (endReceipt s).lc = s.lc := by unfold endReceipt; (repeat' split) <;> simp
@[simp] theorem endReceipt_pins (s : State) : (endReceipt s).pins = s.pins := by unfold endReceipt; (repeat' split) <;> simp
@[simp] theorem endReceipt_inReset (s : State) : (endReceipt s).inReset = s.inReset := by unfold endReceipt; (repeat' split) <;> simp
@[simp] theorem endReceipt_countIndex (s : State) : (endReceipt s).countIndex = s.countIndex := by unfold endReceipt; (repeat' split) <;> simp
@[simp] theorem endReceipt_pending (s : State) : (endReceipt s).pending = s.pending := by unfold endReceipt; (repeat' split) <;> simp

@[simp] theorem openBundle_mu (payload : List Byte) (s : State) : (openBundle payload s).mu = s.mu := by simp [openBundle]
@[simp] theorem openBundle_fu (payload : List Byte) (s : State) : (openBundle payload s).fu = s.fu := by simp [openBundle]
@[simp] theorem openBundle_au (payload : List Byte) (s : State) : (openBundle payload s).au = s.au := by simp [openBundle]
@[simp] theorem openBundle_tu (payload : List Byte) (s : State) : (openBundle payload s).tu = s.tu := by simp [openBundle]
@[simp] theorem openBundle_cu (payload : List Byte) (s : State) : (openBundle payload s).cu = s.cu := by simp [openBundle]
@[simp] theorem openBundle_pp (payload : List Byte) (s : State) : (openBundle payload s).pp = s.pp := by simp [openBundle]
@[simp] theorem openBundle_gm (payload : List Byte) (s : State) : (openBundle payload s).gm = s.gm := by simp [openBundle]
@[simp] theorem openBundle_lc (payload : List Byte) (s : State) : (openBundle payload s).lc = s.lc := by simp [openBundle]
@[simp] theorem openBundle_pins (payload : List Byte) (s : State) : (openBundle payload s).pins = s.pins := by simp [openBundle]
@[simp] theorem openBundle_inReset (payload : List Byte) (s : State) : (openBundle payload s).inReset = s.inReset := by simp [openBundle]
@[simp] theorem openBundle_countIndex (payload : List Byte) (s : State) : (openBundle payload s).countIndex = s.countIndex := by simp [openBundle]
@[simp] theorem openBundle_pending (payload : List Byte) (s : State) : (openBundle payload s).pending = s.pending := by simp [openBundle]

@[simp] theorem sendClear_mu (s : State) : (sendClear s).mu = s.mu := by unfold sendClear; (repeat' split) <;> simp
@[simp] theorem sendClear_fu (s : State) : (sendClear s).fu = s.fu := by unfold sendClear; (repeat' split) <;> simp
@[simp] theorem sendClear_au (s : State) : (sendClear s).au = s.au := by unfold sendClear; (repeat' split) <;> simp
@[simp] theorem sendClear_tu (s : State) : (sendClear s).tu = s.tu := by unfold sendClear; (repeat' split) <;> simp
@[simp] theorem sendClear_cu (s : State) : (sendClear s).cu = s.cu := by unfold sendClear; (repeat' split) <;> simp
@[simp] theorem sendClear_gm (s : State) : (sendClear s).gm = s.gm := by unfold sendClear; (repeat' split) <;> simp
@[simp] theorem sendClear_bu (s : State) : (sendClear s).bu = s.bu := by unfold sendClear; (repeat' split) <;> simp
@[simp] theorem sendClear_lc (s : State) : (sendClear s).lc = s.lc := by unfold sendClear; (repeat' split) <;> simp
@[simp] theorem sendClear_ll (s : State) : (sendClear s).ll = s.ll := by unfold sendClear; (repeat' split) <;> simp
@[simp] theorem sendClear_pins (s : State) : (sendClear s).pins = s.pins := by unfold sendClear; (repeat' split) <;> simp
@[simp] theorem sendClear_inReset (s : State) : (sendClear s).inReset = s.inReset := by unfold sendClear; (repeat' split) <;> simp
@[simp] theorem sendClear_countIndex (s : State) : (sendClear s).countIndex = s.countIndex := by unfold sendClear; (repeat' split) <;> simp
@[simp] theorem sendClear_pending (s : State) : (sendClear s).pending = s.pending := by unfold sendClear; (repeat' split) <;> simp

@[simp] theorem withdraw_mu (s : State) : (withdraw s).mu = s.mu := by unfold withdraw; split <;> simp
@[simp] theorem withdraw_fu (s : State) : (withdraw s).fu = s.fu := by unfold withdraw; split <;> simp
@[simp] theorem withdraw_au (s : State) : (withdraw s).au = s.au := by unfold withdraw; split <;> simp
@[simp] theorem withdraw_cu (s : State) : (withdraw s).cu = s.cu := by unfold withdraw; split <;> simp
@[simp] theorem withdraw_bu (s : State) : (withdraw s).bu = s.bu := by unfold withdraw; split <;> simp
@[simp] theorem withdraw_lc (s : State) : (withdraw s).lc = s.lc := by unfold withdraw; split <;> simp
@[simp] theorem withdraw_ll (s : State) : (withdraw s).ll = s.ll := by unfold withdraw; split <;> simp
@[simp] theorem withdraw_pins (s : State) : (withdraw s).pins = s.pins := by unfold withdraw; split <;> simp
@[simp] theorem withdraw_inReset (s : State) : (withdraw s).inReset = s.inReset := by unfold withdraw; split <;> simp
@[simp] theorem withdraw_countIndex (s : State) : (withdraw s).countIndex = s.countIndex := by unfold withdraw; split <;> simp
@[simp] theorem withdraw_pending (s : State) : (withdraw s).pending = s.pending := by unfold withdraw; split <;> simp

@[simp] theorem dispatchJob_au (s : State) : (dispatchJob s).au = s.au := by unfold dispatchJob; dsimp only; (repeat' split) <;> simp
@[simp] theorem dispatchJob_gm (s : State) : (dispatchJob s).gm = s.gm := by unfold dispatchJob; dsimp only; (repeat' split) <;> simp
@[simp] theorem dispatchJob_bu (s : State) : (dispatchJob s).bu = s.bu := by unfold dispatchJob; dsimp only; (repeat' split) <;> simp
@[simp] theorem dispatchJob_pins (s : State) : (dispatchJob s).pins = s.pins := by unfold dispatchJob; dsimp only; (repeat' split) <;> simp
@[simp] theorem dispatchJob_inReset (s : State) : (dispatchJob s).inReset = s.inReset := by unfold dispatchJob; dsimp only; (repeat' split) <;> simp
@[simp] theorem dispatchJob_countIndex (s : State) : (dispatchJob s).countIndex = s.countIndex := by unfold dispatchJob; dsimp only; (repeat' split) <;> simp
@[simp] theorem dispatchJob_pending (s : State) : (dispatchJob s).pending = s.pending := by unfold dispatchJob; dsimp only; (repeat' split) <;> simp

@[simp] theorem printFired_au (i : StationNo) (s : State) : (printFired i s).au = s.au := by unfold printFired; (repeat' split) <;> simp
@[simp] theorem printFired_bu (i : StationNo) (s : State) : (printFired i s).bu = s.bu := by unfold printFired; (repeat' split) <;> simp
@[simp] theorem printFired_pins (i : StationNo) (s : State) : (printFired i s).pins = s.pins := by unfold printFired; (repeat' split) <;> simp
@[simp] theorem printFired_inReset (i : StationNo) (s : State) : (printFired i s).inReset = s.inReset := by unfold printFired; (repeat' split) <;> simp
@[simp] theorem printFired_countIndex (i : StationNo) (s : State) : (printFired i s).countIndex = s.countIndex := by unfold printFired; (repeat' split) <;> simp
@[simp] theorem printFired_pending (i : StationNo) (s : State) : (printFired i s).pending = s.pending := by unfold printFired; (repeat' split) <;> simp

@[simp] theorem printNotTaken_mu (i : StationNo) (s : State) : (printNotTaken i s).mu = s.mu := by unfold printNotTaken; dsimp only; (repeat' split) <;> simp
@[simp] theorem printNotTaken_fu (i : StationNo) (s : State) : (printNotTaken i s).fu = s.fu := by unfold printNotTaken; dsimp only; (repeat' split) <;> simp
@[simp] theorem printNotTaken_au (i : StationNo) (s : State) : (printNotTaken i s).au = s.au := by unfold printNotTaken; dsimp only; (repeat' split) <;> simp
@[simp] theorem printNotTaken_cu (i : StationNo) (s : State) : (printNotTaken i s).cu = s.cu := by unfold printNotTaken; dsimp only; (repeat' split) <;> simp
@[simp] theorem printNotTaken_bu (i : StationNo) (s : State) : (printNotTaken i s).bu = s.bu := by unfold printNotTaken; dsimp only; (repeat' split) <;> simp
@[simp] theorem printNotTaken_lc (i : StationNo) (s : State) : (printNotTaken i s).lc = s.lc := by unfold printNotTaken; dsimp only; (repeat' split) <;> simp
@[simp] theorem printNotTaken_ll (i : StationNo) (s : State) : (printNotTaken i s).ll = s.ll := by unfold printNotTaken; dsimp only; (repeat' split) <;> simp
@[simp] theorem printNotTaken_pins (i : StationNo) (s : State) : (printNotTaken i s).pins = s.pins := by unfold printNotTaken; dsimp only; (repeat' split) <;> simp
@[simp] theorem printNotTaken_inReset (i : StationNo) (s : State) : (printNotTaken i s).inReset = s.inReset := by unfold printNotTaken; dsimp only; (repeat' split) <;> simp
@[simp] theorem printNotTaken_countIndex (i : StationNo) (s : State) : (printNotTaken i s).countIndex = s.countIndex := by unfold printNotTaken; dsimp only; (repeat' split) <;> simp
@[simp] theorem printNotTaken_pending (i : StationNo) (s : State) : (printNotTaken i s).pending = s.pending := by unfold printNotTaken; dsimp only; (repeat' split) <;> simp

@[simp] theorem printerCleared_mu (s : State) : (printerCleared s).mu = s.mu := by unfold printerCleared; split <;> simp
@[simp] theorem printerCleared_fu (s : State) : (printerCleared s).fu = s.fu := by unfold printerCleared; split <;> simp
@[simp] theorem printerCleared_au (s : State) : (printerCleared s).au = s.au := by unfold printerCleared; split <;> simp
@[simp] theorem printerCleared_tu (s : State) : (printerCleared s).tu = s.tu := by unfold printerCleared; split <;> simp
@[simp] theorem printerCleared_cu (s : State) : (printerCleared s).cu = s.cu := by unfold printerCleared; split <;> simp
@[simp] theorem printerCleared_gm (s : State) : (printerCleared s).gm = s.gm := by unfold printerCleared; split <;> simp
@[simp] theorem printerCleared_bu (s : State) : (printerCleared s).bu = s.bu := by unfold printerCleared; split <;> simp
@[simp] theorem printerCleared_lc (s : State) : (printerCleared s).lc = s.lc := by unfold printerCleared; split <;> simp
@[simp] theorem printerCleared_ll (s : State) : (printerCleared s).ll = s.ll := by unfold printerCleared; split <;> simp
@[simp] theorem printerCleared_pins (s : State) : (printerCleared s).pins = s.pins := by unfold printerCleared; split <;> simp
@[simp] theorem printerCleared_inReset (s : State) : (printerCleared s).inReset = s.inReset := by unfold printerCleared; split <;> simp
@[simp] theorem printerCleared_countIndex (s : State) : (printerCleared s).countIndex = s.countIndex := by unfold printerCleared; split <;> simp
@[simp] theorem printerCleared_pending (s : State) : (printerCleared s).pending = s.pending := by unfold printerCleared; split <;> simp

@[simp] theorem printerTaken_mu (t : Tag) (s : State) : (printerTaken t s).mu = s.mu := by unfold printerTaken; split <;> simp
@[simp] theorem printerTaken_fu (t : Tag) (s : State) : (printerTaken t s).fu = s.fu := by unfold printerTaken; split <;> simp
@[simp] theorem printerTaken_au (t : Tag) (s : State) : (printerTaken t s).au = s.au := by unfold printerTaken; split <;> simp
@[simp] theorem printerTaken_tu (t : Tag) (s : State) : (printerTaken t s).tu = s.tu := by unfold printerTaken; split <;> simp
@[simp] theorem printerTaken_cu (t : Tag) (s : State) : (printerTaken t s).cu = s.cu := by unfold printerTaken; split <;> simp
@[simp] theorem printerTaken_gm (t : Tag) (s : State) : (printerTaken t s).gm = s.gm := by unfold printerTaken; split <;> simp
@[simp] theorem printerTaken_bu (t : Tag) (s : State) : (printerTaken t s).bu = s.bu := by unfold printerTaken; split <;> simp
@[simp] theorem printerTaken_lc (t : Tag) (s : State) : (printerTaken t s).lc = s.lc := by unfold printerTaken; split <;> simp
@[simp] theorem printerTaken_ll (t : Tag) (s : State) : (printerTaken t s).ll = s.ll := by unfold printerTaken; split <;> simp
@[simp] theorem printerTaken_pins (t : Tag) (s : State) : (printerTaken t s).pins = s.pins := by unfold printerTaken; split <;> simp
@[simp] theorem printerTaken_inReset (t : Tag) (s : State) : (printerTaken t s).inReset = s.inReset := by unfold printerTaken; split <;> simp
@[simp] theorem printerTaken_countIndex (t : Tag) (s : State) : (printerTaken t s).countIndex = s.countIndex := by unfold printerTaken; split <;> simp
@[simp] theorem printerTaken_pending (t : Tag) (s : State) : (printerTaken t s).pending = s.pending := by unfold printerTaken; split <;> simp

@[simp] theorem printFailed_mu (j : Job) (s : State) : (printFailed j s).mu = s.mu := by unfold printFailed; dsimp only; (repeat' split) <;> simp
@[simp] theorem printFailed_fu (j : Job) (s : State) : (printFailed j s).fu = s.fu := by unfold printFailed; dsimp only; (repeat' split) <;> simp
@[simp] theorem printFailed_au (j : Job) (s : State) : (printFailed j s).au = s.au := by unfold printFailed; dsimp only; (repeat' split) <;> simp
@[simp] theorem printFailed_cu (j : Job) (s : State) : (printFailed j s).cu = s.cu := by unfold printFailed; dsimp only; (repeat' split) <;> simp
@[simp] theorem printFailed_pp (j : Job) (s : State) : (printFailed j s).pp = s.pp := by unfold printFailed; dsimp only; (repeat' split) <;> simp
@[simp] theorem printFailed_gm (j : Job) (s : State) : (printFailed j s).gm = s.gm := by unfold printFailed; dsimp only; (repeat' split) <;> simp
@[simp] theorem printFailed_bu (j : Job) (s : State) : (printFailed j s).bu = s.bu := by unfold printFailed; dsimp only; (repeat' split) <;> simp
@[simp] theorem printFailed_lc (j : Job) (s : State) : (printFailed j s).lc = s.lc := by unfold printFailed; dsimp only; (repeat' split) <;> simp
@[simp] theorem printFailed_ll (j : Job) (s : State) : (printFailed j s).ll = s.ll := by unfold printFailed; dsimp only; (repeat' split) <;> simp
@[simp] theorem printFailed_pins (j : Job) (s : State) : (printFailed j s).pins = s.pins := by unfold printFailed; dsimp only; (repeat' split) <;> simp
@[simp] theorem printFailed_inReset (j : Job) (s : State) : (printFailed j s).inReset = s.inReset := by unfold printFailed; dsimp only; (repeat' split) <;> simp
@[simp] theorem printFailed_countIndex (j : Job) (s : State) : (printFailed j s).countIndex = s.countIndex := by unfold printFailed; dsimp only; (repeat' split) <;> simp
@[simp] theorem printFailed_pending (j : Job) (s : State) : (printFailed j s).pending = s.pending := by unfold printFailed; dsimp only; (repeat' split) <;> simp

@[simp] theorem printerDone_au (t : Tag) (r : PrintResult) (s : State) : (printerDone t r s).au = s.au := by unfold printerDone; (repeat' split) <;> simp
@[simp] theorem printerDone_bu (t : Tag) (r : PrintResult) (s : State) : (printerDone t r s).bu = s.bu := by unfold printerDone; (repeat' split) <;> simp
@[simp] theorem printerDone_pins (t : Tag) (r : PrintResult) (s : State) : (printerDone t r s).pins = s.pins := by unfold printerDone; (repeat' split) <;> simp
@[simp] theorem printerDone_inReset (t : Tag) (r : PrintResult) (s : State) : (printerDone t r s).inReset = s.inReset := by unfold printerDone; (repeat' split) <;> simp
@[simp] theorem printerDone_countIndex (t : Tag) (r : PrintResult) (s : State) : (printerDone t r s).countIndex = s.countIndex := by unfold printerDone; (repeat' split) <;> simp
@[simp] theorem printerDone_pending (t : Tag) (r : PrintResult) (s : State) : (printerDone t r s).pending = s.pending := by unfold printerDone; (repeat' split) <;> simp

@[simp] theorem sweepAt_mu (o : Word16) (p : PitchIndex) (pos : Nat) (s : State) : (sweepAt o p pos s).mu = s.mu := by unfold sweepAt; (repeat' split) <;> simp
@[simp] theorem sweepAt_fu (o : Word16) (p : PitchIndex) (pos : Nat) (s : State) : (sweepAt o p pos s).fu = s.fu := by unfold sweepAt; (repeat' split) <;> simp
@[simp] theorem sweepAt_au (o : Word16) (p : PitchIndex) (pos : Nat) (s : State) : (sweepAt o p pos s).au = s.au := by unfold sweepAt; (repeat' split) <;> simp
@[simp] theorem sweepAt_cu (o : Word16) (p : PitchIndex) (pos : Nat) (s : State) : (sweepAt o p pos s).cu = s.cu := by unfold sweepAt; (repeat' split) <;> simp
@[simp] theorem sweepAt_pp (o : Word16) (p : PitchIndex) (pos : Nat) (s : State) : (sweepAt o p pos s).pp = s.pp := by unfold sweepAt; (repeat' split) <;> simp
@[simp] theorem sweepAt_bu (o : Word16) (p : PitchIndex) (pos : Nat) (s : State) : (sweepAt o p pos s).bu = s.bu := by unfold sweepAt; (repeat' split) <;> simp
@[simp] theorem sweepAt_lc (o : Word16) (p : PitchIndex) (pos : Nat) (s : State) : (sweepAt o p pos s).lc = s.lc := by unfold sweepAt; (repeat' split) <;> simp
@[simp] theorem sweepAt_pins (o : Word16) (p : PitchIndex) (pos : Nat) (s : State) : (sweepAt o p pos s).pins = s.pins := by unfold sweepAt; (repeat' split) <;> simp
@[simp] theorem sweepAt_inReset (o : Word16) (p : PitchIndex) (pos : Nat) (s : State) : (sweepAt o p pos s).inReset = s.inReset := by unfold sweepAt; (repeat' split) <;> simp
@[simp] theorem sweepAt_countIndex (o : Word16) (p : PitchIndex) (pos : Nat) (s : State) : (sweepAt o p pos s).countIndex = s.countIndex := by unfold sweepAt; (repeat' split) <;> simp
@[simp] theorem sweepAt_pending (o : Word16) (p : PitchIndex) (pos : Nat) (s : State) : (sweepAt o p pos s).pending = s.pending := by unfold sweepAt; (repeat' split) <;> simp

@[simp] theorem sweep_mu (o : Word16) (p : PitchIndex) (g : Nat) (s : State) : (sweep o p g s).mu = s.mu := by
  induction g generalizing s with
  | zero => rfl
  | succ g ih => simp [sweep, ih]
@[simp] theorem sweep_fu (o : Word16) (p : PitchIndex) (g : Nat) (s : State) : (sweep o p g s).fu = s.fu := by
  induction g generalizing s with
  | zero => rfl
  | succ g ih => simp [sweep, ih]
@[simp] theorem sweep_au (o : Word16) (p : PitchIndex) (g : Nat) (s : State) : (sweep o p g s).au = s.au := by
  induction g generalizing s with
  | zero => rfl
  | succ g ih => simp [sweep, ih]
@[simp] theorem sweep_cu (o : Word16) (p : PitchIndex) (g : Nat) (s : State) : (sweep o p g s).cu = s.cu := by
  induction g generalizing s with
  | zero => rfl
  | succ g ih => simp [sweep, ih]
@[simp] theorem sweep_pp (o : Word16) (p : PitchIndex) (g : Nat) (s : State) : (sweep o p g s).pp = s.pp := by
  induction g generalizing s with
  | zero => rfl
  | succ g ih => simp [sweep, ih]
@[simp] theorem sweep_bu (o : Word16) (p : PitchIndex) (g : Nat) (s : State) : (sweep o p g s).bu = s.bu := by
  induction g generalizing s with
  | zero => rfl
  | succ g ih => simp [sweep, ih]
@[simp] theorem sweep_lc (o : Word16) (p : PitchIndex) (g : Nat) (s : State) : (sweep o p g s).lc = s.lc := by
  induction g generalizing s with
  | zero => rfl
  | succ g ih => simp [sweep, ih]
@[simp] theorem sweep_pins (o : Word16) (p : PitchIndex) (g : Nat) (s : State) : (sweep o p g s).pins = s.pins := by
  induction g generalizing s with
  | zero => rfl
  | succ g ih => simp [sweep, ih]
@[simp] theorem sweep_inReset (o : Word16) (p : PitchIndex) (g : Nat) (s : State) : (sweep o p g s).inReset = s.inReset := by
  induction g generalizing s with
  | zero => rfl
  | succ g ih => simp [sweep, ih]
@[simp] theorem sweep_countIndex (o : Word16) (p : PitchIndex) (g : Nat) (s : State) : (sweep o p g s).countIndex = s.countIndex := by
  induction g generalizing s with
  | zero => rfl
  | succ g ih => simp [sweep, ih]
@[simp] theorem sweep_pending (o : Word16) (p : PitchIndex) (g : Nat) (s : State) : (sweep o p g s).pending = s.pending := by
  induction g generalizing s with
  | zero => rfl
  | succ g ih => simp [sweep, ih]

@[simp] theorem exceptAtGate_mu (c : Context) (r : ExceptionReason) (p : PitchIndex) (s : State) : (exceptAtGate c r p s).mu = s.mu := by simp [exceptAtGate]
@[simp] theorem exceptAtGate_fu (c : Context) (r : ExceptionReason) (p : PitchIndex) (s : State) : (exceptAtGate c r p s).fu = s.fu := by simp [exceptAtGate]
@[simp] theorem exceptAtGate_tu (c : Context) (r : ExceptionReason) (p : PitchIndex) (s : State) : (exceptAtGate c r p s).tu = s.tu := by simp [exceptAtGate]
@[simp] theorem exceptAtGate_cu (c : Context) (r : ExceptionReason) (p : PitchIndex) (s : State) : (exceptAtGate c r p s).cu = s.cu := by simp [exceptAtGate]
@[simp] theorem exceptAtGate_pp (c : Context) (r : ExceptionReason) (p : PitchIndex) (s : State) : (exceptAtGate c r p s).pp = s.pp := by simp [exceptAtGate]
@[simp] theorem exceptAtGate_gm (c : Context) (r : ExceptionReason) (p : PitchIndex) (s : State) : (exceptAtGate c r p s).gm = s.gm := by simp [exceptAtGate]
@[simp] theorem exceptAtGate_lc (c : Context) (r : ExceptionReason) (p : PitchIndex) (s : State) : (exceptAtGate c r p s).lc = s.lc := by simp [exceptAtGate]
@[simp] theorem exceptAtGate_pins (c : Context) (r : ExceptionReason) (p : PitchIndex) (s : State) : (exceptAtGate c r p s).pins = s.pins := by simp [exceptAtGate]
@[simp] theorem exceptAtGate_inReset (c : Context) (r : ExceptionReason) (p : PitchIndex) (s : State) : (exceptAtGate c r p s).inReset = s.inReset := by simp [exceptAtGate]
@[simp] theorem exceptAtGate_countIndex (c : Context) (r : ExceptionReason) (p : PitchIndex) (s : State) : (exceptAtGate c r p s).countIndex = s.countIndex := by simp [exceptAtGate]
@[simp] theorem exceptAtGate_pending (c : Context) (r : ExceptionReason) (p : PitchIndex) (s : State) : (exceptAtGate c r p s).pending = s.pending := by simp [exceptAtGate]

@[simp] theorem sendToMakeUp_mu (c : Context) (g : Nat) (p : PitchIndex) (s : State) : (sendToMakeUp c g p s).mu = s.mu := by simp [sendToMakeUp]
@[simp] theorem sendToMakeUp_fu (c : Context) (g : Nat) (p : PitchIndex) (s : State) : (sendToMakeUp c g p s).fu = s.fu := by simp [sendToMakeUp]
@[simp] theorem sendToMakeUp_au (c : Context) (g : Nat) (p : PitchIndex) (s : State) : (sendToMakeUp c g p s).au = s.au := by simp [sendToMakeUp]
@[simp] theorem sendToMakeUp_cu (c : Context) (g : Nat) (p : PitchIndex) (s : State) : (sendToMakeUp c g p s).cu = s.cu := by simp [sendToMakeUp]
@[simp] theorem sendToMakeUp_pp (c : Context) (g : Nat) (p : PitchIndex) (s : State) : (sendToMakeUp c g p s).pp = s.pp := by simp [sendToMakeUp]
@[simp] theorem sendToMakeUp_bu (c : Context) (g : Nat) (p : PitchIndex) (s : State) : (sendToMakeUp c g p s).bu = s.bu := by simp [sendToMakeUp]
@[simp] theorem sendToMakeUp_lc (c : Context) (g : Nat) (p : PitchIndex) (s : State) : (sendToMakeUp c g p s).lc = s.lc := by simp [sendToMakeUp]
@[simp] theorem sendToMakeUp_pins (c : Context) (g : Nat) (p : PitchIndex) (s : State) : (sendToMakeUp c g p s).pins = s.pins := by simp [sendToMakeUp]
@[simp] theorem sendToMakeUp_inReset (c : Context) (g : Nat) (p : PitchIndex) (s : State) : (sendToMakeUp c g p s).inReset = s.inReset := by simp [sendToMakeUp]
@[simp] theorem sendToMakeUp_countIndex (c : Context) (g : Nat) (p : PitchIndex) (s : State) : (sendToMakeUp c g p s).countIndex = s.countIndex := by simp [sendToMakeUp]
@[simp] theorem sendToMakeUp_pending (c : Context) (g : Nat) (p : PitchIndex) (s : State) : (sendToMakeUp c g p s).pending = s.pending := by simp [sendToMakeUp]

@[simp] theorem divert_pp (c : Context) (g : Nat) (p : PitchIndex) (s : State) : (divert c g p s).pp = s.pp := by unfold divert; dsimp only; (repeat' split) <;> simp
@[simp] theorem divert_pins (c : Context) (g : Nat) (p : PitchIndex) (s : State) : (divert c g p s).pins = s.pins := by unfold divert; dsimp only; (repeat' split) <;> simp
@[simp] theorem divert_inReset (c : Context) (g : Nat) (p : PitchIndex) (s : State) : (divert c g p s).inReset = s.inReset := by unfold divert; dsimp only; (repeat' split) <;> simp
@[simp] theorem divert_countIndex (c : Context) (g : Nat) (p : PitchIndex) (s : State) : (divert c g p s).countIndex = s.countIndex := by unfold divert; dsimp only; (repeat' split) <;> simp
@[simp] theorem divert_pending (c : Context) (g : Nat) (p : PitchIndex) (s : State) : (divert c g p s).pending = s.pending := by unfold divert; dsimp only; (repeat' split) <;> simp

@[simp] theorem divertGhost_au (g : Nat) (s : State) : (divertGhost g s).au = s.au := by simp [divertGhost]
@[simp] theorem divertGhost_pp (g : Nat) (s : State) : (divertGhost g s).pp = s.pp := by simp [divertGhost]
@[simp] theorem divertGhost_bu (g : Nat) (s : State) : (divertGhost g s).bu = s.bu := by simp [divertGhost]
@[simp] theorem divertGhost_ll (g : Nat) (s : State) : (divertGhost g s).ll = s.ll := by simp [divertGhost]
@[simp] theorem divertGhost_pins (g : Nat) (s : State) : (divertGhost g s).pins = s.pins := by simp [divertGhost]
@[simp] theorem divertGhost_inReset (g : Nat) (s : State) : (divertGhost g s).inReset = s.inReset := by simp [divertGhost]
@[simp] theorem divertGhost_countIndex (g : Nat) (s : State) : (divertGhost g s).countIndex = s.countIndex := by simp [divertGhost]
@[simp] theorem divertGhost_pending (g : Nat) (s : State) : (divertGhost g s).pending = s.pending := by simp [divertGhost]

@[simp] theorem decideGate_pp (fp : Bool) (g : Nat) (p : PitchIndex) (s : State) : ((decideGate fp g p s).2).pp = s.pp := by unfold decideGate; dsimp only; (repeat' split) <;> simp
@[simp] theorem decideGate_pins (fp : Bool) (g : Nat) (p : PitchIndex) (s : State) : ((decideGate fp g p s).2).pins = s.pins := by unfold decideGate; dsimp only; (repeat' split) <;> simp
@[simp] theorem decideGate_inReset (fp : Bool) (g : Nat) (p : PitchIndex) (s : State) : ((decideGate fp g p s).2).inReset = s.inReset := by unfold decideGate; dsimp only; (repeat' split) <;> simp
@[simp] theorem decideGate_countIndex (fp : Bool) (g : Nat) (p : PitchIndex) (s : State) : ((decideGate fp g p s).2).countIndex = s.countIndex := by unfold decideGate; dsimp only; (repeat' split) <;> simp
@[simp] theorem decideGate_pending (fp : Bool) (g : Nat) (p : PitchIndex) (s : State) : ((decideGate fp g p s).2).pending = s.pending := by unfold decideGate; dsimp only; (repeat' split) <;> simp

@[simp] theorem gateFirePoint_pp (s : State) : ((gateFirePoint s).2).pp = s.pp := by unfold gateFirePoint; (repeat' split) <;> simp
@[simp] theorem gateFirePoint_pins (s : State) : ((gateFirePoint s).2).pins = s.pins := by unfold gateFirePoint; (repeat' split) <;> simp
@[simp] theorem gateFirePoint_inReset (s : State) : ((gateFirePoint s).2).inReset = s.inReset := by unfold gateFirePoint; (repeat' split) <;> simp
@[simp] theorem gateFirePoint_countIndex (s : State) : ((gateFirePoint s).2).countIndex = s.countIndex := by unfold gateFirePoint; (repeat' split) <;> simp
@[simp] theorem gateFirePoint_pending (s : State) : ((gateFirePoint s).2).pending = s.pending := by unfold gateFirePoint; (repeat' split) <;> simp

@[simp] theorem gateCloseOut_pp (e : PitchIndex) (s : State) : (gateCloseOut e s).pp = s.pp := by unfold gateCloseOut; (repeat' split) <;> simp
@[simp] theorem gateCloseOut_pins (e : PitchIndex) (s : State) : (gateCloseOut e s).pins = s.pins := by unfold gateCloseOut; (repeat' split) <;> simp
@[simp] theorem gateCloseOut_inReset (e : PitchIndex) (s : State) : (gateCloseOut e s).inReset = s.inReset := by unfold gateCloseOut; (repeat' split) <;> simp
@[simp] theorem gateCloseOut_countIndex (e : PitchIndex) (s : State) : (gateCloseOut e s).countIndex = s.countIndex := by unfold gateCloseOut; (repeat' split) <;> simp
@[simp] theorem gateCloseOut_pending (e : PitchIndex) (s : State) : (gateCloseOut e s).pending = s.pending := by unfold gateCloseOut; (repeat' split) <;> simp

@[simp] theorem actionMissed_mu (i : StationNo) (s : State) : (actionMissed i s).mu = s.mu := by unfold actionMissed; dsimp only; (repeat' split) <;> simp
@[simp] theorem actionMissed_fu (i : StationNo) (s : State) : (actionMissed i s).fu = s.fu := by unfold actionMissed; dsimp only; (repeat' split) <;> simp
@[simp] theorem actionMissed_au (i : StationNo) (s : State) : (actionMissed i s).au = s.au := by unfold actionMissed; dsimp only; (repeat' split) <;> simp
@[simp] theorem actionMissed_cu (i : StationNo) (s : State) : (actionMissed i s).cu = s.cu := by unfold actionMissed; dsimp only; (repeat' split) <;> simp
@[simp] theorem actionMissed_pp (i : StationNo) (s : State) : (actionMissed i s).pp = s.pp := by unfold actionMissed; dsimp only; (repeat' split) <;> simp
@[simp] theorem actionMissed_gm (i : StationNo) (s : State) : (actionMissed i s).gm = s.gm := by unfold actionMissed; dsimp only; (repeat' split) <;> simp
@[simp] theorem actionMissed_bu (i : StationNo) (s : State) : (actionMissed i s).bu = s.bu := by unfold actionMissed; dsimp only; (repeat' split) <;> simp
@[simp] theorem actionMissed_lc (i : StationNo) (s : State) : (actionMissed i s).lc = s.lc := by unfold actionMissed; dsimp only; (repeat' split) <;> simp
@[simp] theorem actionMissed_ll (i : StationNo) (s : State) : (actionMissed i s).ll = s.ll := by unfold actionMissed; dsimp only; (repeat' split) <;> simp
@[simp] theorem actionMissed_pins (i : StationNo) (s : State) : (actionMissed i s).pins = s.pins := by unfold actionMissed; dsimp only; (repeat' split) <;> simp
@[simp] theorem actionMissed_inReset (i : StationNo) (s : State) : (actionMissed i s).inReset = s.inReset := by unfold actionMissed; dsimp only; (repeat' split) <;> simp
@[simp] theorem actionMissed_countIndex (i : StationNo) (s : State) : (actionMissed i s).countIndex = s.countIndex := by unfold actionMissed; dsimp only; (repeat' split) <;> simp
@[simp] theorem actionMissed_pending (i : StationNo) (s : State) : (actionMissed i s).pending = s.pending := by unfold actionMissed; dsimp only; (repeat' split) <;> simp

@[simp] theorem stackCloseOut_pp (e : PitchIndex) (s : State) : (stackCloseOut e s).pp = s.pp := by unfold stackCloseOut; split <;> simp
@[simp] theorem stackCloseOut_gm (e : PitchIndex) (s : State) : (stackCloseOut e s).gm = s.gm := by unfold stackCloseOut; split <;> simp
@[simp] theorem stackCloseOut_pins (e : PitchIndex) (s : State) : (stackCloseOut e s).pins = s.pins := by unfold stackCloseOut; split <;> simp
@[simp] theorem stackCloseOut_inReset (e : PitchIndex) (s : State) : (stackCloseOut e s).inReset = s.inReset := by unfold stackCloseOut; split <;> simp
@[simp] theorem stackCloseOut_countIndex (e : PitchIndex) (s : State) : (stackCloseOut e s).countIndex = s.countIndex := by unfold stackCloseOut; split <;> simp
@[simp] theorem stackCloseOut_pending (e : PitchIndex) (s : State) : (stackCloseOut e s).pending = s.pending := by unfold stackCloseOut; split <;> simp

@[simp] theorem shiftTrack_mu (s : State) : (shiftTrack s).mu = s.mu := by unfold shiftTrack; split <;> simp
@[simp] theorem shiftTrack_fu (s : State) : (shiftTrack s).fu = s.fu := by unfold shiftTrack; split <;> simp
@[simp] theorem shiftTrack_au (s : State) : (shiftTrack s).au = s.au := by unfold shiftTrack; split <;> simp
@[simp] theorem shiftTrack_cu (s : State) : (shiftTrack s).cu = s.cu := by unfold shiftTrack; split <;> simp
@[simp] theorem shiftTrack_pp (s : State) : (shiftTrack s).pp = s.pp := by unfold shiftTrack; split <;> simp
@[simp] theorem shiftTrack_gm (s : State) : (shiftTrack s).gm = s.gm := by unfold shiftTrack; split <;> simp
@[simp] theorem shiftTrack_bu (s : State) : (shiftTrack s).bu = s.bu := by unfold shiftTrack; split <;> simp
@[simp] theorem shiftTrack_lc (s : State) : (shiftTrack s).lc = s.lc := by unfold shiftTrack; split <;> simp
@[simp] theorem shiftTrack_ll (s : State) : (shiftTrack s).ll = s.ll := by unfold shiftTrack; split <;> simp
@[simp] theorem shiftTrack_pins (s : State) : (shiftTrack s).pins = s.pins := by unfold shiftTrack; split <;> simp
@[simp] theorem shiftTrack_inReset (s : State) : (shiftTrack s).inReset = s.inReset := by unfold shiftTrack; split <;> simp
@[simp] theorem shiftTrack_countIndex (s : State) : (shiftTrack s).countIndex = s.countIndex := by unfold shiftTrack; split <;> simp
@[simp] theorem shiftTrack_pending (s : State) : (shiftTrack s).pending = s.pending := by unfold shiftTrack; split <;> simp

@[simp] theorem starvedPitch_mu (s : State) : (starvedPitch s).mu = s.mu := by unfold starvedPitch; split <;> simp
@[simp] theorem starvedPitch_fu (s : State) : (starvedPitch s).fu = s.fu := by unfold starvedPitch; split <;> simp
@[simp] theorem starvedPitch_au (s : State) : (starvedPitch s).au = s.au := by unfold starvedPitch; split <;> simp
@[simp] theorem starvedPitch_cu (s : State) : (starvedPitch s).cu = s.cu := by unfold starvedPitch; split <;> simp
@[simp] theorem starvedPitch_pp (s : State) : (starvedPitch s).pp = s.pp := by unfold starvedPitch; split <;> simp
@[simp] theorem starvedPitch_gm (s : State) : (starvedPitch s).gm = s.gm := by unfold starvedPitch; split <;> simp
@[simp] theorem starvedPitch_bu (s : State) : (starvedPitch s).bu = s.bu := by unfold starvedPitch; split <;> simp
@[simp] theorem starvedPitch_lc (s : State) : (starvedPitch s).lc = s.lc := by unfold starvedPitch; split <;> simp
@[simp] theorem starvedPitch_pins (s : State) : (starvedPitch s).pins = s.pins := by unfold starvedPitch; split <;> simp
@[simp] theorem starvedPitch_inReset (s : State) : (starvedPitch s).inReset = s.inReset := by unfold starvedPitch; split <;> simp
@[simp] theorem starvedPitch_countIndex (s : State) : (starvedPitch s).countIndex = s.countIndex := by unfold starvedPitch; split <;> simp
@[simp] theorem starvedPitch_pending (s : State) : (starvedPitch s).pending = s.pending := by unfold starvedPitch; split <;> simp

@[simp] theorem releaseRunning_mu (s : State) : (releaseRunning s).mu = s.mu := by unfold releaseRunning; (repeat' split) <;> simp
@[simp] theorem releaseRunning_fu (s : State) : (releaseRunning s).fu = s.fu := by unfold releaseRunning; (repeat' split) <;> simp
@[simp] theorem releaseRunning_cu (s : State) : (releaseRunning s).cu = s.cu := by unfold releaseRunning; (repeat' split) <;> simp
@[simp] theorem releaseRunning_pp (s : State) : (releaseRunning s).pp = s.pp := by unfold releaseRunning; (repeat' split) <;> simp
@[simp] theorem releaseRunning_bu (s : State) : (releaseRunning s).bu = s.bu := by unfold releaseRunning; (repeat' split) <;> simp
@[simp] theorem releaseRunning_lc (s : State) : (releaseRunning s).lc = s.lc := by unfold releaseRunning; (repeat' split) <;> simp
@[simp] theorem releaseRunning_pins (s : State) : (releaseRunning s).pins = s.pins := by unfold releaseRunning; (repeat' split) <;> simp
@[simp] theorem releaseRunning_inReset (s : State) : (releaseRunning s).inReset = s.inReset := by unfold releaseRunning; (repeat' split) <;> simp
@[simp] theorem releaseRunning_countIndex (s : State) : (releaseRunning s).countIndex = s.countIndex := by unfold releaseRunning; (repeat' split) <;> simp
@[simp] theorem releaseRunning_pending (s : State) : (releaseRunning s).pending = s.pending := by unfold releaseRunning; (repeat' split) <;> simp

@[simp] theorem release_mu (l : LineState) (s : State) : (release l s).mu = s.mu := by unfold release; split <;> simp
@[simp] theorem release_fu (l : LineState) (s : State) : (release l s).fu = s.fu := by unfold release; split <;> simp
@[simp] theorem release_cu (l : LineState) (s : State) : (release l s).cu = s.cu := by unfold release; split <;> simp
@[simp] theorem release_pp (l : LineState) (s : State) : (release l s).pp = s.pp := by unfold release; split <;> simp
@[simp] theorem release_bu (l : LineState) (s : State) : (release l s).bu = s.bu := by unfold release; split <;> simp
@[simp] theorem release_lc (l : LineState) (s : State) : (release l s).lc = s.lc := by unfold release; split <;> simp
@[simp] theorem release_pins (l : LineState) (s : State) : (release l s).pins = s.pins := by unfold release; split <;> simp
@[simp] theorem release_inReset (l : LineState) (s : State) : (release l s).inReset = s.inReset := by unfold release; split <;> simp
@[simp] theorem release_countIndex (l : LineState) (s : State) : (release l s).countIndex = s.countIndex := by unfold release; split <;> simp
@[simp] theorem release_pending (l : LineState) (s : State) : (release l s).pending = s.pending := by unfold release; split <;> simp

@[simp] theorem reportDisplacement_mu (s : State) : (reportDisplacement s).mu = s.mu := by unfold reportDisplacement; split <;> simp
@[simp] theorem reportDisplacement_fu (s : State) : (reportDisplacement s).fu = s.fu := by unfold reportDisplacement; split <;> simp
@[simp] theorem reportDisplacement_au (s : State) : (reportDisplacement s).au = s.au := by unfold reportDisplacement; split <;> simp
@[simp] theorem reportDisplacement_tu (s : State) : (reportDisplacement s).tu = s.tu := by unfold reportDisplacement; split <;> simp
@[simp] theorem reportDisplacement_cu (s : State) : (reportDisplacement s).cu = s.cu := by unfold reportDisplacement; split <;> simp
@[simp] theorem reportDisplacement_pp (s : State) : (reportDisplacement s).pp = s.pp := by unfold reportDisplacement; split <;> simp
@[simp] theorem reportDisplacement_gm (s : State) : (reportDisplacement s).gm = s.gm := by unfold reportDisplacement; split <;> simp
@[simp] theorem reportDisplacement_bu (s : State) : (reportDisplacement s).bu = s.bu := by unfold reportDisplacement; split <;> simp
@[simp] theorem reportDisplacement_ll (s : State) : (reportDisplacement s).ll = s.ll := by unfold reportDisplacement; split <;> simp
@[simp] theorem reportDisplacement_pins (s : State) : (reportDisplacement s).pins = s.pins := by unfold reportDisplacement; split <;> simp
@[simp] theorem reportDisplacement_inReset (s : State) : (reportDisplacement s).inReset = s.inReset := by unfold reportDisplacement; split <;> simp
@[simp] theorem reportDisplacement_countIndex (s : State) : (reportDisplacement s).countIndex = s.countIndex := by unfold reportDisplacement; split <;> simp
@[simp] theorem reportDisplacement_pending (s : State) : (reportDisplacement s).pending = s.pending := by unfold reportDisplacement; split <;> simp

@[simp] theorem startResolver_mu (s : State) : (startResolver s).mu = s.mu := by unfold startResolver; (repeat' split) <;> simp
@[simp] theorem startResolver_fu (s : State) : (startResolver s).fu = s.fu := by unfold startResolver; (repeat' split) <;> simp
@[simp] theorem startResolver_tu (s : State) : (startResolver s).tu = s.tu := by unfold startResolver; (repeat' split) <;> simp
@[simp] theorem startResolver_cu (s : State) : (startResolver s).cu = s.cu := by unfold startResolver; (repeat' split) <;> simp
@[simp] theorem startResolver_pp (s : State) : (startResolver s).pp = s.pp := by unfold startResolver; (repeat' split) <;> simp
@[simp] theorem startResolver_gm (s : State) : (startResolver s).gm = s.gm := by unfold startResolver; (repeat' split) <;> simp
@[simp] theorem startResolver_bu (s : State) : (startResolver s).bu = s.bu := by unfold startResolver; (repeat' split) <;> simp
@[simp] theorem startResolver_lc (s : State) : (startResolver s).lc = s.lc := by unfold startResolver; (repeat' split) <;> simp
@[simp] theorem startResolver_ll (s : State) : (startResolver s).ll = s.ll := by unfold startResolver; (repeat' split) <;> simp
@[simp] theorem startResolver_pins (s : State) : (startResolver s).pins = s.pins := by unfold startResolver; (repeat' split) <;> simp
@[simp] theorem startResolver_inReset (s : State) : (startResolver s).inReset = s.inReset := by unfold startResolver; (repeat' split) <;> simp
@[simp] theorem startResolver_countIndex (s : State) : (startResolver s).countIndex = s.countIndex := by unfold startResolver; (repeat' split) <;> simp
@[simp] theorem startResolver_pending (s : State) : (startResolver s).pending = s.pending := by unfold startResolver; (repeat' split) <;> simp

@[simp] theorem planVacant_mu (i : Fin 16) (c : StagedCopy) (s : State) : (planVacant i c s).mu = s.mu := by simp [planVacant]
@[simp] theorem planVacant_fu (i : Fin 16) (c : StagedCopy) (s : State) : (planVacant i c s).fu = s.fu := by simp [planVacant]
@[simp] theorem planVacant_tu (i : Fin 16) (c : StagedCopy) (s : State) : (planVacant i c s).tu = s.tu := by simp [planVacant]
@[simp] theorem planVacant_cu (i : Fin 16) (c : StagedCopy) (s : State) : (planVacant i c s).cu = s.cu := by simp [planVacant]
@[simp] theorem planVacant_pp (i : Fin 16) (c : StagedCopy) (s : State) : (planVacant i c s).pp = s.pp := by simp [planVacant]
@[simp] theorem planVacant_gm (i : Fin 16) (c : StagedCopy) (s : State) : (planVacant i c s).gm = s.gm := by simp [planVacant]
@[simp] theorem planVacant_lc (i : Fin 16) (c : StagedCopy) (s : State) : (planVacant i c s).lc = s.lc := by simp [planVacant]
@[simp] theorem planVacant_pins (i : Fin 16) (c : StagedCopy) (s : State) : (planVacant i c s).pins = s.pins := by simp [planVacant]
@[simp] theorem planVacant_inReset (i : Fin 16) (c : StagedCopy) (s : State) : (planVacant i c s).inReset = s.inReset := by simp [planVacant]
@[simp] theorem planVacant_countIndex (i : Fin 16) (c : StagedCopy) (s : State) : (planVacant i c s).countIndex = s.countIndex := by simp [planVacant]
@[simp] theorem planVacant_pending (i : Fin 16) (c : StagedCopy) (s : State) : (planVacant i c s).pending = s.pending := by simp [planVacant]

@[simp] theorem completeResolution_mu (s : State) : (completeResolution s).mu = s.mu := by unfold completeResolution; (repeat' split) <;> simp
@[simp] theorem completeResolution_fu (s : State) : (completeResolution s).fu = s.fu := by unfold completeResolution; (repeat' split) <;> simp
@[simp] theorem completeResolution_tu (s : State) : (completeResolution s).tu = s.tu := by unfold completeResolution; (repeat' split) <;> simp
@[simp] theorem completeResolution_cu (s : State) : (completeResolution s).cu = s.cu := by unfold completeResolution; (repeat' split) <;> simp
@[simp] theorem completeResolution_pp (s : State) : (completeResolution s).pp = s.pp := by unfold completeResolution; (repeat' split) <;> simp
@[simp] theorem completeResolution_gm (s : State) : (completeResolution s).gm = s.gm := by unfold completeResolution; (repeat' split) <;> simp
@[simp] theorem completeResolution_lc (s : State) : (completeResolution s).lc = s.lc := by unfold completeResolution; (repeat' split) <;> simp
@[simp] theorem completeResolution_pins (s : State) : (completeResolution s).pins = s.pins := by unfold completeResolution; (repeat' split) <;> simp
@[simp] theorem completeResolution_inReset (s : State) : (completeResolution s).inReset = s.inReset := by unfold completeResolution; (repeat' split) <;> simp
@[simp] theorem completeResolution_countIndex (s : State) : (completeResolution s).countIndex = s.countIndex := by unfold completeResolution; (repeat' split) <;> simp
@[simp] theorem completeResolution_pending (s : State) : (completeResolution s).pending = s.pending := by unfold completeResolution; (repeat' split) <;> simp

@[simp] theorem faultVerdict_mu (i : StationNo) (m : Mark) (c : Context) (s : State) : (faultVerdict i m c s).mu = s.mu := by unfold faultVerdict; dsimp only; (repeat' split) <;> simp
@[simp] theorem faultVerdict_fu (i : StationNo) (m : Mark) (c : Context) (s : State) : (faultVerdict i m c s).fu = s.fu := by unfold faultVerdict; dsimp only; (repeat' split) <;> simp
@[simp] theorem faultVerdict_au (i : StationNo) (m : Mark) (c : Context) (s : State) : (faultVerdict i m c s).au = s.au := by unfold faultVerdict; dsimp only; (repeat' split) <;> simp
@[simp] theorem faultVerdict_pp (i : StationNo) (m : Mark) (c : Context) (s : State) : (faultVerdict i m c s).pp = s.pp := by unfold faultVerdict; dsimp only; (repeat' split) <;> simp
@[simp] theorem faultVerdict_gm (i : StationNo) (m : Mark) (c : Context) (s : State) : (faultVerdict i m c s).gm = s.gm := by unfold faultVerdict; dsimp only; (repeat' split) <;> simp
@[simp] theorem faultVerdict_bu (i : StationNo) (m : Mark) (c : Context) (s : State) : (faultVerdict i m c s).bu = s.bu := by unfold faultVerdict; dsimp only; (repeat' split) <;> simp
@[simp] theorem faultVerdict_pins (i : StationNo) (m : Mark) (c : Context) (s : State) : (faultVerdict i m c s).pins = s.pins := by unfold faultVerdict; dsimp only; (repeat' split) <;> simp
@[simp] theorem faultVerdict_inReset (i : StationNo) (m : Mark) (c : Context) (s : State) : (faultVerdict i m c s).inReset = s.inReset := by unfold faultVerdict; dsimp only; (repeat' split) <;> simp
@[simp] theorem faultVerdict_countIndex (i : StationNo) (m : Mark) (c : Context) (s : State) : (faultVerdict i m c s).countIndex = s.countIndex := by unfold faultVerdict; dsimp only; (repeat' split) <;> simp
@[simp] theorem faultVerdict_pending (i : StationNo) (m : Mark) (c : Context) (s : State) : (faultVerdict i m c s).pending = s.pending := by unfold faultVerdict; dsimp only; (repeat' split) <;> simp

@[simp] theorem presenceVerdict_mu (i : StationNo) (c : Context) (s : State) : (presenceVerdict i c s).mu = s.mu := by unfold presenceVerdict; dsimp only; (repeat' split) <;> simp
@[simp] theorem presenceVerdict_fu (i : StationNo) (c : Context) (s : State) : (presenceVerdict i c s).fu = s.fu := by unfold presenceVerdict; dsimp only; (repeat' split) <;> simp
@[simp] theorem presenceVerdict_au (i : StationNo) (c : Context) (s : State) : (presenceVerdict i c s).au = s.au := by unfold presenceVerdict; dsimp only; (repeat' split) <;> simp
@[simp] theorem presenceVerdict_pp (i : StationNo) (c : Context) (s : State) : (presenceVerdict i c s).pp = s.pp := by unfold presenceVerdict; dsimp only; (repeat' split) <;> simp
@[simp] theorem presenceVerdict_gm (i : StationNo) (c : Context) (s : State) : (presenceVerdict i c s).gm = s.gm := by unfold presenceVerdict; dsimp only; (repeat' split) <;> simp
@[simp] theorem presenceVerdict_bu (i : StationNo) (c : Context) (s : State) : (presenceVerdict i c s).bu = s.bu := by unfold presenceVerdict; dsimp only; (repeat' split) <;> simp
@[simp] theorem presenceVerdict_pins (i : StationNo) (c : Context) (s : State) : (presenceVerdict i c s).pins = s.pins := by unfold presenceVerdict; dsimp only; (repeat' split) <;> simp
@[simp] theorem presenceVerdict_inReset (i : StationNo) (c : Context) (s : State) : (presenceVerdict i c s).inReset = s.inReset := by unfold presenceVerdict; dsimp only; (repeat' split) <;> simp
@[simp] theorem presenceVerdict_countIndex (i : StationNo) (c : Context) (s : State) : (presenceVerdict i c s).countIndex = s.countIndex := by unfold presenceVerdict; dsimp only; (repeat' split) <;> simp
@[simp] theorem presenceVerdict_pending (i : StationNo) (c : Context) (s : State) : (presenceVerdict i c s).pending = s.pending := by unfold presenceVerdict; dsimp only; (repeat' split) <;> simp

@[simp] theorem presenceNotTaken_mu (i : StationNo) (s : State) : (presenceNotTaken i s).mu = s.mu := by unfold presenceNotTaken; (repeat' split) <;> simp
@[simp] theorem presenceNotTaken_fu (i : StationNo) (s : State) : (presenceNotTaken i s).fu = s.fu := by unfold presenceNotTaken; (repeat' split) <;> simp
@[simp] theorem presenceNotTaken_au (i : StationNo) (s : State) : (presenceNotTaken i s).au = s.au := by unfold presenceNotTaken; (repeat' split) <;> simp
@[simp] theorem presenceNotTaken_cu (i : StationNo) (s : State) : (presenceNotTaken i s).cu = s.cu := by unfold presenceNotTaken; (repeat' split) <;> simp
@[simp] theorem presenceNotTaken_pp (i : StationNo) (s : State) : (presenceNotTaken i s).pp = s.pp := by unfold presenceNotTaken; (repeat' split) <;> simp
@[simp] theorem presenceNotTaken_gm (i : StationNo) (s : State) : (presenceNotTaken i s).gm = s.gm := by unfold presenceNotTaken; (repeat' split) <;> simp
@[simp] theorem presenceNotTaken_bu (i : StationNo) (s : State) : (presenceNotTaken i s).bu = s.bu := by unfold presenceNotTaken; (repeat' split) <;> simp
@[simp] theorem presenceNotTaken_lc (i : StationNo) (s : State) : (presenceNotTaken i s).lc = s.lc := by unfold presenceNotTaken; (repeat' split) <;> simp
@[simp] theorem presenceNotTaken_ll (i : StationNo) (s : State) : (presenceNotTaken i s).ll = s.ll := by unfold presenceNotTaken; (repeat' split) <;> simp
@[simp] theorem presenceNotTaken_pins (i : StationNo) (s : State) : (presenceNotTaken i s).pins = s.pins := by unfold presenceNotTaken; (repeat' split) <;> simp
@[simp] theorem presenceNotTaken_inReset (i : StationNo) (s : State) : (presenceNotTaken i s).inReset = s.inReset := by unfold presenceNotTaken; (repeat' split) <;> simp
@[simp] theorem presenceNotTaken_countIndex (i : StationNo) (s : State) : (presenceNotTaken i s).countIndex = s.countIndex := by unfold presenceNotTaken; (repeat' split) <;> simp
@[simp] theorem presenceNotTaken_pending (i : StationNo) (s : State) : (presenceNotTaken i s).pending = s.pending := by unfold presenceNotTaken; (repeat' split) <;> simp

@[simp] theorem closeWindow_mu (i : StationNo) (s : State) : (closeWindow i s).mu = s.mu := by unfold closeWindow; (repeat' split) <;> simp
@[simp] theorem closeWindow_fu (i : StationNo) (s : State) : (closeWindow i s).fu = s.fu := by unfold closeWindow; (repeat' split) <;> simp
@[simp] theorem closeWindow_au (i : StationNo) (s : State) : (closeWindow i s).au = s.au := by unfold closeWindow; (repeat' split) <;> simp
@[simp] theorem closeWindow_pp (i : StationNo) (s : State) : (closeWindow i s).pp = s.pp := by unfold closeWindow; (repeat' split) <;> simp
@[simp] theorem closeWindow_gm (i : StationNo) (s : State) : (closeWindow i s).gm = s.gm := by unfold closeWindow; (repeat' split) <;> simp
@[simp] theorem closeWindow_bu (i : StationNo) (s : State) : (closeWindow i s).bu = s.bu := by unfold closeWindow; (repeat' split) <;> simp
@[simp] theorem closeWindow_pins (i : StationNo) (s : State) : (closeWindow i s).pins = s.pins := by unfold closeWindow; (repeat' split) <;> simp
@[simp] theorem closeWindow_inReset (i : StationNo) (s : State) : (closeWindow i s).inReset = s.inReset := by unfold closeWindow; (repeat' split) <;> simp
@[simp] theorem closeWindow_countIndex (i : StationNo) (s : State) : (closeWindow i s).countIndex = s.countIndex := by unfold closeWindow; (repeat' split) <;> simp
@[simp] theorem closeWindow_pending (i : StationNo) (s : State) : (closeWindow i s).pending = s.pending := by unfold closeWindow; (repeat' split) <;> simp

@[simp] theorem takeSample_mu (i : StationNo) (s : State) : (takeSample i s).mu = s.mu := by unfold takeSample; split <;> simp
@[simp] theorem takeSample_fu (i : StationNo) (s : State) : (takeSample i s).fu = s.fu := by unfold takeSample; split <;> simp
@[simp] theorem takeSample_au (i : StationNo) (s : State) : (takeSample i s).au = s.au := by unfold takeSample; split <;> simp
@[simp] theorem takeSample_tu (i : StationNo) (s : State) : (takeSample i s).tu = s.tu := by unfold takeSample; split <;> simp
@[simp] theorem takeSample_pp (i : StationNo) (s : State) : (takeSample i s).pp = s.pp := by unfold takeSample; split <;> simp
@[simp] theorem takeSample_gm (i : StationNo) (s : State) : (takeSample i s).gm = s.gm := by unfold takeSample; split <;> simp
@[simp] theorem takeSample_bu (i : StationNo) (s : State) : (takeSample i s).bu = s.bu := by unfold takeSample; split <;> simp
@[simp] theorem takeSample_lc (i : StationNo) (s : State) : (takeSample i s).lc = s.lc := by unfold takeSample; split <;> simp
@[simp] theorem takeSample_ll (i : StationNo) (s : State) : (takeSample i s).ll = s.ll := by unfold takeSample; split <;> simp
@[simp] theorem takeSample_inReset (i : StationNo) (s : State) : (takeSample i s).inReset = s.inReset := by unfold takeSample; split <;> simp
@[simp] theorem takeSample_countIndex (i : StationNo) (s : State) : (takeSample i s).countIndex = s.countIndex := by unfold takeSample; split <;> simp
@[simp] theorem takeSample_pending (i : StationNo) (s : State) : (takeSample i s).pending = s.pending := by unfold takeSample; split <;> simp

@[simp] theorem zeroCheck_mu (i : StationNo) (r : Nat) (s : State) : (zeroCheck i r s).mu = s.mu := by unfold zeroCheck; dsimp only; (repeat' split) <;> simp
@[simp] theorem zeroCheck_fu (i : StationNo) (r : Nat) (s : State) : (zeroCheck i r s).fu = s.fu := by unfold zeroCheck; dsimp only; (repeat' split) <;> simp
@[simp] theorem zeroCheck_au (i : StationNo) (r : Nat) (s : State) : (zeroCheck i r s).au = s.au := by unfold zeroCheck; dsimp only; (repeat' split) <;> simp
@[simp] theorem zeroCheck_tu (i : StationNo) (r : Nat) (s : State) : (zeroCheck i r s).tu = s.tu := by unfold zeroCheck; dsimp only; (repeat' split) <;> simp
@[simp] theorem zeroCheck_pp (i : StationNo) (r : Nat) (s : State) : (zeroCheck i r s).pp = s.pp := by unfold zeroCheck; dsimp only; (repeat' split) <;> simp
@[simp] theorem zeroCheck_gm (i : StationNo) (r : Nat) (s : State) : (zeroCheck i r s).gm = s.gm := by unfold zeroCheck; dsimp only; (repeat' split) <;> simp
@[simp] theorem zeroCheck_bu (i : StationNo) (r : Nat) (s : State) : (zeroCheck i r s).bu = s.bu := by unfold zeroCheck; dsimp only; (repeat' split) <;> simp
@[simp] theorem zeroCheck_pins (i : StationNo) (r : Nat) (s : State) : (zeroCheck i r s).pins = s.pins := by unfold zeroCheck; dsimp only; (repeat' split) <;> simp
@[simp] theorem zeroCheck_inReset (i : StationNo) (r : Nat) (s : State) : (zeroCheck i r s).inReset = s.inReset := by unfold zeroCheck; dsimp only; (repeat' split) <;> simp
@[simp] theorem zeroCheck_countIndex (i : StationNo) (r : Nat) (s : State) : (zeroCheck i r s).countIndex = s.countIndex := by unfold zeroCheck; dsimp only; (repeat' split) <;> simp
@[simp] theorem zeroCheck_pending (i : StationNo) (r : Nat) (s : State) : (zeroCheck i r s).pending = s.pending := by unfold zeroCheck; dsimp only; (repeat' split) <;> simp

@[simp] theorem thicknessVerdict_mu (i : StationNo) (r : Nat) (c : Context) (s : State) : (thicknessVerdict i r c s).mu = s.mu := by unfold thicknessVerdict; dsimp only; (repeat' split) <;> simp
@[simp] theorem thicknessVerdict_fu (i : StationNo) (r : Nat) (c : Context) (s : State) : (thicknessVerdict i r c s).fu = s.fu := by unfold thicknessVerdict; dsimp only; (repeat' split) <;> simp
@[simp] theorem thicknessVerdict_au (i : StationNo) (r : Nat) (c : Context) (s : State) : (thicknessVerdict i r c s).au = s.au := by unfold thicknessVerdict; dsimp only; (repeat' split) <;> simp
@[simp] theorem thicknessVerdict_pp (i : StationNo) (r : Nat) (c : Context) (s : State) : (thicknessVerdict i r c s).pp = s.pp := by unfold thicknessVerdict; dsimp only; (repeat' split) <;> simp
@[simp] theorem thicknessVerdict_gm (i : StationNo) (r : Nat) (c : Context) (s : State) : (thicknessVerdict i r c s).gm = s.gm := by unfold thicknessVerdict; dsimp only; (repeat' split) <;> simp
@[simp] theorem thicknessVerdict_bu (i : StationNo) (r : Nat) (c : Context) (s : State) : (thicknessVerdict i r c s).bu = s.bu := by unfold thicknessVerdict; dsimp only; (repeat' split) <;> simp
@[simp] theorem thicknessVerdict_pins (i : StationNo) (r : Nat) (c : Context) (s : State) : (thicknessVerdict i r c s).pins = s.pins := by unfold thicknessVerdict; dsimp only; (repeat' split) <;> simp
@[simp] theorem thicknessVerdict_inReset (i : StationNo) (r : Nat) (c : Context) (s : State) : (thicknessVerdict i r c s).inReset = s.inReset := by unfold thicknessVerdict; dsimp only; (repeat' split) <;> simp
@[simp] theorem thicknessVerdict_countIndex (i : StationNo) (r : Nat) (c : Context) (s : State) : (thicknessVerdict i r c s).countIndex = s.countIndex := by unfold thicknessVerdict; dsimp only; (repeat' split) <;> simp
@[simp] theorem thicknessVerdict_pending (i : StationNo) (r : Nat) (c : Context) (s : State) : (thicknessVerdict i r c s).pending = s.pending := by unfold thicknessVerdict; dsimp only; (repeat' split) <;> simp

@[simp] theorem completeMeasurement_mu (i : StationNo) (s : State) : (completeMeasurement i s).mu = s.mu := by unfold completeMeasurement; split <;> simp
@[simp] theorem completeMeasurement_fu (i : StationNo) (s : State) : (completeMeasurement i s).fu = s.fu := by unfold completeMeasurement; split <;> simp
@[simp] theorem completeMeasurement_au (i : StationNo) (s : State) : (completeMeasurement i s).au = s.au := by unfold completeMeasurement; split <;> simp
@[simp] theorem completeMeasurement_pp (i : StationNo) (s : State) : (completeMeasurement i s).pp = s.pp := by unfold completeMeasurement; split <;> simp
@[simp] theorem completeMeasurement_gm (i : StationNo) (s : State) : (completeMeasurement i s).gm = s.gm := by unfold completeMeasurement; split <;> simp
@[simp] theorem completeMeasurement_bu (i : StationNo) (s : State) : (completeMeasurement i s).bu = s.bu := by unfold completeMeasurement; split <;> simp
@[simp] theorem completeMeasurement_pins (i : StationNo) (s : State) : (completeMeasurement i s).pins = s.pins := by unfold completeMeasurement; split <;> simp
@[simp] theorem completeMeasurement_inReset (i : StationNo) (s : State) : (completeMeasurement i s).inReset = s.inReset := by unfold completeMeasurement; split <;> simp
@[simp] theorem completeMeasurement_countIndex (i : StationNo) (s : State) : (completeMeasurement i s).countIndex = s.countIndex := by unfold completeMeasurement; split <;> simp
@[simp] theorem completeMeasurement_pending (i : StationNo) (s : State) : (completeMeasurement i s).pending = s.pending := by unfold completeMeasurement; split <;> simp

@[simp] theorem takeSamples_mu (i : StationNo) (fuel : Nat) (s : State) : (takeSamples i fuel s).mu = s.mu := by
  induction fuel generalizing s with
  | zero => rfl
  | succ n ih =>
    unfold takeSamples
    dsimp only
    (repeat' split) <;> simp [ih]
@[simp] theorem takeSamples_fu (i : StationNo) (fuel : Nat) (s : State) : (takeSamples i fuel s).fu = s.fu := by
  induction fuel generalizing s with
  | zero => rfl
  | succ n ih =>
    unfold takeSamples
    dsimp only
    (repeat' split) <;> simp [ih]
@[simp] theorem takeSamples_au (i : StationNo) (fuel : Nat) (s : State) : (takeSamples i fuel s).au = s.au := by
  induction fuel generalizing s with
  | zero => rfl
  | succ n ih =>
    unfold takeSamples
    dsimp only
    (repeat' split) <;> simp [ih]
@[simp] theorem takeSamples_pp (i : StationNo) (fuel : Nat) (s : State) : (takeSamples i fuel s).pp = s.pp := by
  induction fuel generalizing s with
  | zero => rfl
  | succ n ih =>
    unfold takeSamples
    dsimp only
    (repeat' split) <;> simp [ih]
@[simp] theorem takeSamples_gm (i : StationNo) (fuel : Nat) (s : State) : (takeSamples i fuel s).gm = s.gm := by
  induction fuel generalizing s with
  | zero => rfl
  | succ n ih =>
    unfold takeSamples
    dsimp only
    (repeat' split) <;> simp [ih]
@[simp] theorem takeSamples_bu (i : StationNo) (fuel : Nat) (s : State) : (takeSamples i fuel s).bu = s.bu := by
  induction fuel generalizing s with
  | zero => rfl
  | succ n ih =>
    unfold takeSamples
    dsimp only
    (repeat' split) <;> simp [ih]
@[simp] theorem takeSamples_inReset (i : StationNo) (fuel : Nat) (s : State) : (takeSamples i fuel s).inReset = s.inReset := by
  induction fuel generalizing s with
  | zero => rfl
  | succ n ih =>
    unfold takeSamples
    dsimp only
    (repeat' split) <;> simp [ih]
@[simp] theorem takeSamples_countIndex (i : StationNo) (fuel : Nat) (s : State) : (takeSamples i fuel s).countIndex = s.countIndex := by
  induction fuel generalizing s with
  | zero => rfl
  | succ n ih =>
    unfold takeSamples
    dsimp only
    (repeat' split) <;> simp [ih]
@[simp] theorem takeSamples_pending (i : StationNo) (fuel : Nat) (s : State) : (takeSamples i fuel s).pending = s.pending := by
  induction fuel generalizing s with
  | zero => rfl
  | succ n ih =>
    unfold takeSamples
    dsimp only
    (repeat' split) <;> simp [ih]

@[simp] theorem beginMeasurement_mu (i : StationNo) (s : State) : (beginMeasurement i s).mu = s.mu := by unfold beginMeasurement; (repeat' split) <;> simp
@[simp] theorem beginMeasurement_fu (i : StationNo) (s : State) : (beginMeasurement i s).fu = s.fu := by unfold beginMeasurement; (repeat' split) <;> simp
@[simp] theorem beginMeasurement_au (i : StationNo) (s : State) : (beginMeasurement i s).au = s.au := by unfold beginMeasurement; (repeat' split) <;> simp
@[simp] theorem beginMeasurement_pp (i : StationNo) (s : State) : (beginMeasurement i s).pp = s.pp := by unfold beginMeasurement; (repeat' split) <;> simp
@[simp] theorem beginMeasurement_gm (i : StationNo) (s : State) : (beginMeasurement i s).gm = s.gm := by unfold beginMeasurement; (repeat' split) <;> simp
@[simp] theorem beginMeasurement_bu (i : StationNo) (s : State) : (beginMeasurement i s).bu = s.bu := by unfold beginMeasurement; (repeat' split) <;> simp
@[simp] theorem beginMeasurement_inReset (i : StationNo) (s : State) : (beginMeasurement i s).inReset = s.inReset := by unfold beginMeasurement; (repeat' split) <;> simp
@[simp] theorem beginMeasurement_countIndex (i : StationNo) (s : State) : (beginMeasurement i s).countIndex = s.countIndex := by unfold beginMeasurement; (repeat' split) <;> simp
@[simp] theorem beginMeasurement_pending (i : StationNo) (s : State) : (beginMeasurement i s).pending = s.pending := by unfold beginMeasurement; (repeat' split) <;> simp

@[simp] theorem caliperCount_mu (i : StationNo) (s : State) : (caliperCount i s).mu = s.mu := by unfold caliperCount; split <;> simp
@[simp] theorem caliperCount_fu (i : StationNo) (s : State) : (caliperCount i s).fu = s.fu := by unfold caliperCount; split <;> simp
@[simp] theorem caliperCount_au (i : StationNo) (s : State) : (caliperCount i s).au = s.au := by unfold caliperCount; split <;> simp
@[simp] theorem caliperCount_pp (i : StationNo) (s : State) : (caliperCount i s).pp = s.pp := by unfold caliperCount; split <;> simp
@[simp] theorem caliperCount_gm (i : StationNo) (s : State) : (caliperCount i s).gm = s.gm := by unfold caliperCount; split <;> simp
@[simp] theorem caliperCount_bu (i : StationNo) (s : State) : (caliperCount i s).bu = s.bu := by unfold caliperCount; split <;> simp
@[simp] theorem caliperCount_inReset (i : StationNo) (s : State) : (caliperCount i s).inReset = s.inReset := by unfold caliperCount; split <;> simp
@[simp] theorem caliperCount_countIndex (i : StationNo) (s : State) : (caliperCount i s).countIndex = s.countIndex := by unfold caliperCount; split <;> simp
@[simp] theorem caliperCount_pending (i : StationNo) (s : State) : (caliperCount i s).pending = s.pending := by unfold caliperCount; split <;> simp

@[simp] theorem raiseJam_au (i : StationNo) (s : State) : (raiseJam i s).au = s.au := by simp [raiseJam]
@[simp] theorem raiseJam_pp (i : StationNo) (s : State) : (raiseJam i s).pp = s.pp := by simp [raiseJam]
@[simp] theorem raiseJam_gm (i : StationNo) (s : State) : (raiseJam i s).gm = s.gm := by simp [raiseJam]
@[simp] theorem raiseJam_bu (i : StationNo) (s : State) : (raiseJam i s).bu = s.bu := by simp [raiseJam]
@[simp] theorem raiseJam_pins (i : StationNo) (s : State) : (raiseJam i s).pins = s.pins := by simp [raiseJam]
@[simp] theorem raiseJam_inReset (i : StationNo) (s : State) : (raiseJam i s).inReset = s.inReset := by simp [raiseJam]
@[simp] theorem raiseJam_countIndex (i : StationNo) (s : State) : (raiseJam i s).countIndex = s.countIndex := by simp [raiseJam]
@[simp] theorem raiseJam_pending (i : StationNo) (s : State) : (raiseJam i s).pending = s.pending := by simp [raiseJam]

@[simp] theorem strayRead_mu (r : StrayReason) (v : ReadResult) (s : State) : (strayRead r v s).mu = s.mu := by simp [strayRead]
@[simp] theorem strayRead_fu (r : StrayReason) (v : ReadResult) (s : State) : (strayRead r v s).fu = s.fu := by simp [strayRead]
@[simp] theorem strayRead_au (r : StrayReason) (v : ReadResult) (s : State) : (strayRead r v s).au = s.au := by simp [strayRead]
@[simp] theorem strayRead_tu (r : StrayReason) (v : ReadResult) (s : State) : (strayRead r v s).tu = s.tu := by simp [strayRead]
@[simp] theorem strayRead_pp (r : StrayReason) (v : ReadResult) (s : State) : (strayRead r v s).pp = s.pp := by simp [strayRead]
@[simp] theorem strayRead_gm (r : StrayReason) (v : ReadResult) (s : State) : (strayRead r v s).gm = s.gm := by simp [strayRead]
@[simp] theorem strayRead_bu (r : StrayReason) (v : ReadResult) (s : State) : (strayRead r v s).bu = s.bu := by simp [strayRead]
@[simp] theorem strayRead_lc (r : StrayReason) (v : ReadResult) (s : State) : (strayRead r v s).lc = s.lc := by simp [strayRead]
@[simp] theorem strayRead_pins (r : StrayReason) (v : ReadResult) (s : State) : (strayRead r v s).pins = s.pins := by simp [strayRead]
@[simp] theorem strayRead_inReset (r : StrayReason) (v : ReadResult) (s : State) : (strayRead r v s).inReset = s.inReset := by simp [strayRead]
@[simp] theorem strayRead_countIndex (r : StrayReason) (v : ReadResult) (s : State) : (strayRead r v s).countIndex = s.countIndex := by simp [strayRead]
@[simp] theorem strayRead_pending (r : StrayReason) (v : ReadResult) (s : State) : (strayRead r v s).pending = s.pending := by simp [strayRead]

@[simp] theorem readerArrival_mu (v : ReadResult) (s : State) : (readerArrival v s).mu = s.mu := by unfold readerArrival; (repeat' split) <;> simp
@[simp] theorem readerArrival_fu (v : ReadResult) (s : State) : (readerArrival v s).fu = s.fu := by unfold readerArrival; (repeat' split) <;> simp
@[simp] theorem readerArrival_au (v : ReadResult) (s : State) : (readerArrival v s).au = s.au := by unfold readerArrival; (repeat' split) <;> simp
@[simp] theorem readerArrival_pp (v : ReadResult) (s : State) : (readerArrival v s).pp = s.pp := by unfold readerArrival; (repeat' split) <;> simp
@[simp] theorem readerArrival_gm (v : ReadResult) (s : State) : (readerArrival v s).gm = s.gm := by unfold readerArrival; (repeat' split) <;> simp
@[simp] theorem readerArrival_bu (v : ReadResult) (s : State) : (readerArrival v s).bu = s.bu := by unfold readerArrival; (repeat' split) <;> simp
@[simp] theorem readerArrival_lc (v : ReadResult) (s : State) : (readerArrival v s).lc = s.lc := by unfold readerArrival; (repeat' split) <;> simp
@[simp] theorem readerArrival_pins (v : ReadResult) (s : State) : (readerArrival v s).pins = s.pins := by unfold readerArrival; (repeat' split) <;> simp
@[simp] theorem readerArrival_inReset (v : ReadResult) (s : State) : (readerArrival v s).inReset = s.inReset := by unfold readerArrival; (repeat' split) <;> simp
@[simp] theorem readerArrival_countIndex (v : ReadResult) (s : State) : (readerArrival v s).countIndex = s.countIndex := by unfold readerArrival; (repeat' split) <;> simp
@[simp] theorem readerArrival_pending (v : ReadResult) (s : State) : (readerArrival v s).pending = s.pending := by unfold readerArrival; (repeat' split) <;> simp

@[simp] theorem verifyJudgement_mu (f : Bool) (s : State) : (verifyJudgement f s).mu = s.mu := by unfold verifyJudgement; (repeat' split) <;> simp
@[simp] theorem verifyJudgement_fu (f : Bool) (s : State) : (verifyJudgement f s).fu = s.fu := by unfold verifyJudgement; (repeat' split) <;> simp
@[simp] theorem verifyJudgement_au (f : Bool) (s : State) : (verifyJudgement f s).au = s.au := by unfold verifyJudgement; (repeat' split) <;> simp
@[simp] theorem verifyJudgement_pp (f : Bool) (s : State) : (verifyJudgement f s).pp = s.pp := by unfold verifyJudgement; (repeat' split) <;> simp
@[simp] theorem verifyJudgement_gm (f : Bool) (s : State) : (verifyJudgement f s).gm = s.gm := by unfold verifyJudgement; (repeat' split) <;> simp
@[simp] theorem verifyJudgement_bu (f : Bool) (s : State) : (verifyJudgement f s).bu = s.bu := by unfold verifyJudgement; (repeat' split) <;> simp
@[simp] theorem verifyJudgement_pins (f : Bool) (s : State) : (verifyJudgement f s).pins = s.pins := by unfold verifyJudgement; (repeat' split) <;> simp
@[simp] theorem verifyJudgement_inReset (f : Bool) (s : State) : (verifyJudgement f s).inReset = s.inReset := by unfold verifyJudgement; (repeat' split) <;> simp
@[simp] theorem verifyJudgement_countIndex (f : Bool) (s : State) : (verifyJudgement f s).countIndex = s.countIndex := by unfold verifyJudgement; (repeat' split) <;> simp
@[simp] theorem verifyJudgement_pending (f : Bool) (s : State) : (verifyJudgement f s).pending = s.pending := by unfold verifyJudgement; (repeat' split) <;> simp

@[simp] theorem presenceCloseOut_mu (i : StationNo) (s : State) : (presenceCloseOut i s).mu = s.mu := by unfold presenceCloseOut; split <;> simp
@[simp] theorem presenceCloseOut_fu (i : StationNo) (s : State) : (presenceCloseOut i s).fu = s.fu := by unfold presenceCloseOut; split <;> simp
@[simp] theorem presenceCloseOut_au (i : StationNo) (s : State) : (presenceCloseOut i s).au = s.au := by unfold presenceCloseOut; split <;> simp
@[simp] theorem presenceCloseOut_cu (i : StationNo) (s : State) : (presenceCloseOut i s).cu = s.cu := by unfold presenceCloseOut; split <;> simp
@[simp] theorem presenceCloseOut_pp (i : StationNo) (s : State) : (presenceCloseOut i s).pp = s.pp := by unfold presenceCloseOut; split <;> simp
@[simp] theorem presenceCloseOut_gm (i : StationNo) (s : State) : (presenceCloseOut i s).gm = s.gm := by unfold presenceCloseOut; split <;> simp
@[simp] theorem presenceCloseOut_bu (i : StationNo) (s : State) : (presenceCloseOut i s).bu = s.bu := by unfold presenceCloseOut; split <;> simp
@[simp] theorem presenceCloseOut_lc (i : StationNo) (s : State) : (presenceCloseOut i s).lc = s.lc := by unfold presenceCloseOut; split <;> simp
@[simp] theorem presenceCloseOut_ll (i : StationNo) (s : State) : (presenceCloseOut i s).ll = s.ll := by unfold presenceCloseOut; split <;> simp
@[simp] theorem presenceCloseOut_pins (i : StationNo) (s : State) : (presenceCloseOut i s).pins = s.pins := by unfold presenceCloseOut; split <;> simp
@[simp] theorem presenceCloseOut_inReset (i : StationNo) (s : State) : (presenceCloseOut i s).inReset = s.inReset := by unfold presenceCloseOut; split <;> simp
@[simp] theorem presenceCloseOut_countIndex (i : StationNo) (s : State) : (presenceCloseOut i s).countIndex = s.countIndex := by unfold presenceCloseOut; split <;> simp
@[simp] theorem presenceCloseOut_pending (i : StationNo) (s : State) : (presenceCloseOut i s).pending = s.pending := by unfold presenceCloseOut; split <;> simp

@[simp] theorem checkCloseOut_mu (f : Bool) (s : State) : (checkCloseOut f s).mu = s.mu := by simp [checkCloseOut]
@[simp] theorem checkCloseOut_fu (f : Bool) (s : State) : (checkCloseOut f s).fu = s.fu := by simp [checkCloseOut]
@[simp] theorem checkCloseOut_au (f : Bool) (s : State) : (checkCloseOut f s).au = s.au := by simp [checkCloseOut]
@[simp] theorem checkCloseOut_pp (f : Bool) (s : State) : (checkCloseOut f s).pp = s.pp := by simp [checkCloseOut]
@[simp] theorem checkCloseOut_gm (f : Bool) (s : State) : (checkCloseOut f s).gm = s.gm := by simp [checkCloseOut]
@[simp] theorem checkCloseOut_bu (f : Bool) (s : State) : (checkCloseOut f s).bu = s.bu := by simp [checkCloseOut]
@[simp] theorem checkCloseOut_pins (f : Bool) (s : State) : (checkCloseOut f s).pins = s.pins := by simp [checkCloseOut]
@[simp] theorem checkCloseOut_inReset (f : Bool) (s : State) : (checkCloseOut f s).inReset = s.inReset := by simp [checkCloseOut]
@[simp] theorem checkCloseOut_countIndex (f : Bool) (s : State) : (checkCloseOut f s).countIndex = s.countIndex := by simp [checkCloseOut]
@[simp] theorem checkCloseOut_pending (f : Bool) (s : State) : (checkCloseOut f s).pending = s.pending := by simp [checkCloseOut]

@[simp] theorem stationMissed_mu (i : StationNo) (s : State) : (stationMissed i s).mu = s.mu := by unfold stationMissed; split <;> simp
@[simp] theorem stationMissed_fu (i : StationNo) (s : State) : (stationMissed i s).fu = s.fu := by unfold stationMissed; split <;> simp
@[simp] theorem stationMissed_au (i : StationNo) (s : State) : (stationMissed i s).au = s.au := by unfold stationMissed; split <;> simp
@[simp] theorem stationMissed_cu (i : StationNo) (s : State) : (stationMissed i s).cu = s.cu := by unfold stationMissed; split <;> simp
@[simp] theorem stationMissed_bu (i : StationNo) (s : State) : (stationMissed i s).bu = s.bu := by unfold stationMissed; split <;> simp
@[simp] theorem stationMissed_lc (i : StationNo) (s : State) : (stationMissed i s).lc = s.lc := by unfold stationMissed; split <;> simp
@[simp] theorem stationMissed_ll (i : StationNo) (s : State) : (stationMissed i s).ll = s.ll := by unfold stationMissed; split <;> simp
@[simp] theorem stationMissed_pins (i : StationNo) (s : State) : (stationMissed i s).pins = s.pins := by unfold stationMissed; split <;> simp
@[simp] theorem stationMissed_inReset (i : StationNo) (s : State) : (stationMissed i s).inReset = s.inReset := by unfold stationMissed; split <;> simp
@[simp] theorem stationMissed_countIndex (i : StationNo) (s : State) : (stationMissed i s).countIndex = s.countIndex := by unfold stationMissed; split <;> simp
@[simp] theorem stationMissed_pending (i : StationNo) (s : State) : (stationMissed i s).pending = s.pending := by unfold stationMissed; split <;> simp

@[simp] theorem fireInFiring_pins (i : StationNo) (s : State) : (fireInFiring i s).pins = s.pins := by unfold fireInFiring; (repeat' split) <;> simp
@[simp] theorem fireInFiring_inReset (i : StationNo) (s : State) : (fireInFiring i s).inReset = s.inReset := by unfold fireInFiring; (repeat' split) <;> simp
@[simp] theorem fireInFiring_countIndex (i : StationNo) (s : State) : (fireInFiring i s).countIndex = s.countIndex := by unfold fireInFiring; (repeat' split) <;> simp
@[simp] theorem fireInFiring_pending (i : StationNo) (s : State) : (fireInFiring i s).pending = s.pending := by unfold fireInFiring; (repeat' split) <;> simp

@[simp] theorem takeFirePoint_pins (i : StationNo) (s : State) : (takeFirePoint i s).pins = s.pins := by unfold takeFirePoint; dsimp only; (repeat' split) <;> simp
@[simp] theorem takeFirePoint_inReset (i : StationNo) (s : State) : (takeFirePoint i s).inReset = s.inReset := by unfold takeFirePoint; dsimp only; (repeat' split) <;> simp
@[simp] theorem takeFirePoint_countIndex (i : StationNo) (s : State) : (takeFirePoint i s).countIndex = s.countIndex := by unfold takeFirePoint; dsimp only; (repeat' split) <;> simp
@[simp] theorem takeFirePoint_pending (i : StationNo) (s : State) : (takeFirePoint i s).pending = s.pending := by unfold takeFirePoint; dsimp only; (repeat' split) <;> simp

@[simp] theorem actionCloseOut_mu (i : StationNo) (s : State) : (actionCloseOut i s).mu = s.mu := by unfold actionCloseOut; split <;> simp
@[simp] theorem actionCloseOut_fu (i : StationNo) (s : State) : (actionCloseOut i s).fu = s.fu := by unfold actionCloseOut; split <;> simp
@[simp] theorem actionCloseOut_au (i : StationNo) (s : State) : (actionCloseOut i s).au = s.au := by unfold actionCloseOut; split <;> simp
@[simp] theorem actionCloseOut_cu (i : StationNo) (s : State) : (actionCloseOut i s).cu = s.cu := by unfold actionCloseOut; split <;> simp
@[simp] theorem actionCloseOut_pp (i : StationNo) (s : State) : (actionCloseOut i s).pp = s.pp := by unfold actionCloseOut; split <;> simp
@[simp] theorem actionCloseOut_gm (i : StationNo) (s : State) : (actionCloseOut i s).gm = s.gm := by unfold actionCloseOut; split <;> simp
@[simp] theorem actionCloseOut_bu (i : StationNo) (s : State) : (actionCloseOut i s).bu = s.bu := by unfold actionCloseOut; split <;> simp
@[simp] theorem actionCloseOut_lc (i : StationNo) (s : State) : (actionCloseOut i s).lc = s.lc := by unfold actionCloseOut; split <;> simp
@[simp] theorem actionCloseOut_ll (i : StationNo) (s : State) : (actionCloseOut i s).ll = s.ll := by unfold actionCloseOut; split <;> simp
@[simp] theorem actionCloseOut_pins (i : StationNo) (s : State) : (actionCloseOut i s).pins = s.pins := by unfold actionCloseOut; split <;> simp
@[simp] theorem actionCloseOut_inReset (i : StationNo) (s : State) : (actionCloseOut i s).inReset = s.inReset := by unfold actionCloseOut; split <;> simp
@[simp] theorem actionCloseOut_countIndex (i : StationNo) (s : State) : (actionCloseOut i s).countIndex = s.countIndex := by unfold actionCloseOut; split <;> simp
@[simp] theorem actionCloseOut_pending (i : StationNo) (s : State) : (actionCloseOut i s).pending = s.pending := by unfold actionCloseOut; split <;> simp

@[simp] theorem printCloseOut_mu (i : StationNo) (s : State) : (printCloseOut i s).mu = s.mu := by unfold printCloseOut; split <;> simp
@[simp] theorem printCloseOut_fu (i : StationNo) (s : State) : (printCloseOut i s).fu = s.fu := by unfold printCloseOut; split <;> simp
@[simp] theorem printCloseOut_au (i : StationNo) (s : State) : (printCloseOut i s).au = s.au := by unfold printCloseOut; split <;> simp
@[simp] theorem printCloseOut_cu (i : StationNo) (s : State) : (printCloseOut i s).cu = s.cu := by unfold printCloseOut; split <;> simp
@[simp] theorem printCloseOut_bu (i : StationNo) (s : State) : (printCloseOut i s).bu = s.bu := by unfold printCloseOut; split <;> simp
@[simp] theorem printCloseOut_lc (i : StationNo) (s : State) : (printCloseOut i s).lc = s.lc := by unfold printCloseOut; split <;> simp
@[simp] theorem printCloseOut_ll (i : StationNo) (s : State) : (printCloseOut i s).ll = s.ll := by unfold printCloseOut; split <;> simp
@[simp] theorem printCloseOut_pins (i : StationNo) (s : State) : (printCloseOut i s).pins = s.pins := by unfold printCloseOut; split <;> simp
@[simp] theorem printCloseOut_inReset (i : StationNo) (s : State) : (printCloseOut i s).inReset = s.inReset := by unfold printCloseOut; split <;> simp
@[simp] theorem printCloseOut_countIndex (i : StationNo) (s : State) : (printCloseOut i s).countIndex = s.countIndex := by unfold printCloseOut; split <;> simp
@[simp] theorem printCloseOut_pending (i : StationNo) (s : State) : (printCloseOut i s).pending = s.pending := by unfold printCloseOut; split <;> simp

@[simp] theorem recomputeStation_mu (i : StationNo) (s : State) : (recomputeStation i s).mu = s.mu := by unfold recomputeStation; (repeat' split) <;> simp
@[simp] theorem recomputeStation_au (i : StationNo) (s : State) : (recomputeStation i s).au = s.au := by unfold recomputeStation; (repeat' split) <;> simp
@[simp] theorem recomputeStation_cu (i : StationNo) (s : State) : (recomputeStation i s).cu = s.cu := by unfold recomputeStation; (repeat' split) <;> simp
@[simp] theorem recomputeStation_bu (i : StationNo) (s : State) : (recomputeStation i s).bu = s.bu := by unfold recomputeStation; (repeat' split) <;> simp
@[simp] theorem recomputeStation_lc (i : StationNo) (s : State) : (recomputeStation i s).lc = s.lc := by unfold recomputeStation; (repeat' split) <;> simp
@[simp] theorem recomputeStation_ll (i : StationNo) (s : State) : (recomputeStation i s).ll = s.ll := by unfold recomputeStation; (repeat' split) <;> simp
@[simp] theorem recomputeStation_pins (i : StationNo) (s : State) : (recomputeStation i s).pins = s.pins := by unfold recomputeStation; (repeat' split) <;> simp
@[simp] theorem recomputeStation_inReset (i : StationNo) (s : State) : (recomputeStation i s).inReset = s.inReset := by unfold recomputeStation; (repeat' split) <;> simp
@[simp] theorem recomputeStation_countIndex (i : StationNo) (s : State) : (recomputeStation i s).countIndex = s.countIndex := by unfold recomputeStation; (repeat' split) <;> simp
@[simp] theorem recomputeStation_pending (i : StationNo) (s : State) : (recomputeStation i s).pending = s.pending := by unfold recomputeStation; (repeat' split) <;> simp

@[simp] theorem runTask_inReset (fw : Bool) (k : CountTask) (s : State) : (runTask fw s k).inReset = s.inReset := by unfold runTask; (repeat' split) <;> simp
@[simp] theorem runTask_countIndex (fw : Bool) (k : CountTask) (s : State) : (runTask fw s k).countIndex = s.countIndex := by unfold runTask; (repeat' split) <;> simp
@[simp] theorem runTask_pending (fw : Bool) (k : CountTask) (s : State) : (runTask fw s k).pending = s.pending := by unfold runTask; (repeat' split) <;> simp

@[simp] theorem closeOut_pins (l : LineState) (e : PitchIndex) (s : State) : (closeOut l e s).pins = s.pins := by simp [closeOut]
@[simp] theorem closeOut_inReset (l : LineState) (e : PitchIndex) (s : State) : (closeOut l e s).inReset = s.inReset := by simp [closeOut]
@[simp] theorem closeOut_countIndex (l : LineState) (e : PitchIndex) (s : State) : (closeOut l e s).countIndex = s.countIndex := by simp [closeOut]
@[simp] theorem closeOut_pending (l : LineState) (e : PitchIndex) (s : State) : (closeOut l e s).pending = s.pending := by simp [closeOut]

@[simp] theorem pitchBoundary_pins (s : State) : (pitchBoundary s).pins = s.pins := by simp [pitchBoundary]
@[simp] theorem pitchBoundary_inReset (s : State) : (pitchBoundary s).inReset = s.inReset := by simp [pitchBoundary]
@[simp] theorem pitchBoundary_countIndex (s : State) : (pitchBoundary s).countIndex = s.countIndex := by simp [pitchBoundary]
@[simp] theorem pitchBoundary_pending (s : State) : (pitchBoundary s).pending = s.pending := by simp [pitchBoundary]

@[simp] theorem takeTasks_inReset (fw : Bool) (s : State) : (takeTasks fw s).inReset = s.inReset := by
  unfold takeTasks
  generalize orderTasks (Config.rank s.countIndex) (s.dueTasks fw) = l
  rw [countUp_inReset]
  induction l generalizing s with
  | nil => rfl
  | cons k l ih => rw [List.foldl_cons, ih, runTask_inReset]
@[simp] theorem takeTasks_pending (fw : Bool) (s : State) : (takeTasks fw s).pending = s.pending := by
  unfold takeTasks
  generalize orderTasks (Config.rank s.countIndex) (s.dueTasks fw) = l
  rw [countUp_pending]
  induction l generalizing s with
  | nil => rfl
  | cons k l ih => rw [List.foldl_cons, ih, runTask_pending]

@[simp] theorem advancePhase_pins (s : State) : (advancePhase s).pins = s.pins := by unfold advancePhase; split <;> simp
@[simp] theorem advancePhase_inReset (s : State) : (advancePhase s).inReset = s.inReset := by unfold advancePhase; split <;> simp
@[simp] theorem advancePhase_countIndex (s : State) : (advancePhase s).countIndex = s.countIndex := by unfold advancePhase; split <;> simp
@[simp] theorem advancePhase_pending (s : State) : (advancePhase s).pending = s.pending := by unfold advancePhase; split <;> simp

@[simp] theorem forwardCount_inReset (s : State) : (forwardCount s).inReset = s.inReset := by simp [forwardCount]
@[simp] theorem forwardCount_pending (s : State) : (forwardCount s).pending = s.pending := by simp [forwardCount]

@[simp] theorem reverseCount_inReset (s : State) : (reverseCount s).inReset = s.inReset := by simp [reverseCount]
@[simp] theorem reverseCount_pending (s : State) : (reverseCount s).pending = s.pending := by simp [reverseCount]

@[simp] theorem illegalTransition_au (s : State) : (illegalTransition s).au = s.au := by simp [illegalTransition]
@[simp] theorem illegalTransition_pp (s : State) : (illegalTransition s).pp = s.pp := by simp [illegalTransition]
@[simp] theorem illegalTransition_gm (s : State) : (illegalTransition s).gm = s.gm := by simp [illegalTransition]
@[simp] theorem illegalTransition_bu (s : State) : (illegalTransition s).bu = s.bu := by simp [illegalTransition]
@[simp] theorem illegalTransition_pins (s : State) : (illegalTransition s).pins = s.pins := by simp [illegalTransition]
@[simp] theorem illegalTransition_inReset (s : State) : (illegalTransition s).inReset = s.inReset := by simp [illegalTransition]
@[simp] theorem illegalTransition_countIndex (s : State) : (illegalTransition s).countIndex = s.countIndex := by simp [illegalTransition]
@[simp] theorem illegalTransition_pending (s : State) : (illegalTransition s).pending = s.pending := by simp [illegalTransition]

@[simp] theorem estopFault_au (s : State) : (estopFault s).au = s.au := by simp [estopFault]
@[simp] theorem estopFault_pp (s : State) : (estopFault s).pp = s.pp := by simp [estopFault]
@[simp] theorem estopFault_gm (s : State) : (estopFault s).gm = s.gm := by simp [estopFault]
@[simp] theorem estopFault_bu (s : State) : (estopFault s).bu = s.bu := by simp [estopFault]
@[simp] theorem estopFault_pins (s : State) : (estopFault s).pins = s.pins := by simp [estopFault]
@[simp] theorem estopFault_inReset (s : State) : (estopFault s).inReset = s.inReset := by simp [estopFault]
@[simp] theorem estopFault_countIndex (s : State) : (estopFault s).countIndex = s.countIndex := by simp [estopFault]
@[simp] theorem estopFault_pending (s : State) : (estopFault s).pending = s.pending := by simp [estopFault]

@[simp] theorem noticeGap_mu (l : Option Seq) (q : Seq) (s : State) : (noticeGap l q s).mu = s.mu := by unfold noticeGap; (repeat' split) <;> simp
@[simp] theorem noticeGap_fu (l : Option Seq) (q : Seq) (s : State) : (noticeGap l q s).fu = s.fu := by unfold noticeGap; (repeat' split) <;> simp
@[simp] theorem noticeGap_au (l : Option Seq) (q : Seq) (s : State) : (noticeGap l q s).au = s.au := by unfold noticeGap; (repeat' split) <;> simp
@[simp] theorem noticeGap_tu (l : Option Seq) (q : Seq) (s : State) : (noticeGap l q s).tu = s.tu := by unfold noticeGap; (repeat' split) <;> simp
@[simp] theorem noticeGap_cu (l : Option Seq) (q : Seq) (s : State) : (noticeGap l q s).cu = s.cu := by unfold noticeGap; (repeat' split) <;> simp
@[simp] theorem noticeGap_pp (l : Option Seq) (q : Seq) (s : State) : (noticeGap l q s).pp = s.pp := by unfold noticeGap; (repeat' split) <;> simp
@[simp] theorem noticeGap_gm (l : Option Seq) (q : Seq) (s : State) : (noticeGap l q s).gm = s.gm := by unfold noticeGap; (repeat' split) <;> simp
@[simp] theorem noticeGap_bu (l : Option Seq) (q : Seq) (s : State) : (noticeGap l q s).bu = s.bu := by unfold noticeGap; (repeat' split) <;> simp
@[simp] theorem noticeGap_lc (l : Option Seq) (q : Seq) (s : State) : (noticeGap l q s).lc = s.lc := by unfold noticeGap; (repeat' split) <;> simp
@[simp] theorem noticeGap_pins (l : Option Seq) (q : Seq) (s : State) : (noticeGap l q s).pins = s.pins := by unfold noticeGap; (repeat' split) <;> simp
@[simp] theorem noticeGap_inReset (l : Option Seq) (q : Seq) (s : State) : (noticeGap l q s).inReset = s.inReset := by unfold noticeGap; (repeat' split) <;> simp
@[simp] theorem noticeGap_countIndex (l : Option Seq) (q : Seq) (s : State) : (noticeGap l q s).countIndex = s.countIndex := by unfold noticeGap; (repeat' split) <;> simp
@[simp] theorem noticeGap_pending (l : Option Seq) (q : Seq) (s : State) : (noticeGap l q s).pending = s.pending := by unfold noticeGap; (repeat' split) <;> simp

@[simp] theorem noticeSubst_mu (q : Seq) (n : Nat) (s : State) : (noticeSubst q n s).mu = s.mu := by unfold noticeSubst; split <;> simp
@[simp] theorem noticeSubst_fu (q : Seq) (n : Nat) (s : State) : (noticeSubst q n s).fu = s.fu := by unfold noticeSubst; split <;> simp
@[simp] theorem noticeSubst_au (q : Seq) (n : Nat) (s : State) : (noticeSubst q n s).au = s.au := by unfold noticeSubst; split <;> simp
@[simp] theorem noticeSubst_tu (q : Seq) (n : Nat) (s : State) : (noticeSubst q n s).tu = s.tu := by unfold noticeSubst; split <;> simp
@[simp] theorem noticeSubst_cu (q : Seq) (n : Nat) (s : State) : (noticeSubst q n s).cu = s.cu := by unfold noticeSubst; split <;> simp
@[simp] theorem noticeSubst_pp (q : Seq) (n : Nat) (s : State) : (noticeSubst q n s).pp = s.pp := by unfold noticeSubst; split <;> simp
@[simp] theorem noticeSubst_gm (q : Seq) (n : Nat) (s : State) : (noticeSubst q n s).gm = s.gm := by unfold noticeSubst; split <;> simp
@[simp] theorem noticeSubst_bu (q : Seq) (n : Nat) (s : State) : (noticeSubst q n s).bu = s.bu := by unfold noticeSubst; split <;> simp
@[simp] theorem noticeSubst_lc (q : Seq) (n : Nat) (s : State) : (noticeSubst q n s).lc = s.lc := by unfold noticeSubst; split <;> simp
@[simp] theorem noticeSubst_pins (q : Seq) (n : Nat) (s : State) : (noticeSubst q n s).pins = s.pins := by unfold noticeSubst; split <;> simp
@[simp] theorem noticeSubst_inReset (q : Seq) (n : Nat) (s : State) : (noticeSubst q n s).inReset = s.inReset := by unfold noticeSubst; split <;> simp
@[simp] theorem noticeSubst_countIndex (q : Seq) (n : Nat) (s : State) : (noticeSubst q n s).countIndex = s.countIndex := by unfold noticeSubst; split <;> simp
@[simp] theorem noticeSubst_pending (q : Seq) (n : Nat) (s : State) : (noticeSubst q n s).pending = s.pending := by unfold noticeSubst; split <;> simp

@[simp] theorem acceptCopy_mu (i : Fin 16) (payload : List Byte) (o : Word16) (s : State) : (acceptCopy i payload o s).mu = s.mu := by simp [acceptCopy]
@[simp] theorem acceptCopy_fu (i : Fin 16) (payload : List Byte) (o : Word16) (s : State) : (acceptCopy i payload o s).fu = s.fu := by simp [acceptCopy]
@[simp] theorem acceptCopy_tu (i : Fin 16) (payload : List Byte) (o : Word16) (s : State) : (acceptCopy i payload o s).tu = s.tu := by simp [acceptCopy]
@[simp] theorem acceptCopy_cu (i : Fin 16) (payload : List Byte) (o : Word16) (s : State) : (acceptCopy i payload o s).cu = s.cu := by simp [acceptCopy]
@[simp] theorem acceptCopy_pp (i : Fin 16) (payload : List Byte) (o : Word16) (s : State) : (acceptCopy i payload o s).pp = s.pp := by simp [acceptCopy]
@[simp] theorem acceptCopy_gm (i : Fin 16) (payload : List Byte) (o : Word16) (s : State) : (acceptCopy i payload o s).gm = s.gm := by simp [acceptCopy]
@[simp] theorem acceptCopy_lc (i : Fin 16) (payload : List Byte) (o : Word16) (s : State) : (acceptCopy i payload o s).lc = s.lc := by simp [acceptCopy]
@[simp] theorem acceptCopy_pins (i : Fin 16) (payload : List Byte) (o : Word16) (s : State) : (acceptCopy i payload o s).pins = s.pins := by simp [acceptCopy]
@[simp] theorem acceptCopy_inReset (i : Fin 16) (payload : List Byte) (o : Word16) (s : State) : (acceptCopy i payload o s).inReset = s.inReset := by simp [acceptCopy]
@[simp] theorem acceptCopy_countIndex (i : Fin 16) (payload : List Byte) (o : Word16) (s : State) : (acceptCopy i payload o s).countIndex = s.countIndex := by simp [acceptCopy]
@[simp] theorem acceptCopy_pending (i : Fin 16) (payload : List Byte) (o : Word16) (s : State) : (acceptCopy i payload o s).pending = s.pending := by simp [acceptCopy]

@[simp] theorem holdEntry_mu (s : State) : (holdEntry s).mu = s.mu := by unfold holdEntry; split <;> simp
@[simp] theorem holdEntry_fu (s : State) : (holdEntry s).fu = s.fu := by unfold holdEntry; split <;> simp
@[simp] theorem holdEntry_tu (s : State) : (holdEntry s).tu = s.tu := by unfold holdEntry; split <;> simp
@[simp] theorem holdEntry_cu (s : State) : (holdEntry s).cu = s.cu := by unfold holdEntry; split <;> simp
@[simp] theorem holdEntry_pp (s : State) : (holdEntry s).pp = s.pp := by unfold holdEntry; split <;> simp
@[simp] theorem holdEntry_gm (s : State) : (holdEntry s).gm = s.gm := by unfold holdEntry; split <;> simp
@[simp] theorem holdEntry_bu (s : State) : (holdEntry s).bu = s.bu := by unfold holdEntry; split <;> simp
@[simp] theorem holdEntry_lc (s : State) : (holdEntry s).lc = s.lc := by unfold holdEntry; split <;> simp
@[simp] theorem holdEntry_ll (s : State) : (holdEntry s).ll = s.ll := by unfold holdEntry; split <;> simp
@[simp] theorem holdEntry_pins (s : State) : (holdEntry s).pins = s.pins := by unfold holdEntry; split <;> simp
@[simp] theorem holdEntry_inReset (s : State) : (holdEntry s).inReset = s.inReset := by unfold holdEntry; split <;> simp
@[simp] theorem holdEntry_countIndex (s : State) : (holdEntry s).countIndex = s.countIndex := by unfold holdEntry; split <;> simp
@[simp] theorem holdEntry_pending (s : State) : (holdEntry s).pending = s.pending := by unfold holdEntry; split <;> simp

@[simp] theorem ownCopy_mu (payload : List Byte) (s : State) : ((ownCopy payload s).1).mu = s.mu := by unfold ownCopy; (repeat' split) <;> simp
@[simp] theorem ownCopy_fu (payload : List Byte) (s : State) : ((ownCopy payload s).1).fu = s.fu := by unfold ownCopy; (repeat' split) <;> simp
@[simp] theorem ownCopy_tu (payload : List Byte) (s : State) : ((ownCopy payload s).1).tu = s.tu := by unfold ownCopy; (repeat' split) <;> simp
@[simp] theorem ownCopy_cu (payload : List Byte) (s : State) : ((ownCopy payload s).1).cu = s.cu := by unfold ownCopy; (repeat' split) <;> simp
@[simp] theorem ownCopy_pp (payload : List Byte) (s : State) : ((ownCopy payload s).1).pp = s.pp := by unfold ownCopy; (repeat' split) <;> simp
@[simp] theorem ownCopy_gm (payload : List Byte) (s : State) : ((ownCopy payload s).1).gm = s.gm := by unfold ownCopy; (repeat' split) <;> simp
@[simp] theorem ownCopy_lc (payload : List Byte) (s : State) : ((ownCopy payload s).1).lc = s.lc := by unfold ownCopy; (repeat' split) <;> simp
@[simp] theorem ownCopy_pins (payload : List Byte) (s : State) : ((ownCopy payload s).1).pins = s.pins := by unfold ownCopy; (repeat' split) <;> simp
@[simp] theorem ownCopy_inReset (payload : List Byte) (s : State) : ((ownCopy payload s).1).inReset = s.inReset := by unfold ownCopy; (repeat' split) <;> simp
@[simp] theorem ownCopy_countIndex (payload : List Byte) (s : State) : ((ownCopy payload s).1).countIndex = s.countIndex := by unfold ownCopy; (repeat' split) <;> simp
@[simp] theorem ownCopy_pending (payload : List Byte) (s : State) : ((ownCopy payload s).1).pending = s.pending := by unfold ownCopy; (repeat' split) <;> simp

@[simp] theorem ownBundleOpen_mu (payload : List Byte) (s : State) : ((ownBundleOpen payload s).1).mu = s.mu := by unfold ownBundleOpen; split <;> simp
@[simp] theorem ownBundleOpen_fu (payload : List Byte) (s : State) : ((ownBundleOpen payload s).1).fu = s.fu := by unfold ownBundleOpen; split <;> simp
@[simp] theorem ownBundleOpen_au (payload : List Byte) (s : State) : ((ownBundleOpen payload s).1).au = s.au := by unfold ownBundleOpen; split <;> simp
@[simp] theorem ownBundleOpen_tu (payload : List Byte) (s : State) : ((ownBundleOpen payload s).1).tu = s.tu := by unfold ownBundleOpen; split <;> simp
@[simp] theorem ownBundleOpen_cu (payload : List Byte) (s : State) : ((ownBundleOpen payload s).1).cu = s.cu := by unfold ownBundleOpen; split <;> simp
@[simp] theorem ownBundleOpen_pp (payload : List Byte) (s : State) : ((ownBundleOpen payload s).1).pp = s.pp := by unfold ownBundleOpen; split <;> simp
@[simp] theorem ownBundleOpen_gm (payload : List Byte) (s : State) : ((ownBundleOpen payload s).1).gm = s.gm := by unfold ownBundleOpen; split <;> simp
@[simp] theorem ownBundleOpen_lc (payload : List Byte) (s : State) : ((ownBundleOpen payload s).1).lc = s.lc := by unfold ownBundleOpen; split <;> simp
@[simp] theorem ownBundleOpen_pins (payload : List Byte) (s : State) : ((ownBundleOpen payload s).1).pins = s.pins := by unfold ownBundleOpen; split <;> simp
@[simp] theorem ownBundleOpen_inReset (payload : List Byte) (s : State) : ((ownBundleOpen payload s).1).inReset = s.inReset := by unfold ownBundleOpen; split <;> simp
@[simp] theorem ownBundleOpen_countIndex (payload : List Byte) (s : State) : ((ownBundleOpen payload s).1).countIndex = s.countIndex := by unfold ownBundleOpen; split <;> simp
@[simp] theorem ownBundleOpen_pending (payload : List Byte) (s : State) : ((ownBundleOpen payload s).1).pending = s.pending := by unfold ownBundleOpen; split <;> simp

@[simp] theorem setStation_mu (i : StationNo) (e : StationEntry) (s : State) : (setStation i e s).mu = s.mu := by simp [setStation]
@[simp] theorem setStation_au (i : StationNo) (e : StationEntry) (s : State) : (setStation i e s).au = s.au := by simp [setStation]
@[simp] theorem setStation_bu (i : StationNo) (e : StationEntry) (s : State) : (setStation i e s).bu = s.bu := by simp [setStation]
@[simp] theorem setStation_lc (i : StationNo) (e : StationEntry) (s : State) : (setStation i e s).lc = s.lc := by simp [setStation]
@[simp] theorem setStation_ll (i : StationNo) (e : StationEntry) (s : State) : (setStation i e s).ll = s.ll := by simp [setStation]
@[simp] theorem setStation_pins (i : StationNo) (e : StationEntry) (s : State) : (setStation i e s).pins = s.pins := by simp [setStation]
@[simp] theorem setStation_inReset (i : StationNo) (e : StationEntry) (s : State) : (setStation i e s).inReset = s.inReset := by simp [setStation]
@[simp] theorem setStation_countIndex (i : StationNo) (e : StationEntry) (s : State) : (setStation i e s).countIndex = s.countIndex := by simp [setStation]
@[simp] theorem setStation_pending (i : StationNo) (e : StationEntry) (s : State) : (setStation i e s).pending = s.pending := by simp [setStation]

@[simp] theorem recomputeCurve_mu (k : Fin 4) (s : State) : (recomputeCurve k s).mu = s.mu :=
  forStations_mu _ (fun i s => by split <;> simp) s
@[simp] theorem recomputeCurve_au (k : Fin 4) (s : State) : (recomputeCurve k s).au = s.au :=
  forStations_au _ (fun i s => by split <;> simp) s
@[simp] theorem recomputeCurve_cu (k : Fin 4) (s : State) : (recomputeCurve k s).cu = s.cu :=
  forStations_cu _ (fun i s => by split <;> simp) s
@[simp] theorem recomputeCurve_bu (k : Fin 4) (s : State) : (recomputeCurve k s).bu = s.bu :=
  forStations_bu _ (fun i s => by split <;> simp) s
@[simp] theorem recomputeCurve_lc (k : Fin 4) (s : State) : (recomputeCurve k s).lc = s.lc :=
  forStations_lc _ (fun i s => by split <;> simp) s
@[simp] theorem recomputeCurve_ll (k : Fin 4) (s : State) : (recomputeCurve k s).ll = s.ll :=
  forStations_ll _ (fun i s => by split <;> simp) s
@[simp] theorem recomputeCurve_pins (k : Fin 4) (s : State) : (recomputeCurve k s).pins = s.pins :=
  forStations_pins _ (fun i s => by split <;> simp) s
@[simp] theorem recomputeCurve_inReset (k : Fin 4) (s : State) : (recomputeCurve k s).inReset = s.inReset :=
  forStations_inReset _ (fun i s => by split <;> simp) s
@[simp] theorem recomputeCurve_countIndex (k : Fin 4) (s : State) : (recomputeCurve k s).countIndex = s.countIndex :=
  forStations_countIndex _ (fun i s => by split <;> simp) s
@[simp] theorem recomputeCurve_pending (k : Fin 4) (s : State) : (recomputeCurve k s).pending = s.pending :=
  forStations_pending _ (fun i s => by split <;> simp) s

@[simp] theorem setCurve_mu (k : Fin 4) (c : Curve) (s : State) : (setCurve k c s).mu = s.mu := by unfold setCurve; split <;> simp
@[simp] theorem setCurve_au (k : Fin 4) (c : Curve) (s : State) : (setCurve k c s).au = s.au := by unfold setCurve; split <;> simp
@[simp] theorem setCurve_cu (k : Fin 4) (c : Curve) (s : State) : (setCurve k c s).cu = s.cu := by unfold setCurve; split <;> simp
@[simp] theorem setCurve_bu (k : Fin 4) (c : Curve) (s : State) : (setCurve k c s).bu = s.bu := by unfold setCurve; split <;> simp
@[simp] theorem setCurve_lc (k : Fin 4) (c : Curve) (s : State) : (setCurve k c s).lc = s.lc := by unfold setCurve; split <;> simp
@[simp] theorem setCurve_ll (k : Fin 4) (c : Curve) (s : State) : (setCurve k c s).ll = s.ll := by unfold setCurve; split <;> simp
@[simp] theorem setCurve_pins (k : Fin 4) (c : Curve) (s : State) : (setCurve k c s).pins = s.pins := by unfold setCurve; split <;> simp
@[simp] theorem setCurve_inReset (k : Fin 4) (c : Curve) (s : State) : (setCurve k c s).inReset = s.inReset := by unfold setCurve; split <;> simp
@[simp] theorem setCurve_countIndex (k : Fin 4) (c : Curve) (s : State) : (setCurve k c s).countIndex = s.countIndex := by unfold setCurve; split <;> simp
@[simp] theorem setCurve_pending (k : Fin 4) (c : Curve) (s : State) : (setCurve k c s).pending = s.pending := by unfold setCurve; split <;> simp

@[simp] theorem setPlan_mu (code : PlanCode) (p : PlanEntry) (s : State) : (setPlan code p s).mu = s.mu := by simp [setPlan]
@[simp] theorem setPlan_fu (code : PlanCode) (p : PlanEntry) (s : State) : (setPlan code p s).fu = s.fu := by simp [setPlan]
@[simp] theorem setPlan_tu (code : PlanCode) (p : PlanEntry) (s : State) : (setPlan code p s).tu = s.tu := by simp [setPlan]
@[simp] theorem setPlan_cu (code : PlanCode) (p : PlanEntry) (s : State) : (setPlan code p s).cu = s.cu := by simp [setPlan]
@[simp] theorem setPlan_pp (code : PlanCode) (p : PlanEntry) (s : State) : (setPlan code p s).pp = s.pp := by simp [setPlan]
@[simp] theorem setPlan_gm (code : PlanCode) (p : PlanEntry) (s : State) : (setPlan code p s).gm = s.gm := by simp [setPlan]
@[simp] theorem setPlan_bu (code : PlanCode) (p : PlanEntry) (s : State) : (setPlan code p s).bu = s.bu := by simp [setPlan]
@[simp] theorem setPlan_lc (code : PlanCode) (p : PlanEntry) (s : State) : (setPlan code p s).lc = s.lc := by simp [setPlan]
@[simp] theorem setPlan_ll (code : PlanCode) (p : PlanEntry) (s : State) : (setPlan code p s).ll = s.ll := by simp [setPlan]
@[simp] theorem setPlan_pins (code : PlanCode) (p : PlanEntry) (s : State) : (setPlan code p s).pins = s.pins := by simp [setPlan]
@[simp] theorem setPlan_inReset (code : PlanCode) (p : PlanEntry) (s : State) : (setPlan code p s).inReset = s.inReset := by simp [setPlan]
@[simp] theorem setPlan_countIndex (code : PlanCode) (p : PlanEntry) (s : State) : (setPlan code p s).countIndex = s.countIndex := by simp [setPlan]
@[simp] theorem setPlan_pending (code : PlanCode) (p : PlanEntry) (s : State) : (setPlan code p s).pending = s.pending := by simp [setPlan]

@[simp] theorem checkedWrite_mu (checks : List (Nat × Bool)) (effect : State → State) (h : ∀ s, (effect s).mu = s.mu) (s : State) : ((checkedWrite checks effect s).1).mu = s.mu := by
  unfold checkedWrite; (repeat' split) <;> simp [h]
@[simp] theorem checkedWrite_fu (checks : List (Nat × Bool)) (effect : State → State) (h : ∀ s, (effect s).fu = s.fu) (s : State) : ((checkedWrite checks effect s).1).fu = s.fu := by
  unfold checkedWrite; (repeat' split) <;> simp [h]
@[simp] theorem checkedWrite_au (checks : List (Nat × Bool)) (effect : State → State) (h : ∀ s, (effect s).au = s.au) (s : State) : ((checkedWrite checks effect s).1).au = s.au := by
  unfold checkedWrite; (repeat' split) <;> simp [h]
@[simp] theorem checkedWrite_tu (checks : List (Nat × Bool)) (effect : State → State) (h : ∀ s, (effect s).tu = s.tu) (s : State) : ((checkedWrite checks effect s).1).tu = s.tu := by
  unfold checkedWrite; (repeat' split) <;> simp [h]
@[simp] theorem checkedWrite_cu (checks : List (Nat × Bool)) (effect : State → State) (h : ∀ s, (effect s).cu = s.cu) (s : State) : ((checkedWrite checks effect s).1).cu = s.cu := by
  unfold checkedWrite; (repeat' split) <;> simp [h]
@[simp] theorem checkedWrite_pp (checks : List (Nat × Bool)) (effect : State → State) (h : ∀ s, (effect s).pp = s.pp) (s : State) : ((checkedWrite checks effect s).1).pp = s.pp := by
  unfold checkedWrite; (repeat' split) <;> simp [h]
@[simp] theorem checkedWrite_gm (checks : List (Nat × Bool)) (effect : State → State) (h : ∀ s, (effect s).gm = s.gm) (s : State) : ((checkedWrite checks effect s).1).gm = s.gm := by
  unfold checkedWrite; (repeat' split) <;> simp [h]
@[simp] theorem checkedWrite_bu (checks : List (Nat × Bool)) (effect : State → State) (h : ∀ s, (effect s).bu = s.bu) (s : State) : ((checkedWrite checks effect s).1).bu = s.bu := by
  unfold checkedWrite; (repeat' split) <;> simp [h]
@[simp] theorem checkedWrite_lc (checks : List (Nat × Bool)) (effect : State → State) (h : ∀ s, (effect s).lc = s.lc) (s : State) : ((checkedWrite checks effect s).1).lc = s.lc := by
  unfold checkedWrite; (repeat' split) <;> simp [h]
@[simp] theorem checkedWrite_ll (checks : List (Nat × Bool)) (effect : State → State) (h : ∀ s, (effect s).ll = s.ll) (s : State) : ((checkedWrite checks effect s).1).ll = s.ll := by
  unfold checkedWrite; (repeat' split) <;> simp [h]
@[simp] theorem checkedWrite_pins (checks : List (Nat × Bool)) (effect : State → State) (h : ∀ s, (effect s).pins = s.pins) (s : State) : ((checkedWrite checks effect s).1).pins = s.pins := by
  unfold checkedWrite; (repeat' split) <;> simp [h]
@[simp] theorem checkedWrite_inReset (checks : List (Nat × Bool)) (effect : State → State) (h : ∀ s, (effect s).inReset = s.inReset) (s : State) : ((checkedWrite checks effect s).1).inReset = s.inReset := by
  unfold checkedWrite; (repeat' split) <;> simp [h]
@[simp] theorem checkedWrite_countIndex (checks : List (Nat × Bool)) (effect : State → State) (h : ∀ s, (effect s).countIndex = s.countIndex) (s : State) : ((checkedWrite checks effect s).1).countIndex = s.countIndex := by
  unfold checkedWrite; (repeat' split) <;> simp [h]
@[simp] theorem checkedWrite_pending (checks : List (Nat × Bool)) (effect : State → State) (h : ∀ s, (effect s).pending = s.pending) (s : State) : ((checkedWrite checks effect s).1).pending = s.pending := by
  unfold checkedWrite; (repeat' split) <;> simp [h]

@[simp] theorem stoppedWrite_mu (checks : List (Nat × Bool)) (effect : State → State) (h : ∀ s, (effect s).mu = s.mu) (s : State) : ((stoppedWrite checks effect s).1).mu = s.mu := by
  unfold stoppedWrite; (repeat' split) <;> simp [h]
@[simp] theorem stoppedWrite_fu (checks : List (Nat × Bool)) (effect : State → State) (h : ∀ s, (effect s).fu = s.fu) (s : State) : ((stoppedWrite checks effect s).1).fu = s.fu := by
  unfold stoppedWrite; (repeat' split) <;> simp [h]
@[simp] theorem stoppedWrite_au (checks : List (Nat × Bool)) (effect : State → State) (h : ∀ s, (effect s).au = s.au) (s : State) : ((stoppedWrite checks effect s).1).au = s.au := by
  unfold stoppedWrite; (repeat' split) <;> simp [h]
@[simp] theorem stoppedWrite_tu (checks : List (Nat × Bool)) (effect : State → State) (h : ∀ s, (effect s).tu = s.tu) (s : State) : ((stoppedWrite checks effect s).1).tu = s.tu := by
  unfold stoppedWrite; (repeat' split) <;> simp [h]
@[simp] theorem stoppedWrite_cu (checks : List (Nat × Bool)) (effect : State → State) (h : ∀ s, (effect s).cu = s.cu) (s : State) : ((stoppedWrite checks effect s).1).cu = s.cu := by
  unfold stoppedWrite; (repeat' split) <;> simp [h]
@[simp] theorem stoppedWrite_pp (checks : List (Nat × Bool)) (effect : State → State) (h : ∀ s, (effect s).pp = s.pp) (s : State) : ((stoppedWrite checks effect s).1).pp = s.pp := by
  unfold stoppedWrite; (repeat' split) <;> simp [h]
@[simp] theorem stoppedWrite_gm (checks : List (Nat × Bool)) (effect : State → State) (h : ∀ s, (effect s).gm = s.gm) (s : State) : ((stoppedWrite checks effect s).1).gm = s.gm := by
  unfold stoppedWrite; (repeat' split) <;> simp [h]
@[simp] theorem stoppedWrite_bu (checks : List (Nat × Bool)) (effect : State → State) (h : ∀ s, (effect s).bu = s.bu) (s : State) : ((stoppedWrite checks effect s).1).bu = s.bu := by
  unfold stoppedWrite; (repeat' split) <;> simp [h]
@[simp] theorem stoppedWrite_lc (checks : List (Nat × Bool)) (effect : State → State) (h : ∀ s, (effect s).lc = s.lc) (s : State) : ((stoppedWrite checks effect s).1).lc = s.lc := by
  unfold stoppedWrite; (repeat' split) <;> simp [h]
@[simp] theorem stoppedWrite_ll (checks : List (Nat × Bool)) (effect : State → State) (h : ∀ s, (effect s).ll = s.ll) (s : State) : ((stoppedWrite checks effect s).1).ll = s.ll := by
  unfold stoppedWrite; (repeat' split) <;> simp [h]
@[simp] theorem stoppedWrite_pins (checks : List (Nat × Bool)) (effect : State → State) (h : ∀ s, (effect s).pins = s.pins) (s : State) : ((stoppedWrite checks effect s).1).pins = s.pins := by
  unfold stoppedWrite; (repeat' split) <;> simp [h]
@[simp] theorem stoppedWrite_inReset (checks : List (Nat × Bool)) (effect : State → State) (h : ∀ s, (effect s).inReset = s.inReset) (s : State) : ((stoppedWrite checks effect s).1).inReset = s.inReset := by
  unfold stoppedWrite; (repeat' split) <;> simp [h]
@[simp] theorem stoppedWrite_countIndex (checks : List (Nat × Bool)) (effect : State → State) (h : ∀ s, (effect s).countIndex = s.countIndex) (s : State) : ((stoppedWrite checks effect s).1).countIndex = s.countIndex := by
  unfold stoppedWrite; (repeat' split) <;> simp [h]
@[simp] theorem stoppedWrite_pending (checks : List (Nat × Bool)) (effect : State → State) (h : ∀ s, (effect s).pending = s.pending) (s : State) : ((stoppedWrite checks effect s).1).pending = s.pending := by
  unfold stoppedWrite; (repeat' split) <;> simp [h]

@[simp] theorem writeProfile_fu (n : Nat) (e : List Byte) (s : State) : ((writeProfile n e s).1).fu = s.fu :=
  stoppedWrite_fu _ _ (setProfile_fu _) s
@[simp] theorem writeProfile_au (n : Nat) (e : List Byte) (s : State) : ((writeProfile n e s).1).au = s.au :=
  stoppedWrite_au _ _ (setProfile_au _) s
@[simp] theorem writeProfile_tu (n : Nat) (e : List Byte) (s : State) : ((writeProfile n e s).1).tu = s.tu :=
  stoppedWrite_tu _ _ (setProfile_tu _) s
@[simp] theorem writeProfile_cu (n : Nat) (e : List Byte) (s : State) : ((writeProfile n e s).1).cu = s.cu :=
  stoppedWrite_cu _ _ (setProfile_cu _) s
@[simp] theorem writeProfile_pp (n : Nat) (e : List Byte) (s : State) : ((writeProfile n e s).1).pp = s.pp :=
  stoppedWrite_pp _ _ (setProfile_pp _) s
@[simp] theorem writeProfile_gm (n : Nat) (e : List Byte) (s : State) : ((writeProfile n e s).1).gm = s.gm :=
  stoppedWrite_gm _ _ (setProfile_gm _) s
@[simp] theorem writeProfile_bu (n : Nat) (e : List Byte) (s : State) : ((writeProfile n e s).1).bu = s.bu :=
  stoppedWrite_bu _ _ (setProfile_bu _) s
@[simp] theorem writeProfile_lc (n : Nat) (e : List Byte) (s : State) : ((writeProfile n e s).1).lc = s.lc :=
  stoppedWrite_lc _ _ (setProfile_lc _) s
@[simp] theorem writeProfile_ll (n : Nat) (e : List Byte) (s : State) : ((writeProfile n e s).1).ll = s.ll :=
  stoppedWrite_ll _ _ (setProfile_ll _) s
@[simp] theorem writeProfile_pins (n : Nat) (e : List Byte) (s : State) : ((writeProfile n e s).1).pins = s.pins :=
  stoppedWrite_pins _ _ (setProfile_pins _) s
@[simp] theorem writeProfile_inReset (n : Nat) (e : List Byte) (s : State) : ((writeProfile n e s).1).inReset = s.inReset :=
  stoppedWrite_inReset _ _ (setProfile_inReset _) s
@[simp] theorem writeProfile_countIndex (n : Nat) (e : List Byte) (s : State) : ((writeProfile n e s).1).countIndex = s.countIndex :=
  stoppedWrite_countIndex _ _ (setProfile_countIndex _) s
@[simp] theorem writeProfile_pending (n : Nat) (e : List Byte) (s : State) : ((writeProfile n e s).1).pending = s.pending :=
  stoppedWrite_pending _ _ (setProfile_pending _) s

@[simp] theorem writeStation_mu (n : Nat) (e : List Byte) (s : State) : ((writeStation n e s).1).mu = s.mu := by simp [writeStation]
@[simp] theorem writeStation_au (n : Nat) (e : List Byte) (s : State) : ((writeStation n e s).1).au = s.au := by simp [writeStation]
@[simp] theorem writeStation_bu (n : Nat) (e : List Byte) (s : State) : ((writeStation n e s).1).bu = s.bu := by simp [writeStation]
@[simp] theorem writeStation_lc (n : Nat) (e : List Byte) (s : State) : ((writeStation n e s).1).lc = s.lc := by simp [writeStation]
@[simp] theorem writeStation_ll (n : Nat) (e : List Byte) (s : State) : ((writeStation n e s).1).ll = s.ll := by simp [writeStation]
@[simp] theorem writeStation_pins (n : Nat) (e : List Byte) (s : State) : ((writeStation n e s).1).pins = s.pins := by simp [writeStation]
@[simp] theorem writeStation_inReset (n : Nat) (e : List Byte) (s : State) : ((writeStation n e s).1).inReset = s.inReset := by simp [writeStation]
@[simp] theorem writeStation_countIndex (n : Nat) (e : List Byte) (s : State) : ((writeStation n e s).1).countIndex = s.countIndex := by simp [writeStation]
@[simp] theorem writeStation_pending (n : Nat) (e : List Byte) (s : State) : ((writeStation n e s).1).pending = s.pending := by simp [writeStation]

@[simp] theorem writeCurve_mu (n : Nat) (e : List Byte) (s : State) : ((writeCurve n e s).1).mu = s.mu := by simp [writeCurve]
@[simp] theorem writeCurve_au (n : Nat) (e : List Byte) (s : State) : ((writeCurve n e s).1).au = s.au := by simp [writeCurve]
@[simp] theorem writeCurve_cu (n : Nat) (e : List Byte) (s : State) : ((writeCurve n e s).1).cu = s.cu := by simp [writeCurve]
@[simp] theorem writeCurve_bu (n : Nat) (e : List Byte) (s : State) : ((writeCurve n e s).1).bu = s.bu := by simp [writeCurve]
@[simp] theorem writeCurve_lc (n : Nat) (e : List Byte) (s : State) : ((writeCurve n e s).1).lc = s.lc := by simp [writeCurve]
@[simp] theorem writeCurve_ll (n : Nat) (e : List Byte) (s : State) : ((writeCurve n e s).1).ll = s.ll := by simp [writeCurve]
@[simp] theorem writeCurve_pins (n : Nat) (e : List Byte) (s : State) : ((writeCurve n e s).1).pins = s.pins := by simp [writeCurve]
@[simp] theorem writeCurve_inReset (n : Nat) (e : List Byte) (s : State) : ((writeCurve n e s).1).inReset = s.inReset := by simp [writeCurve]
@[simp] theorem writeCurve_countIndex (n : Nat) (e : List Byte) (s : State) : ((writeCurve n e s).1).countIndex = s.countIndex := by simp [writeCurve]
@[simp] theorem writeCurve_pending (n : Nat) (e : List Byte) (s : State) : ((writeCurve n e s).1).pending = s.pending := by simp [writeCurve]

@[simp] theorem writeOutput_mu (n : Nat) (e : List Byte) (s : State) : ((writeOutput n e s).1).mu = s.mu :=
  stoppedWrite_mu _ _ (putOutput_mu _ _) s
@[simp] theorem writeOutput_au (n : Nat) (e : List Byte) (s : State) : ((writeOutput n e s).1).au = s.au :=
  stoppedWrite_au _ _ (putOutput_au _ _) s
@[simp] theorem writeOutput_tu (n : Nat) (e : List Byte) (s : State) : ((writeOutput n e s).1).tu = s.tu :=
  stoppedWrite_tu _ _ (putOutput_tu _ _) s
@[simp] theorem writeOutput_cu (n : Nat) (e : List Byte) (s : State) : ((writeOutput n e s).1).cu = s.cu :=
  stoppedWrite_cu _ _ (putOutput_cu _ _) s
@[simp] theorem writeOutput_pp (n : Nat) (e : List Byte) (s : State) : ((writeOutput n e s).1).pp = s.pp :=
  stoppedWrite_pp _ _ (putOutput_pp _ _) s
@[simp] theorem writeOutput_gm (n : Nat) (e : List Byte) (s : State) : ((writeOutput n e s).1).gm = s.gm :=
  stoppedWrite_gm _ _ (putOutput_gm _ _) s
@[simp] theorem writeOutput_bu (n : Nat) (e : List Byte) (s : State) : ((writeOutput n e s).1).bu = s.bu :=
  stoppedWrite_bu _ _ (putOutput_bu _ _) s
@[simp] theorem writeOutput_lc (n : Nat) (e : List Byte) (s : State) : ((writeOutput n e s).1).lc = s.lc :=
  stoppedWrite_lc _ _ (putOutput_lc _ _) s
@[simp] theorem writeOutput_ll (n : Nat) (e : List Byte) (s : State) : ((writeOutput n e s).1).ll = s.ll :=
  stoppedWrite_ll _ _ (putOutput_ll _ _) s
@[simp] theorem writeOutput_pins (n : Nat) (e : List Byte) (s : State) : ((writeOutput n e s).1).pins = s.pins :=
  stoppedWrite_pins _ _ (putOutput_pins _ _) s
@[simp] theorem writeOutput_inReset (n : Nat) (e : List Byte) (s : State) : ((writeOutput n e s).1).inReset = s.inReset :=
  stoppedWrite_inReset _ _ (putOutput_inReset _ _) s
@[simp] theorem writeOutput_countIndex (n : Nat) (e : List Byte) (s : State) : ((writeOutput n e s).1).countIndex = s.countIndex :=
  stoppedWrite_countIndex _ _ (putOutput_countIndex _ _) s
@[simp] theorem writeOutput_pending (n : Nat) (e : List Byte) (s : State) : ((writeOutput n e s).1).pending = s.pending :=
  stoppedWrite_pending _ _ (putOutput_pending _ _) s

@[simp] theorem writePlan_mu (n : Nat) (e : List Byte) (s : State) : ((writePlan n e s).1).mu = s.mu := by simp [writePlan]
@[simp] theorem writePlan_fu (n : Nat) (e : List Byte) (s : State) : ((writePlan n e s).1).fu = s.fu := by simp [writePlan]
@[simp] theorem writePlan_tu (n : Nat) (e : List Byte) (s : State) : ((writePlan n e s).1).tu = s.tu := by simp [writePlan]
@[simp] theorem writePlan_cu (n : Nat) (e : List Byte) (s : State) : ((writePlan n e s).1).cu = s.cu := by simp [writePlan]
@[simp] theorem writePlan_pp (n : Nat) (e : List Byte) (s : State) : ((writePlan n e s).1).pp = s.pp := by simp [writePlan]
@[simp] theorem writePlan_gm (n : Nat) (e : List Byte) (s : State) : ((writePlan n e s).1).gm = s.gm := by simp [writePlan]
@[simp] theorem writePlan_bu (n : Nat) (e : List Byte) (s : State) : ((writePlan n e s).1).bu = s.bu := by simp [writePlan]
@[simp] theorem writePlan_lc (n : Nat) (e : List Byte) (s : State) : ((writePlan n e s).1).lc = s.lc := by simp [writePlan]
@[simp] theorem writePlan_ll (n : Nat) (e : List Byte) (s : State) : ((writePlan n e s).1).ll = s.ll := by simp [writePlan]
@[simp] theorem writePlan_pins (n : Nat) (e : List Byte) (s : State) : ((writePlan n e s).1).pins = s.pins := by simp [writePlan]
@[simp] theorem writePlan_inReset (n : Nat) (e : List Byte) (s : State) : ((writePlan n e s).1).inReset = s.inReset := by simp [writePlan]
@[simp] theorem writePlan_countIndex (n : Nat) (e : List Byte) (s : State) : ((writePlan n e s).1).countIndex = s.countIndex := by simp [writePlan]
@[simp] theorem writePlan_pending (n : Nat) (e : List Byte) (s : State) : ((writePlan n e s).1).pending = s.pending := by simp [writePlan]

@[simp] theorem ownerWrite_bu (t : Table) (n : Nat) (e : List Byte) (s : State) : ((ownerWrite t n e s).1).bu = s.bu := by unfold ownerWrite; split <;> simp
@[simp] theorem ownerWrite_lc (t : Table) (n : Nat) (e : List Byte) (s : State) : ((ownerWrite t n e s).1).lc = s.lc := by unfold ownerWrite; split <;> simp
@[simp] theorem ownerWrite_ll (t : Table) (n : Nat) (e : List Byte) (s : State) : ((ownerWrite t n e s).1).ll = s.ll := by unfold ownerWrite; split <;> simp
@[simp] theorem ownerWrite_pins (t : Table) (n : Nat) (e : List Byte) (s : State) : ((ownerWrite t n e s).1).pins = s.pins := by unfold ownerWrite; split <;> simp
@[simp] theorem ownerWrite_inReset (t : Table) (n : Nat) (e : List Byte) (s : State) : ((ownerWrite t n e s).1).inReset = s.inReset := by unfold ownerWrite; split <;> simp
@[simp] theorem ownerWrite_countIndex (t : Table) (n : Nat) (e : List Byte) (s : State) : ((ownerWrite t n e s).1).countIndex = s.countIndex := by unfold ownerWrite; split <;> simp
@[simp] theorem ownerWrite_pending (t : Table) (n : Nat) (e : List Byte) (s : State) : ((ownerWrite t n e s).1).pending = s.pending := by unfold ownerWrite; split <;> simp

@[simp] theorem ownTableWrite_bu (payload : List Byte) (s : State) : ((ownTableWrite payload s).1).bu = s.bu := by unfold ownTableWrite; (repeat' split) <;> simp
@[simp] theorem ownTableWrite_lc (payload : List Byte) (s : State) : ((ownTableWrite payload s).1).lc = s.lc := by unfold ownTableWrite; (repeat' split) <;> simp
@[simp] theorem ownTableWrite_pins (payload : List Byte) (s : State) : ((ownTableWrite payload s).1).pins = s.pins := by unfold ownTableWrite; (repeat' split) <;> simp
@[simp] theorem ownTableWrite_inReset (payload : List Byte) (s : State) : ((ownTableWrite payload s).1).inReset = s.inReset := by unfold ownTableWrite; (repeat' split) <;> simp
@[simp] theorem ownTableWrite_countIndex (payload : List Byte) (s : State) : ((ownTableWrite payload s).1).countIndex = s.countIndex := by unfold ownTableWrite; (repeat' split) <;> simp
@[simp] theorem ownTableWrite_pending (payload : List Byte) (s : State) : ((ownTableWrite payload s).1).pending = s.pending := by unfold ownTableWrite; (repeat' split) <;> simp

@[simp] theorem enterLine_mu (s : State) : (enterLine s).mu = s.mu := by unfold enterLine; split <;> simp
@[simp] theorem enterLine_fu (s : State) : (enterLine s).fu = s.fu := by unfold enterLine; split <;> simp
@[simp] theorem enterLine_au (s : State) : (enterLine s).au = s.au := by unfold enterLine; split <;> simp
@[simp] theorem enterLine_tu (s : State) : (enterLine s).tu = s.tu := by unfold enterLine; split <;> simp
@[simp] theorem enterLine_cu (s : State) : (enterLine s).cu = s.cu := by unfold enterLine; split <;> simp
@[simp] theorem enterLine_pp (s : State) : (enterLine s).pp = s.pp := by unfold enterLine; split <;> simp
@[simp] theorem enterLine_gm (s : State) : (enterLine s).gm = s.gm := by unfold enterLine; split <;> simp
@[simp] theorem enterLine_bu (s : State) : (enterLine s).bu = s.bu := by unfold enterLine; split <;> simp
@[simp] theorem enterLine_pins (s : State) : (enterLine s).pins = s.pins := by unfold enterLine; split <;> simp
@[simp] theorem enterLine_inReset (s : State) : (enterLine s).inReset = s.inReset := by unfold enterLine; split <;> simp
@[simp] theorem enterLine_countIndex (s : State) : (enterLine s).countIndex = s.countIndex := by unfold enterLine; split <;> simp
@[simp] theorem enterLine_pending (s : State) : (enterLine s).pending = s.pending := by unfold enterLine; split <;> simp

@[simp] theorem startSource_fu (s : State) : (startSource s).fu = s.fu := by unfold startSource; split <;> simp
@[simp] theorem startSource_au (s : State) : (startSource s).au = s.au := by unfold startSource; split <;> simp
@[simp] theorem startSource_tu (s : State) : (startSource s).tu = s.tu := by unfold startSource; split <;> simp
@[simp] theorem startSource_cu (s : State) : (startSource s).cu = s.cu := by unfold startSource; split <;> simp
@[simp] theorem startSource_pp (s : State) : (startSource s).pp = s.pp := by unfold startSource; split <;> simp
@[simp] theorem startSource_gm (s : State) : (startSource s).gm = s.gm := by unfold startSource; split <;> simp
@[simp] theorem startSource_bu (s : State) : (startSource s).bu = s.bu := by unfold startSource; split <;> simp
@[simp] theorem startSource_lc (s : State) : (startSource s).lc = s.lc := by unfold startSource; split <;> simp
@[simp] theorem startSource_ll (s : State) : (startSource s).ll = s.ll := by unfold startSource; split <;> simp
@[simp] theorem startSource_pins (s : State) : (startSource s).pins = s.pins := by unfold startSource; split <;> simp
@[simp] theorem startSource_inReset (s : State) : (startSource s).inReset = s.inReset := by unfold startSource; split <;> simp
@[simp] theorem startSource_countIndex (s : State) : (startSource s).countIndex = s.countIndex := by unfold startSource; split <;> simp
@[simp] theorem startSource_pending (s : State) : (startSource s).pending = s.pending := by unfold startSource; split <;> simp

@[simp] theorem acceptStart_fu (s : State) : (acceptStart s).fu = s.fu := by simp [acceptStart]
@[simp] theorem acceptStart_au (s : State) : (acceptStart s).au = s.au := by simp [acceptStart]
@[simp] theorem acceptStart_cu (s : State) : (acceptStart s).cu = s.cu := by simp [acceptStart]
@[simp] theorem acceptStart_pp (s : State) : (acceptStart s).pp = s.pp := by simp [acceptStart]
@[simp] theorem acceptStart_gm (s : State) : (acceptStart s).gm = s.gm := by simp [acceptStart]
@[simp] theorem acceptStart_bu (s : State) : (acceptStart s).bu = s.bu := by simp [acceptStart]
@[simp] theorem acceptStart_pins (s : State) : (acceptStart s).pins = s.pins := by simp [acceptStart]
@[simp] theorem acceptStart_inReset (s : State) : (acceptStart s).inReset = s.inReset := by simp [acceptStart]
@[simp] theorem acceptStart_countIndex (s : State) : (acceptStart s).countIndex = s.countIndex := by simp [acceptStart]
@[simp] theorem acceptStart_pending (s : State) : (acceptStart s).pending = s.pending := by simp [acceptStart]

@[simp] theorem resetPrinter_mu (s : State) : (resetPrinter s).mu = s.mu := by simp [resetPrinter]
@[simp] theorem resetPrinter_fu (s : State) : (resetPrinter s).fu = s.fu := by simp [resetPrinter]
@[simp] theorem resetPrinter_au (s : State) : (resetPrinter s).au = s.au := by simp [resetPrinter]
@[simp] theorem resetPrinter_tu (s : State) : (resetPrinter s).tu = s.tu := by simp [resetPrinter]
@[simp] theorem resetPrinter_cu (s : State) : (resetPrinter s).cu = s.cu := by simp [resetPrinter]
@[simp] theorem resetPrinter_gm (s : State) : (resetPrinter s).gm = s.gm := by simp [resetPrinter]
@[simp] theorem resetPrinter_bu (s : State) : (resetPrinter s).bu = s.bu := by simp [resetPrinter]
@[simp] theorem resetPrinter_lc (s : State) : (resetPrinter s).lc = s.lc := by simp [resetPrinter]
@[simp] theorem resetPrinter_ll (s : State) : (resetPrinter s).ll = s.ll := by simp [resetPrinter]
@[simp] theorem resetPrinter_pins (s : State) : (resetPrinter s).pins = s.pins := by simp [resetPrinter]
@[simp] theorem resetPrinter_inReset (s : State) : (resetPrinter s).inReset = s.inReset := by simp [resetPrinter]
@[simp] theorem resetPrinter_countIndex (s : State) : (resetPrinter s).countIndex = s.countIndex := by simp [resetPrinter]
@[simp] theorem resetPrinter_pending (s : State) : (resetPrinter s).pending = s.pending := by simp [resetPrinter]

@[simp] theorem runResetAll_pins (s : State) : (runResetAll s).pins = s.pins := by simp [runResetAll]
@[simp] theorem runResetAll_inReset (s : State) : (runResetAll s).inReset = s.inReset := by simp [runResetAll]
@[simp] theorem runResetAll_countIndex (s : State) : (runResetAll s).countIndex = s.countIndex := by simp [runResetAll]
@[simp] theorem runResetAll_pending (s : State) : (runResetAll s).pending = s.pending := by simp [runResetAll]

@[simp] theorem lineStart_fu (s : State) : ((lineStart s).1).fu = s.fu := by unfold lineStart; (repeat' split) <;> simp
@[simp] theorem lineStart_au (s : State) : ((lineStart s).1).au = s.au := by unfold lineStart; (repeat' split) <;> simp
@[simp] theorem lineStart_cu (s : State) : ((lineStart s).1).cu = s.cu := by unfold lineStart; (repeat' split) <;> simp
@[simp] theorem lineStart_pp (s : State) : ((lineStart s).1).pp = s.pp := by unfold lineStart; (repeat' split) <;> simp
@[simp] theorem lineStart_gm (s : State) : ((lineStart s).1).gm = s.gm := by unfold lineStart; (repeat' split) <;> simp
@[simp] theorem lineStart_bu (s : State) : ((lineStart s).1).bu = s.bu := by unfold lineStart; (repeat' split) <;> simp
@[simp] theorem lineStart_pins (s : State) : ((lineStart s).1).pins = s.pins := by unfold lineStart; (repeat' split) <;> simp
@[simp] theorem lineStart_inReset (s : State) : ((lineStart s).1).inReset = s.inReset := by unfold lineStart; (repeat' split) <;> simp
@[simp] theorem lineStart_countIndex (s : State) : ((lineStart s).1).countIndex = s.countIndex := by unfold lineStart; (repeat' split) <;> simp
@[simp] theorem lineStart_pending (s : State) : ((lineStart s).1).pending = s.pending := by unfold lineStart; (repeat' split) <;> simp

@[simp] theorem lineHold_mu (s : State) : ((lineHold s).1).mu = s.mu := by simp [lineHold]
@[simp] theorem lineHold_fu (s : State) : ((lineHold s).1).fu = s.fu := by simp [lineHold]
@[simp] theorem lineHold_au (s : State) : ((lineHold s).1).au = s.au := by simp [lineHold]
@[simp] theorem lineHold_tu (s : State) : ((lineHold s).1).tu = s.tu := by simp [lineHold]
@[simp] theorem lineHold_cu (s : State) : ((lineHold s).1).cu = s.cu := by simp [lineHold]
@[simp] theorem lineHold_pp (s : State) : ((lineHold s).1).pp = s.pp := by simp [lineHold]
@[simp] theorem lineHold_gm (s : State) : ((lineHold s).1).gm = s.gm := by simp [lineHold]
@[simp] theorem lineHold_bu (s : State) : ((lineHold s).1).bu = s.bu := by simp [lineHold]
@[simp] theorem lineHold_pins (s : State) : ((lineHold s).1).pins = s.pins := by simp [lineHold]
@[simp] theorem lineHold_inReset (s : State) : ((lineHold s).1).inReset = s.inReset := by simp [lineHold]
@[simp] theorem lineHold_countIndex (s : State) : ((lineHold s).1).countIndex = s.countIndex := by simp [lineHold]
@[simp] theorem lineHold_pending (s : State) : ((lineHold s).1).pending = s.pending := by simp [lineHold]

@[simp] theorem lineResume_mu (s : State) : ((lineResume s).1).mu = s.mu := by simp [lineResume]
@[simp] theorem lineResume_fu (s : State) : ((lineResume s).1).fu = s.fu := by simp [lineResume]
@[simp] theorem lineResume_au (s : State) : ((lineResume s).1).au = s.au := by simp [lineResume]
@[simp] theorem lineResume_tu (s : State) : ((lineResume s).1).tu = s.tu := by simp [lineResume]
@[simp] theorem lineResume_cu (s : State) : ((lineResume s).1).cu = s.cu := by simp [lineResume]
@[simp] theorem lineResume_pp (s : State) : ((lineResume s).1).pp = s.pp := by simp [lineResume]
@[simp] theorem lineResume_gm (s : State) : ((lineResume s).1).gm = s.gm := by simp [lineResume]
@[simp] theorem lineResume_bu (s : State) : ((lineResume s).1).bu = s.bu := by simp [lineResume]
@[simp] theorem lineResume_pins (s : State) : ((lineResume s).1).pins = s.pins := by simp [lineResume]
@[simp] theorem lineResume_inReset (s : State) : ((lineResume s).1).inReset = s.inReset := by simp [lineResume]
@[simp] theorem lineResume_countIndex (s : State) : ((lineResume s).1).countIndex = s.countIndex := by simp [lineResume]
@[simp] theorem lineResume_pending (s : State) : ((lineResume s).1).pending = s.pending := by simp [lineResume]

@[simp] theorem lineRunOut_au (s : State) : ((lineRunOut s).1).au = s.au := by unfold lineRunOut; (repeat' split) <;> simp
@[simp] theorem lineRunOut_pp (s : State) : ((lineRunOut s).1).pp = s.pp := by unfold lineRunOut; (repeat' split) <;> simp
@[simp] theorem lineRunOut_gm (s : State) : ((lineRunOut s).1).gm = s.gm := by unfold lineRunOut; (repeat' split) <;> simp
@[simp] theorem lineRunOut_bu (s : State) : ((lineRunOut s).1).bu = s.bu := by unfold lineRunOut; (repeat' split) <;> simp
@[simp] theorem lineRunOut_ll (s : State) : ((lineRunOut s).1).ll = s.ll := by unfold lineRunOut; (repeat' split) <;> simp
@[simp] theorem lineRunOut_pins (s : State) : ((lineRunOut s).1).pins = s.pins := by unfold lineRunOut; (repeat' split) <;> simp
@[simp] theorem lineRunOut_inReset (s : State) : ((lineRunOut s).1).inReset = s.inReset := by unfold lineRunOut; (repeat' split) <;> simp
@[simp] theorem lineRunOut_countIndex (s : State) : ((lineRunOut s).1).countIndex = s.countIndex := by unfold lineRunOut; (repeat' split) <;> simp
@[simp] theorem lineRunOut_pending (s : State) : ((lineRunOut s).1).pending = s.pending := by unfold lineRunOut; (repeat' split) <;> simp

@[simp] theorem lineStopNow_au (s : State) : ((lineStopNow s).1).au = s.au := by unfold lineStopNow; split <;> simp
@[simp] theorem lineStopNow_pp (s : State) : ((lineStopNow s).1).pp = s.pp := by unfold lineStopNow; split <;> simp
@[simp] theorem lineStopNow_gm (s : State) : ((lineStopNow s).1).gm = s.gm := by unfold lineStopNow; split <;> simp
@[simp] theorem lineStopNow_bu (s : State) : ((lineStopNow s).1).bu = s.bu := by unfold lineStopNow; split <;> simp
@[simp] theorem lineStopNow_ll (s : State) : ((lineStopNow s).1).ll = s.ll := by unfold lineStopNow; split <;> simp
@[simp] theorem lineStopNow_pins (s : State) : ((lineStopNow s).1).pins = s.pins := by unfold lineStopNow; split <;> simp
@[simp] theorem lineStopNow_inReset (s : State) : ((lineStopNow s).1).inReset = s.inReset := by unfold lineStopNow; split <;> simp
@[simp] theorem lineStopNow_countIndex (s : State) : ((lineStopNow s).1).countIndex = s.countIndex := by unfold lineStopNow; split <;> simp
@[simp] theorem lineStopNow_pending (s : State) : ((lineStopNow s).1).pending = s.pending := by unfold lineStopNow; split <;> simp

@[simp] theorem lineSetOverride_mu (payload : List Byte) (s : State) : ((lineSetOverride payload s).1).mu = s.mu := by unfold lineSetOverride; split <;> simp
@[simp] theorem lineSetOverride_au (payload : List Byte) (s : State) : ((lineSetOverride payload s).1).au = s.au := by unfold lineSetOverride; split <;> simp
@[simp] theorem lineSetOverride_tu (payload : List Byte) (s : State) : ((lineSetOverride payload s).1).tu = s.tu := by unfold lineSetOverride; split <;> simp
@[simp] theorem lineSetOverride_cu (payload : List Byte) (s : State) : ((lineSetOverride payload s).1).cu = s.cu := by unfold lineSetOverride; split <;> simp
@[simp] theorem lineSetOverride_pp (payload : List Byte) (s : State) : ((lineSetOverride payload s).1).pp = s.pp := by unfold lineSetOverride; split <;> simp
@[simp] theorem lineSetOverride_gm (payload : List Byte) (s : State) : ((lineSetOverride payload s).1).gm = s.gm := by unfold lineSetOverride; split <;> simp
@[simp] theorem lineSetOverride_bu (payload : List Byte) (s : State) : ((lineSetOverride payload s).1).bu = s.bu := by unfold lineSetOverride; split <;> simp
@[simp] theorem lineSetOverride_lc (payload : List Byte) (s : State) : ((lineSetOverride payload s).1).lc = s.lc := by unfold lineSetOverride; split <;> simp
@[simp] theorem lineSetOverride_ll (payload : List Byte) (s : State) : ((lineSetOverride payload s).1).ll = s.ll := by unfold lineSetOverride; split <;> simp
@[simp] theorem lineSetOverride_pins (payload : List Byte) (s : State) : ((lineSetOverride payload s).1).pins = s.pins := by unfold lineSetOverride; split <;> simp
@[simp] theorem lineSetOverride_inReset (payload : List Byte) (s : State) : ((lineSetOverride payload s).1).inReset = s.inReset := by unfold lineSetOverride; split <;> simp
@[simp] theorem lineSetOverride_countIndex (payload : List Byte) (s : State) : ((lineSetOverride payload s).1).countIndex = s.countIndex := by unfold lineSetOverride; split <;> simp
@[simp] theorem lineSetOverride_pending (payload : List Byte) (s : State) : ((lineSetOverride payload s).1).pending = s.pending := by unfold lineSetOverride; split <;> simp

@[simp] theorem lineClearFault_mu (s : State) : ((lineClearFault s).1).mu = s.mu := by unfold lineClearFault; (repeat' split) <;> simp
@[simp] theorem lineClearFault_fu (s : State) : ((lineClearFault s).1).fu = s.fu := by unfold lineClearFault; (repeat' split) <;> simp
@[simp] theorem lineClearFault_au (s : State) : ((lineClearFault s).1).au = s.au := by unfold lineClearFault; (repeat' split) <;> simp
@[simp] theorem lineClearFault_cu (s : State) : ((lineClearFault s).1).cu = s.cu := by unfold lineClearFault; (repeat' split) <;> simp
@[simp] theorem lineClearFault_pp (s : State) : ((lineClearFault s).1).pp = s.pp := by unfold lineClearFault; (repeat' split) <;> simp
@[simp] theorem lineClearFault_gm (s : State) : ((lineClearFault s).1).gm = s.gm := by unfold lineClearFault; (repeat' split) <;> simp
@[simp] theorem lineClearFault_bu (s : State) : ((lineClearFault s).1).bu = s.bu := by unfold lineClearFault; (repeat' split) <;> simp
@[simp] theorem lineClearFault_ll (s : State) : ((lineClearFault s).1).ll = s.ll := by unfold lineClearFault; (repeat' split) <;> simp
@[simp] theorem lineClearFault_pins (s : State) : ((lineClearFault s).1).pins = s.pins := by unfold lineClearFault; (repeat' split) <;> simp
@[simp] theorem lineClearFault_inReset (s : State) : ((lineClearFault s).1).inReset = s.inReset := by unfold lineClearFault; (repeat' split) <;> simp
@[simp] theorem lineClearFault_countIndex (s : State) : ((lineClearFault s).1).countIndex = s.countIndex := by unfold lineClearFault; (repeat' split) <;> simp
@[simp] theorem lineClearFault_pending (s : State) : ((lineClearFault s).1).pending = s.pending := by unfold lineClearFault; (repeat' split) <;> simp

@[simp] theorem lineRunReset_pins (s : State) : ((lineRunReset s).1).pins = s.pins := by unfold lineRunReset; split <;> simp
@[simp] theorem lineRunReset_inReset (s : State) : ((lineRunReset s).1).inReset = s.inReset := by unfold lineRunReset; split <;> simp
@[simp] theorem lineRunReset_countIndex (s : State) : ((lineRunReset s).1).countIndex = s.countIndex := by unfold lineRunReset; split <;> simp
@[simp] theorem lineRunReset_pending (s : State) : ((lineRunReset s).1).pending = s.pending := by unfold lineRunReset; split <;> simp

@[simp] theorem ownLineCommand_pins (payload : List Byte) (s : State) : ((ownLineCommand payload s).1).pins = s.pins := by unfold ownLineCommand; (repeat' split) <;> simp
@[simp] theorem ownLineCommand_inReset (payload : List Byte) (s : State) : ((ownLineCommand payload s).1).inReset = s.inReset := by unfold ownLineCommand; (repeat' split) <;> simp
@[simp] theorem ownLineCommand_countIndex (payload : List Byte) (s : State) : ((ownLineCommand payload s).1).countIndex = s.countIndex := by unfold ownLineCommand; (repeat' split) <;> simp
@[simp] theorem ownLineCommand_pending (payload : List Byte) (s : State) : ((ownLineCommand payload s).1).pending = s.pending := by unfold ownLineCommand; (repeat' split) <;> simp

@[simp] theorem ownNoticeMask_mu (payload : List Byte) (s : State) : ((ownNoticeMask payload s).1).mu = s.mu := by unfold ownNoticeMask; (repeat' split) <;> simp
@[simp] theorem ownNoticeMask_fu (payload : List Byte) (s : State) : ((ownNoticeMask payload s).1).fu = s.fu := by unfold ownNoticeMask; (repeat' split) <;> simp
@[simp] theorem ownNoticeMask_au (payload : List Byte) (s : State) : ((ownNoticeMask payload s).1).au = s.au := by unfold ownNoticeMask; (repeat' split) <;> simp
@[simp] theorem ownNoticeMask_tu (payload : List Byte) (s : State) : ((ownNoticeMask payload s).1).tu = s.tu := by unfold ownNoticeMask; (repeat' split) <;> simp
@[simp] theorem ownNoticeMask_cu (payload : List Byte) (s : State) : ((ownNoticeMask payload s).1).cu = s.cu := by unfold ownNoticeMask; (repeat' split) <;> simp
@[simp] theorem ownNoticeMask_pp (payload : List Byte) (s : State) : ((ownNoticeMask payload s).1).pp = s.pp := by unfold ownNoticeMask; (repeat' split) <;> simp
@[simp] theorem ownNoticeMask_gm (payload : List Byte) (s : State) : ((ownNoticeMask payload s).1).gm = s.gm := by unfold ownNoticeMask; (repeat' split) <;> simp
@[simp] theorem ownNoticeMask_bu (payload : List Byte) (s : State) : ((ownNoticeMask payload s).1).bu = s.bu := by unfold ownNoticeMask; (repeat' split) <;> simp
@[simp] theorem ownNoticeMask_lc (payload : List Byte) (s : State) : ((ownNoticeMask payload s).1).lc = s.lc := by unfold ownNoticeMask; (repeat' split) <;> simp
@[simp] theorem ownNoticeMask_pins (payload : List Byte) (s : State) : ((ownNoticeMask payload s).1).pins = s.pins := by unfold ownNoticeMask; (repeat' split) <;> simp
@[simp] theorem ownNoticeMask_inReset (payload : List Byte) (s : State) : ((ownNoticeMask payload s).1).inReset = s.inReset := by unfold ownNoticeMask; (repeat' split) <;> simp
@[simp] theorem ownNoticeMask_countIndex (payload : List Byte) (s : State) : ((ownNoticeMask payload s).1).countIndex = s.countIndex := by unfold ownNoticeMask; (repeat' split) <;> simp
@[simp] theorem ownNoticeMask_pending (payload : List Byte) (s : State) : ((ownNoticeMask payload s).1).pending = s.pending := by unfold ownNoticeMask; (repeat' split) <;> simp

@[simp] theorem ownFlagClear_mu (payload : List Byte) (s : State) : ((ownFlagClear payload s).1).mu = s.mu := by unfold ownFlagClear; (repeat' split) <;> simp
@[simp] theorem ownFlagClear_fu (payload : List Byte) (s : State) : ((ownFlagClear payload s).1).fu = s.fu := by unfold ownFlagClear; (repeat' split) <;> simp
@[simp] theorem ownFlagClear_au (payload : List Byte) (s : State) : ((ownFlagClear payload s).1).au = s.au := by unfold ownFlagClear; (repeat' split) <;> simp
@[simp] theorem ownFlagClear_tu (payload : List Byte) (s : State) : ((ownFlagClear payload s).1).tu = s.tu := by unfold ownFlagClear; (repeat' split) <;> simp
@[simp] theorem ownFlagClear_cu (payload : List Byte) (s : State) : ((ownFlagClear payload s).1).cu = s.cu := by unfold ownFlagClear; (repeat' split) <;> simp
@[simp] theorem ownFlagClear_pp (payload : List Byte) (s : State) : ((ownFlagClear payload s).1).pp = s.pp := by unfold ownFlagClear; (repeat' split) <;> simp
@[simp] theorem ownFlagClear_gm (payload : List Byte) (s : State) : ((ownFlagClear payload s).1).gm = s.gm := by unfold ownFlagClear; (repeat' split) <;> simp
@[simp] theorem ownFlagClear_bu (payload : List Byte) (s : State) : ((ownFlagClear payload s).1).bu = s.bu := by unfold ownFlagClear; (repeat' split) <;> simp
@[simp] theorem ownFlagClear_lc (payload : List Byte) (s : State) : ((ownFlagClear payload s).1).lc = s.lc := by unfold ownFlagClear; (repeat' split) <;> simp
@[simp] theorem ownFlagClear_pins (payload : List Byte) (s : State) : ((ownFlagClear payload s).1).pins = s.pins := by unfold ownFlagClear; (repeat' split) <;> simp
@[simp] theorem ownFlagClear_inReset (payload : List Byte) (s : State) : ((ownFlagClear payload s).1).inReset = s.inReset := by unfold ownFlagClear; (repeat' split) <;> simp
@[simp] theorem ownFlagClear_countIndex (payload : List Byte) (s : State) : ((ownFlagClear payload s).1).countIndex = s.countIndex := by unfold ownFlagClear; (repeat' split) <;> simp
@[simp] theorem ownFlagClear_pending (payload : List Byte) (s : State) : ((ownFlagClear payload s).1).pending = s.pending := by unfold ownFlagClear; (repeat' split) <;> simp

@[simp] theorem ownProtect_mu (payload : List Byte) (s : State) : ((ownProtect payload s).1).mu = s.mu := by unfold ownProtect; (repeat' split) <;> simp
@[simp] theorem ownProtect_fu (payload : List Byte) (s : State) : ((ownProtect payload s).1).fu = s.fu := by unfold ownProtect; (repeat' split) <;> simp
@[simp] theorem ownProtect_au (payload : List Byte) (s : State) : ((ownProtect payload s).1).au = s.au := by unfold ownProtect; (repeat' split) <;> simp
@[simp] theorem ownProtect_tu (payload : List Byte) (s : State) : ((ownProtect payload s).1).tu = s.tu := by unfold ownProtect; (repeat' split) <;> simp
@[simp] theorem ownProtect_cu (payload : List Byte) (s : State) : ((ownProtect payload s).1).cu = s.cu := by unfold ownProtect; (repeat' split) <;> simp
@[simp] theorem ownProtect_pp (payload : List Byte) (s : State) : ((ownProtect payload s).1).pp = s.pp := by unfold ownProtect; (repeat' split) <;> simp
@[simp] theorem ownProtect_gm (payload : List Byte) (s : State) : ((ownProtect payload s).1).gm = s.gm := by unfold ownProtect; (repeat' split) <;> simp
@[simp] theorem ownProtect_bu (payload : List Byte) (s : State) : ((ownProtect payload s).1).bu = s.bu := by unfold ownProtect; (repeat' split) <;> simp
@[simp] theorem ownProtect_lc (payload : List Byte) (s : State) : ((ownProtect payload s).1).lc = s.lc := by unfold ownProtect; (repeat' split) <;> simp
@[simp] theorem ownProtect_pins (payload : List Byte) (s : State) : ((ownProtect payload s).1).pins = s.pins := by unfold ownProtect; (repeat' split) <;> simp
@[simp] theorem ownProtect_inReset (payload : List Byte) (s : State) : ((ownProtect payload s).1).inReset = s.inReset := by unfold ownProtect; (repeat' split) <;> simp
@[simp] theorem ownProtect_countIndex (payload : List Byte) (s : State) : ((ownProtect payload s).1).countIndex = s.countIndex := by unfold ownProtect; (repeat' split) <;> simp
@[simp] theorem ownProtect_pending (payload : List Byte) (s : State) : ((ownProtect payload s).1).pending = s.pending := by unfold ownProtect; (repeat' split) <;> simp

@[simp] theorem ownFrame_pins (kind : Byte) (payload : List Byte) (s : State) : ((ownFrame kind payload s).1).pins = s.pins := by unfold ownFrame; split <;> simp
@[simp] theorem ownFrame_inReset (kind : Byte) (payload : List Byte) (s : State) : ((ownFrame kind payload s).1).inReset = s.inReset := by unfold ownFrame; split <;> simp
@[simp] theorem ownFrame_countIndex (kind : Byte) (payload : List Byte) (s : State) : ((ownFrame kind payload s).1).countIndex = s.countIndex := by unfold ownFrame; split <;> simp
@[simp] theorem ownFrame_pending (kind : Byte) (payload : List Byte) (s : State) : ((ownFrame kind payload s).1).pending = s.pending := by unfold ownFrame; split <;> simp

@[simp] theorem takeFrame_pins (kind : Byte) (payload : List Byte) (s : State) : (takeFrame kind payload s).pins = s.pins := by simp [takeFrame]
@[simp] theorem takeFrame_inReset (kind : Byte) (payload : List Byte) (s : State) : (takeFrame kind payload s).inReset = s.inReset := by simp [takeFrame]
@[simp] theorem takeFrame_countIndex (kind : Byte) (payload : List Byte) (s : State) : (takeFrame kind payload s).countIndex = s.countIndex := by simp [takeFrame]
@[simp] theorem takeFrame_pending (kind : Byte) (payload : List Byte) (s : State) : (takeFrame kind payload s).pending = s.pending := by simp [takeFrame]

@[simp] theorem takeHeld_pins (s : State) : (takeHeld s).pins = s.pins := by unfold takeHeld; split <;> simp
@[simp] theorem takeHeld_inReset (s : State) : (takeHeld s).inReset = s.inReset := by unfold takeHeld; split <;> simp
@[simp] theorem takeHeld_countIndex (s : State) : (takeHeld s).countIndex = s.countIndex := by unfold takeHeld; split <;> simp
@[simp] theorem takeHeld_pending (s : State) : (takeHeld s).pending = s.pending := by unfold takeHeld; split <;> simp

@[simp] theorem freeCopyEntry_mu (s : State) : (freeCopyEntry s).mu = s.mu := by unfold freeCopyEntry; split <;> simp
@[simp] theorem freeCopyEntry_fu (s : State) : (freeCopyEntry s).fu = s.fu := by unfold freeCopyEntry; split <;> simp
@[simp] theorem freeCopyEntry_tu (s : State) : (freeCopyEntry s).tu = s.tu := by unfold freeCopyEntry; split <;> simp
@[simp] theorem freeCopyEntry_cu (s : State) : (freeCopyEntry s).cu = s.cu := by unfold freeCopyEntry; split <;> simp
@[simp] theorem freeCopyEntry_pp (s : State) : (freeCopyEntry s).pp = s.pp := by unfold freeCopyEntry; split <;> simp
@[simp] theorem freeCopyEntry_gm (s : State) : (freeCopyEntry s).gm = s.gm := by unfold freeCopyEntry; split <;> simp
@[simp] theorem freeCopyEntry_bu (s : State) : (freeCopyEntry s).bu = s.bu := by unfold freeCopyEntry; split <;> simp
@[simp] theorem freeCopyEntry_lc (s : State) : (freeCopyEntry s).lc = s.lc := by unfold freeCopyEntry; split <;> simp
@[simp] theorem freeCopyEntry_ll (s : State) : (freeCopyEntry s).ll = s.ll := by unfold freeCopyEntry; split <;> simp
@[simp] theorem freeCopyEntry_pins (s : State) : (freeCopyEntry s).pins = s.pins := by unfold freeCopyEntry; split <;> simp
@[simp] theorem freeCopyEntry_inReset (s : State) : (freeCopyEntry s).inReset = s.inReset := by unfold freeCopyEntry; split <;> simp
@[simp] theorem freeCopyEntry_countIndex (s : State) : (freeCopyEntry s).countIndex = s.countIndex := by unfold freeCopyEntry; split <;> simp
@[simp] theorem freeCopyEntry_pending (s : State) : (freeCopyEntry s).pending = s.pending := by unfold freeCopyEntry; split <;> simp

@[simp] theorem discardCrc_mu (s : State) : (discardCrc s).mu = s.mu := by simp [discardCrc]
@[simp] theorem discardCrc_fu (s : State) : (discardCrc s).fu = s.fu := by simp [discardCrc]
@[simp] theorem discardCrc_tu (s : State) : (discardCrc s).tu = s.tu := by simp [discardCrc]
@[simp] theorem discardCrc_cu (s : State) : (discardCrc s).cu = s.cu := by simp [discardCrc]
@[simp] theorem discardCrc_pp (s : State) : (discardCrc s).pp = s.pp := by simp [discardCrc]
@[simp] theorem discardCrc_gm (s : State) : (discardCrc s).gm = s.gm := by simp [discardCrc]
@[simp] theorem discardCrc_bu (s : State) : (discardCrc s).bu = s.bu := by simp [discardCrc]
@[simp] theorem discardCrc_lc (s : State) : (discardCrc s).lc = s.lc := by simp [discardCrc]
@[simp] theorem discardCrc_pins (s : State) : (discardCrc s).pins = s.pins := by simp [discardCrc]
@[simp] theorem discardCrc_inReset (s : State) : (discardCrc s).inReset = s.inReset := by simp [discardCrc]
@[simp] theorem discardCrc_countIndex (s : State) : (discardCrc s).countIndex = s.countIndex := by simp [discardCrc]
@[simp] theorem discardCrc_pending (s : State) : (discardCrc s).pending = s.pending := by simp [discardCrc]

@[simp] theorem takeOrHold_pins (s : State) : (takeOrHold s).pins = s.pins := by unfold takeOrHold; split <;> simp
@[simp] theorem takeOrHold_inReset (s : State) : (takeOrHold s).inReset = s.inReset := by unfold takeOrHold; split <;> simp
@[simp] theorem takeOrHold_countIndex (s : State) : (takeOrHold s).countIndex = s.countIndex := by unfold takeOrHold; split <;> simp
@[simp] theorem takeOrHold_pending (s : State) : (takeOrHold s).pending = s.pending := by unfold takeOrHold; split <;> simp

@[simp] theorem checkFrame_pins (s : State) : (checkFrame s).pins = s.pins := by unfold checkFrame; split <;> simp
@[simp] theorem checkFrame_inReset (s : State) : (checkFrame s).inReset = s.inReset := by unfold checkFrame; split <;> simp
@[simp] theorem checkFrame_countIndex (s : State) : (checkFrame s).countIndex = s.countIndex := by unfold checkFrame; split <;> simp
@[simp] theorem checkFrame_pending (s : State) : (checkFrame s).pending = s.pending := by unfold checkFrame; split <;> simp

@[simp] theorem receiveOctet_pins (o : Byte) (s : State) : (receiveOctet o s).pins = s.pins := by unfold receiveOctet; (repeat' split) <;> simp
@[simp] theorem receiveOctet_inReset (o : Byte) (s : State) : (receiveOctet o s).inReset = s.inReset := by unfold receiveOctet; (repeat' split) <;> simp
@[simp] theorem receiveOctet_countIndex (o : Byte) (s : State) : (receiveOctet o s).countIndex = s.countIndex := by unfold receiveOctet; (repeat' split) <;> simp
@[simp] theorem receiveOctet_pending (o : Byte) (s : State) : (receiveOctet o s).pending = s.pending := by unfold receiveOctet; (repeat' split) <;> simp

@[simp] theorem frameGap_mu (s : State) : (frameGap s).mu = s.mu := by unfold frameGap; split <;> simp
@[simp] theorem frameGap_fu (s : State) : (frameGap s).fu = s.fu := by unfold frameGap; split <;> simp
@[simp] theorem frameGap_tu (s : State) : (frameGap s).tu = s.tu := by unfold frameGap; split <;> simp
@[simp] theorem frameGap_cu (s : State) : (frameGap s).cu = s.cu := by unfold frameGap; split <;> simp
@[simp] theorem frameGap_pp (s : State) : (frameGap s).pp = s.pp := by unfold frameGap; split <;> simp
@[simp] theorem frameGap_gm (s : State) : (frameGap s).gm = s.gm := by unfold frameGap; split <;> simp
@[simp] theorem frameGap_bu (s : State) : (frameGap s).bu = s.bu := by unfold frameGap; split <;> simp
@[simp] theorem frameGap_lc (s : State) : (frameGap s).lc = s.lc := by unfold frameGap; split <;> simp
@[simp] theorem frameGap_pins (s : State) : (frameGap s).pins = s.pins := by unfold frameGap; split <;> simp
@[simp] theorem frameGap_inReset (s : State) : (frameGap s).inReset = s.inReset := by unfold frameGap; split <;> simp
@[simp] theorem frameGap_countIndex (s : State) : (frameGap s).countIndex = s.countIndex := by unfold frameGap; split <;> simp
@[simp] theorem frameGap_pending (s : State) : (frameGap s).pending = s.pending := by unfold frameGap; split <;> simp

@[simp] theorem holdFrame_mu (kind : Byte) (payload : List Byte) (s : State) : (holdFrame kind payload s).mu = s.mu := by unfold holdFrame; split <;> simp
@[simp] theorem holdFrame_fu (kind : Byte) (payload : List Byte) (s : State) : (holdFrame kind payload s).fu = s.fu := by unfold holdFrame; split <;> simp
@[simp] theorem holdFrame_tu (kind : Byte) (payload : List Byte) (s : State) : (holdFrame kind payload s).tu = s.tu := by unfold holdFrame; split <;> simp
@[simp] theorem holdFrame_cu (kind : Byte) (payload : List Byte) (s : State) : (holdFrame kind payload s).cu = s.cu := by unfold holdFrame; split <;> simp
@[simp] theorem holdFrame_pp (kind : Byte) (payload : List Byte) (s : State) : (holdFrame kind payload s).pp = s.pp := by unfold holdFrame; split <;> simp
@[simp] theorem holdFrame_gm (kind : Byte) (payload : List Byte) (s : State) : (holdFrame kind payload s).gm = s.gm := by unfold holdFrame; split <;> simp
@[simp] theorem holdFrame_bu (kind : Byte) (payload : List Byte) (s : State) : (holdFrame kind payload s).bu = s.bu := by unfold holdFrame; split <;> simp
@[simp] theorem holdFrame_lc (kind : Byte) (payload : List Byte) (s : State) : (holdFrame kind payload s).lc = s.lc := by unfold holdFrame; split <;> simp
@[simp] theorem holdFrame_pins (kind : Byte) (payload : List Byte) (s : State) : (holdFrame kind payload s).pins = s.pins := by unfold holdFrame; split <;> simp
@[simp] theorem holdFrame_inReset (kind : Byte) (payload : List Byte) (s : State) : (holdFrame kind payload s).inReset = s.inReset := by unfold holdFrame; split <;> simp
@[simp] theorem holdFrame_countIndex (kind : Byte) (payload : List Byte) (s : State) : (holdFrame kind payload s).countIndex = s.countIndex := by unfold holdFrame; split <;> simp
@[simp] theorem holdFrame_pending (kind : Byte) (payload : List Byte) (s : State) : (holdFrame kind payload s).pending = s.pending := by unfold holdFrame; split <;> simp

@[simp] theorem arriveFrame_pins (kind : Byte) (payload : List Byte) (s : State) : (arriveFrame kind payload s).pins = s.pins := by unfold arriveFrame; (repeat' split) <;> simp
@[simp] theorem arriveFrame_inReset (kind : Byte) (payload : List Byte) (s : State) : (arriveFrame kind payload s).inReset = s.inReset := by unfold arriveFrame; (repeat' split) <;> simp
@[simp] theorem arriveFrame_countIndex (kind : Byte) (payload : List Byte) (s : State) : (arriveFrame kind payload s).countIndex = s.countIndex := by unfold arriveFrame; (repeat' split) <;> simp
@[simp] theorem arriveFrame_pending (kind : Byte) (payload : List Byte) (s : State) : (arriveFrame kind payload s).pending = s.pending := by unfold arriveFrame; (repeat' split) <;> simp

@[simp] theorem reportBacklog_mu (s : State) : (reportBacklog s).mu = s.mu := by unfold reportBacklog; (repeat' split) <;> simp
@[simp] theorem reportBacklog_fu (s : State) : (reportBacklog s).fu = s.fu := by unfold reportBacklog; (repeat' split) <;> simp
@[simp] theorem reportBacklog_au (s : State) : (reportBacklog s).au = s.au := by unfold reportBacklog; (repeat' split) <;> simp
@[simp] theorem reportBacklog_tu (s : State) : (reportBacklog s).tu = s.tu := by unfold reportBacklog; (repeat' split) <;> simp
@[simp] theorem reportBacklog_cu (s : State) : (reportBacklog s).cu = s.cu := by unfold reportBacklog; (repeat' split) <;> simp
@[simp] theorem reportBacklog_pp (s : State) : (reportBacklog s).pp = s.pp := by unfold reportBacklog; (repeat' split) <;> simp
@[simp] theorem reportBacklog_gm (s : State) : (reportBacklog s).gm = s.gm := by unfold reportBacklog; (repeat' split) <;> simp
@[simp] theorem reportBacklog_bu (s : State) : (reportBacklog s).bu = s.bu := by unfold reportBacklog; (repeat' split) <;> simp
@[simp] theorem reportBacklog_pins (s : State) : (reportBacklog s).pins = s.pins := by unfold reportBacklog; (repeat' split) <;> simp
@[simp] theorem reportBacklog_inReset (s : State) : (reportBacklog s).inReset = s.inReset := by unfold reportBacklog; (repeat' split) <;> simp
@[simp] theorem reportBacklog_countIndex (s : State) : (reportBacklog s).countIndex = s.countIndex := by unfold reportBacklog; (repeat' split) <;> simp
@[simp] theorem reportBacklog_pending (s : State) : (reportBacklog s).pending = s.pending := by unfold reportBacklog; (repeat' split) <;> simp

@[simp] theorem beginSending_mu (s : State) : (beginSending s).mu = s.mu := by unfold beginSending; split <;> simp
@[simp] theorem beginSending_fu (s : State) : (beginSending s).fu = s.fu := by unfold beginSending; split <;> simp
@[simp] theorem beginSending_au (s : State) : (beginSending s).au = s.au := by unfold beginSending; split <;> simp
@[simp] theorem beginSending_tu (s : State) : (beginSending s).tu = s.tu := by unfold beginSending; split <;> simp
@[simp] theorem beginSending_cu (s : State) : (beginSending s).cu = s.cu := by unfold beginSending; split <;> simp
@[simp] theorem beginSending_pp (s : State) : (beginSending s).pp = s.pp := by unfold beginSending; split <;> simp
@[simp] theorem beginSending_gm (s : State) : (beginSending s).gm = s.gm := by unfold beginSending; split <;> simp
@[simp] theorem beginSending_bu (s : State) : (beginSending s).bu = s.bu := by unfold beginSending; split <;> simp
@[simp] theorem beginSending_lc (s : State) : (beginSending s).lc = s.lc := by unfold beginSending; split <;> simp
@[simp] theorem beginSending_pins (s : State) : (beginSending s).pins = s.pins := by unfold beginSending; split <;> simp
@[simp] theorem beginSending_inReset (s : State) : (beginSending s).inReset = s.inReset := by unfold beginSending; split <;> simp
@[simp] theorem beginSending_countIndex (s : State) : (beginSending s).countIndex = s.countIndex := by unfold beginSending; split <;> simp
@[simp] theorem beginSending_pending (s : State) : (beginSending s).pending = s.pending := by unfold beginSending; split <;> simp

@[simp] theorem finish_pins (s : State) : (finish s).pins = s.pins := by simp [finish]
@[simp] theorem finish_inReset (s : State) : (finish s).inReset = s.inReset := by simp [finish]
@[simp] theorem finish_countIndex (s : State) : (finish s).countIndex = s.countIndex := by simp [finish]
@[simp] theorem finish_pending (s : State) : (finish s).pending = s.pending := by simp [finish]

@[simp] theorem frameSent_mu (s : State) : (frameSent s).mu = s.mu := by unfold frameSent; split <;> simp
@[simp] theorem frameSent_fu (s : State) : (frameSent s).fu = s.fu := by unfold frameSent; split <;> simp
@[simp] theorem frameSent_au (s : State) : (frameSent s).au = s.au := by unfold frameSent; split <;> simp
@[simp] theorem frameSent_tu (s : State) : (frameSent s).tu = s.tu := by unfold frameSent; split <;> simp
@[simp] theorem frameSent_cu (s : State) : (frameSent s).cu = s.cu := by unfold frameSent; split <;> simp
@[simp] theorem frameSent_pp (s : State) : (frameSent s).pp = s.pp := by unfold frameSent; split <;> simp
@[simp] theorem frameSent_gm (s : State) : (frameSent s).gm = s.gm := by unfold frameSent; split <;> simp
@[simp] theorem frameSent_bu (s : State) : (frameSent s).bu = s.bu := by unfold frameSent; split <;> simp
@[simp] theorem frameSent_lc (s : State) : (frameSent s).lc = s.lc := by unfold frameSent; split <;> simp
@[simp] theorem frameSent_pins (s : State) : (frameSent s).pins = s.pins := by unfold frameSent; split <;> simp
@[simp] theorem frameSent_inReset (s : State) : (frameSent s).inReset = s.inReset := by unfold frameSent; split <;> simp
@[simp] theorem frameSent_countIndex (s : State) : (frameSent s).countIndex = s.countIndex := by unfold frameSent; split <;> simp
@[simp] theorem frameSent_pending (s : State) : (frameSent s).pending = s.pending := by unfold frameSent; split <;> simp

@[simp] theorem readerMessage_mu (kind : Byte) (payload : List Byte) (s : State) : (readerMessage kind payload s).mu = s.mu := by unfold readerMessage; split <;> simp
@[simp] theorem readerMessage_fu (kind : Byte) (payload : List Byte) (s : State) : (readerMessage kind payload s).fu = s.fu := by unfold readerMessage; split <;> simp
@[simp] theorem readerMessage_au (kind : Byte) (payload : List Byte) (s : State) : (readerMessage kind payload s).au = s.au := by unfold readerMessage; split <;> simp
@[simp] theorem readerMessage_pp (kind : Byte) (payload : List Byte) (s : State) : (readerMessage kind payload s).pp = s.pp := by unfold readerMessage; split <;> simp
@[simp] theorem readerMessage_gm (kind : Byte) (payload : List Byte) (s : State) : (readerMessage kind payload s).gm = s.gm := by unfold readerMessage; split <;> simp
@[simp] theorem readerMessage_bu (kind : Byte) (payload : List Byte) (s : State) : (readerMessage kind payload s).bu = s.bu := by unfold readerMessage; split <;> simp
@[simp] theorem readerMessage_lc (kind : Byte) (payload : List Byte) (s : State) : (readerMessage kind payload s).lc = s.lc := by unfold readerMessage; split <;> simp
@[simp] theorem readerMessage_pins (kind : Byte) (payload : List Byte) (s : State) : (readerMessage kind payload s).pins = s.pins := by unfold readerMessage; split <;> simp
@[simp] theorem readerMessage_inReset (kind : Byte) (payload : List Byte) (s : State) : (readerMessage kind payload s).inReset = s.inReset := by unfold readerMessage; split <;> simp
@[simp] theorem readerMessage_countIndex (kind : Byte) (payload : List Byte) (s : State) : (readerMessage kind payload s).countIndex = s.countIndex := by unfold readerMessage; split <;> simp
@[simp] theorem readerMessage_pending (kind : Byte) (payload : List Byte) (s : State) : (readerMessage kind payload s).pending = s.pending := by unfold readerMessage; split <;> simp

@[simp] theorem readerOctet_mu (o : Byte) (s : State) : (readerOctet o s).mu = s.mu := by unfold readerOctet; split <;> simp
@[simp] theorem readerOctet_fu (o : Byte) (s : State) : (readerOctet o s).fu = s.fu := by unfold readerOctet; split <;> simp
@[simp] theorem readerOctet_au (o : Byte) (s : State) : (readerOctet o s).au = s.au := by unfold readerOctet; split <;> simp
@[simp] theorem readerOctet_pp (o : Byte) (s : State) : (readerOctet o s).pp = s.pp := by unfold readerOctet; split <;> simp
@[simp] theorem readerOctet_gm (o : Byte) (s : State) : (readerOctet o s).gm = s.gm := by unfold readerOctet; split <;> simp
@[simp] theorem readerOctet_bu (o : Byte) (s : State) : (readerOctet o s).bu = s.bu := by unfold readerOctet; split <;> simp
@[simp] theorem readerOctet_lc (o : Byte) (s : State) : (readerOctet o s).lc = s.lc := by unfold readerOctet; split <;> simp
@[simp] theorem readerOctet_pins (o : Byte) (s : State) : (readerOctet o s).pins = s.pins := by unfold readerOctet; split <;> simp
@[simp] theorem readerOctet_inReset (o : Byte) (s : State) : (readerOctet o s).inReset = s.inReset := by unfold readerOctet; split <;> simp
@[simp] theorem readerOctet_countIndex (o : Byte) (s : State) : (readerOctet o s).countIndex = s.countIndex := by unfold readerOctet; split <;> simp
@[simp] theorem readerOctet_pending (o : Byte) (s : State) : (readerOctet o s).pending = s.pending := by unfold readerOctet; split <;> simp

@[simp] theorem readerGap_mu (s : State) : (readerGap s).mu = s.mu := by unfold readerGap; split <;> simp
@[simp] theorem readerGap_fu (s : State) : (readerGap s).fu = s.fu := by unfold readerGap; split <;> simp
@[simp] theorem readerGap_au (s : State) : (readerGap s).au = s.au := by unfold readerGap; split <;> simp
@[simp] theorem readerGap_tu (s : State) : (readerGap s).tu = s.tu := by unfold readerGap; split <;> simp
@[simp] theorem readerGap_pp (s : State) : (readerGap s).pp = s.pp := by unfold readerGap; split <;> simp
@[simp] theorem readerGap_gm (s : State) : (readerGap s).gm = s.gm := by unfold readerGap; split <;> simp
@[simp] theorem readerGap_bu (s : State) : (readerGap s).bu = s.bu := by unfold readerGap; split <;> simp
@[simp] theorem readerGap_lc (s : State) : (readerGap s).lc = s.lc := by unfold readerGap; split <;> simp
@[simp] theorem readerGap_ll (s : State) : (readerGap s).ll = s.ll := by unfold readerGap; split <;> simp
@[simp] theorem readerGap_pins (s : State) : (readerGap s).pins = s.pins := by unfold readerGap; split <;> simp
@[simp] theorem readerGap_inReset (s : State) : (readerGap s).inReset = s.inReset := by unfold readerGap; split <;> simp
@[simp] theorem readerGap_countIndex (s : State) : (readerGap s).countIndex = s.countIndex := by unfold readerGap; split <;> simp
@[simp] theorem readerGap_pending (s : State) : (readerGap s).pending = s.pending := by unfold readerGap; split <;> simp

@[simp] theorem printerMessage_au (kind : Byte) (payload : List Byte) (s : State) : (printerMessage kind payload s).au = s.au := by unfold printerMessage; (repeat' split) <;> simp
@[simp] theorem printerMessage_bu (kind : Byte) (payload : List Byte) (s : State) : (printerMessage kind payload s).bu = s.bu := by unfold printerMessage; (repeat' split) <;> simp
@[simp] theorem printerMessage_pins (kind : Byte) (payload : List Byte) (s : State) : (printerMessage kind payload s).pins = s.pins := by unfold printerMessage; (repeat' split) <;> simp
@[simp] theorem printerMessage_inReset (kind : Byte) (payload : List Byte) (s : State) : (printerMessage kind payload s).inReset = s.inReset := by unfold printerMessage; (repeat' split) <;> simp
@[simp] theorem printerMessage_countIndex (kind : Byte) (payload : List Byte) (s : State) : (printerMessage kind payload s).countIndex = s.countIndex := by unfold printerMessage; (repeat' split) <;> simp
@[simp] theorem printerMessage_pending (kind : Byte) (payload : List Byte) (s : State) : (printerMessage kind payload s).pending = s.pending := by unfold printerMessage; (repeat' split) <;> simp

@[simp] theorem printerOctet_au (o : Byte) (s : State) : (printerOctet o s).au = s.au := by unfold printerOctet; split <;> simp
@[simp] theorem printerOctet_bu (o : Byte) (s : State) : (printerOctet o s).bu = s.bu := by unfold printerOctet; split <;> simp
@[simp] theorem printerOctet_pins (o : Byte) (s : State) : (printerOctet o s).pins = s.pins := by unfold printerOctet; split <;> simp
@[simp] theorem printerOctet_inReset (o : Byte) (s : State) : (printerOctet o s).inReset = s.inReset := by unfold printerOctet; split <;> simp
@[simp] theorem printerOctet_countIndex (o : Byte) (s : State) : (printerOctet o s).countIndex = s.countIndex := by unfold printerOctet; split <;> simp
@[simp] theorem printerOctet_pending (o : Byte) (s : State) : (printerOctet o s).pending = s.pending := by unfold printerOctet; split <;> simp

@[simp] theorem printerGap_mu (s : State) : (printerGap s).mu = s.mu := by unfold printerGap; split <;> simp
@[simp] theorem printerGap_fu (s : State) : (printerGap s).fu = s.fu := by unfold printerGap; split <;> simp
@[simp] theorem printerGap_au (s : State) : (printerGap s).au = s.au := by unfold printerGap; split <;> simp
@[simp] theorem printerGap_tu (s : State) : (printerGap s).tu = s.tu := by unfold printerGap; split <;> simp
@[simp] theorem printerGap_cu (s : State) : (printerGap s).cu = s.cu := by unfold printerGap; split <;> simp
@[simp] theorem printerGap_gm (s : State) : (printerGap s).gm = s.gm := by unfold printerGap; split <;> simp
@[simp] theorem printerGap_bu (s : State) : (printerGap s).bu = s.bu := by unfold printerGap; split <;> simp
@[simp] theorem printerGap_lc (s : State) : (printerGap s).lc = s.lc := by unfold printerGap; split <;> simp
@[simp] theorem printerGap_ll (s : State) : (printerGap s).ll = s.ll := by unfold printerGap; split <;> simp
@[simp] theorem printerGap_pins (s : State) : (printerGap s).pins = s.pins := by unfold printerGap; split <;> simp
@[simp] theorem printerGap_inReset (s : State) : (printerGap s).inReset = s.inReset := by unfold printerGap; split <;> simp
@[simp] theorem printerGap_countIndex (s : State) : (printerGap s).countIndex = s.countIndex := by unfold printerGap; split <;> simp
@[simp] theorem printerGap_pending (s : State) : (printerGap s).pending = s.pending := by unfold printerGap; split <;> simp

end Sys2Proof.Machine
end

