-- ==== Sys2Proof/Laws/Memory.lean ====
section
/-! SUPPORT. The text pool's memory: every operation keeps the canonical form, and what a write does to every read. -/

namespace Sys2Proof.Machine

@[simp] theorem Memory.read_nil (a : Nat) : Memory.read [] a = poolBlank := rfl

theorem Memory.wf_cons (k : Nat) (v : Byte) (t : Memory) :
    Memory.wf ((k, v) :: t) = true ↔ (∀ c ∈ t, k < c.1) ∧ v ≠ poolBlank ∧ Memory.wf t = true := by
  simp [Memory.wf, List.all_eq_true]

/-- An address below every listed one reads as blank. -/
theorem Memory.read_of_below (m : Memory) (a : Nat) (h : ∀ c ∈ m, a < c.1) : m.read a = poolBlank := by
  induction m with
  | nil => rfl
  | cons c t ih =>
    obtain ⟨k, v⟩ := c
    have hk : a < k := h (k, v) (by simp)
    have : k ≠ a := by omega
    simp only [Memory.read, this, if_false]
    exact ih (fun c hc => h c (by simp [hc]))

/-- A write lists no address but its own anew. -/
theorem Memory.write_addresses (m : Memory) (a : Nat) (b : Byte) : ∀ c ∈ m.write a b, c.1 = a ∨ c ∈ m := by
  induction m with
  | nil => intro c hc; simp only [Memory.write] at hc; split at hc <;> simp_all
  | cons d t ih =>
    obtain ⟨k, v⟩ := d
    intro c hc
    simp only [Memory.write] at hc
    (repeat' split at hc) <;> simp only [List.mem_cons] at hc ⊢
    · exact .inr hc
    · rcases hc with rfl | hc
      · exact .inl rfl
      · exact .inr hc
    · exact .inr (.inr hc)
    · rcases hc with rfl | hc
      · exact .inl rfl
      · exact .inr (.inr hc)
    · rcases hc with rfl | hc
      · exact .inr (.inl rfl)
      · rcases ih c hc with h | h
        · exact .inl h
        · exact .inr (.inr h)

/-- A write keeps the canonical form. -/
theorem Memory.write_wf (m : Memory) (a : Nat) (b : Byte) (h : m.wf = true) : (m.write a b).wf = true := by
  induction m with
  | nil => simp only [Memory.write]; split <;> simp_all [Memory.wf]
  | cons d t ih =>
    obtain ⟨k, v⟩ := d
    obtain ⟨hlt, hv, ht⟩ := (Memory.wf_cons k v t).1 h
    simp only [Memory.write]
    split
    · rename_i hak
      split
      · exact h
      · rename_i hb
        refine (Memory.wf_cons _ _ _).2 ⟨?_, hb, h⟩
        intro c hc
        rcases List.mem_cons.1 hc with rfl | hc
        · exact hak
        · exact lt_trans hak (hlt c hc)
    · rename_i hak
      split
      · rename_i hEq
        split
        · exact ht
        · rename_i hb
          exact (Memory.wf_cons _ _ _).2 ⟨fun c hc => hEq ▸ hlt c hc, hb, ht⟩
      · rename_i hNe
        refine (Memory.wf_cons _ _ _).2 ⟨?_, hv, ih ht⟩
        intro c hc
        rcases Memory.write_addresses t a b c hc with h' | h'
        · omega
        · exact hlt c h'

/-- A read after a write to the same address gives the octet written. -/
theorem Memory.read_write_same (m : Memory) (a : Nat) (b : Byte) (h : m.wf = true) : (m.write a b).read a = b := by
  induction m with
  | nil => simp only [Memory.write]; split <;> simp_all [Memory.read]
  | cons d t ih =>
    obtain ⟨k, v⟩ := d
    obtain ⟨hlt, hv, ht⟩ := (Memory.wf_cons k v t).1 h
    simp only [Memory.write]
    split
    · rename_i hak
      split
      · rename_i hb
        rw [hb]
        refine Memory.read_of_below _ _ (fun c hc => ?_)
        rcases List.mem_cons.1 hc with rfl | hc
        · exact hak
        · exact lt_trans hak (hlt c hc)
      · simp [Memory.read]
    · split
      · rename_i hEq
        split
        · rename_i hb
          rw [hb]
          exact Memory.read_of_below _ _ (fun c hc => hEq ▸ hlt c hc)
        · simp [Memory.read]
      · rename_i hNe
        have : k ≠ a := fun e => hNe e.symm
        simp only [Memory.read, this, if_false]
        exact ih ht

/-- A write leaves what every other address reads as. -/
theorem Memory.read_write_other (m : Memory) (a c : Nat) (b : Byte) (hc : c ≠ a) (h : m.wf = true) :
    (m.write a b).read c = m.read c := by
  have hca : ¬ a = c := fun e => hc e.symm
  induction m with
  | nil => simp only [Memory.write]; split <;> simp_all [Memory.read]
  | cons d t ih =>
    obtain ⟨k, v⟩ := d
    obtain ⟨hlt, hv, ht⟩ := (Memory.wf_cons k v t).1 h
    simp only [Memory.write]
    split
    · split <;> simp [Memory.read, hca]
    · split
      · rename_i hEq
        have hkc : ¬ k = c := fun e => hc (by omega)
        split <;> simp [Memory.read, hca, hkc]
      · simp only [Memory.read]
        split
        · rfl
        · exact ih ht

/-- A run of writes keeps the canonical form. -/
theorem Memory.writeRun_wf (octets : List Byte) (m : Memory) (a : Nat) (h : m.wf = true) :
    (m.writeRun a octets).wf = true := by
  induction octets generalizing m a with
  | nil => exact h
  | cons b t ih => exact ih _ _ (Memory.write_wf m a b h)

/-- A run of writes leaves every address outside it. -/
theorem Memory.read_writeRun_outside (octets : List Byte) (m : Memory) (a c : Nat) (h : m.wf = true)
    (hc : c < a ∨ a + octets.length ≤ c) : (m.writeRun a octets).read c = m.read c := by
  induction octets generalizing m a with
  | nil => rfl
  | cons b t ih =>
    rw [List.length_cons] at hc
    rw [Memory.writeRun, ih _ _ (Memory.write_wf m a b h) (by omega),
      Memory.read_write_other m a c b (by omega) h]

/-- A run of writes is read back. -/
theorem Memory.read_writeRun_inside (octets : List Byte) (m : Memory) (a j : Nat) (h : m.wf = true)
    (hj : j < octets.length) : (m.writeRun a octets).read (a + j) = octets[j] := by
  induction octets generalizing m a j with
  | nil => simp at hj
  | cons b t ih =>
    rw [Memory.writeRun]
    cases j with
    | zero =>
      rw [Memory.read_writeRun_outside t _ _ _ (Memory.write_wf m a b h) (by omega)]
      simpa using Memory.read_write_same m a b h
    | succ j =>
      have := ih _ (a + 1) j (Memory.write_wf m a b h) (by simpa using hj)
      simpa [Nat.add_assoc, Nat.add_comm 1 j] using this

/-- Storing into blocks keeps the canonical form. -/
theorem Memory.storeBlocks_wf (blocks : List Nat) (octets : List Byte) (m : Memory) (h : m.wf = true) :
    (m.storeBlocks octets blocks).wf = true := by
  induction blocks generalizing m octets with
  | nil => exact h
  | cons b t ih => exact ih _ _ (Memory.writeRun_wf _ m _ h)

/-- Storing into blocks leaves every block that is not named. -/
theorem Memory.read_storeBlocks_outside (blocks : List Nat) (octets : List Byte) (m : Memory) (c : Nat) (h : m.wf = true)
    (hc : c / blockSize ∉ blocks) : (m.storeBlocks octets blocks).read c = m.read c := by
  induction blocks generalizing m octets with
  | nil => rfl
  | cons b t ih =>
    simp only [List.mem_cons, not_or] at hc
    rw [Memory.storeBlocks, ih _ _ (Memory.writeRun_wf _ m _ h) hc.2]
    refine Memory.read_writeRun_outside _ m _ c h ?_
    have hl : (octets.take blockSize).length ≤ blockSize := by simp [List.length_take]
    have h1 := hc.1
    simp only [blockSize] at *
    omega

/-- A run read back is as long as wanted. -/
@[simp] theorem Memory.readRun_length (m : Memory) (a n : Nat) : (m.readRun a n).length = n := by
  induction n generalizing a with
  | zero => rfl
  | succ n ih => simp [Memory.readRun, ih]

end Sys2Proof.Machine
end

