-- ==== Sys2Proof/Laws/Ops.lean ====
section
/-! SUPPORT. What the shared operations do: one lemma for each that says what its own unit becomes, and the event. -/

-- The lemmas of this file are elaborated one after another: side by side, each waits for the others on a thread of its own.
set_option Elab.async false

namespace Sys2Proof.Machine

/-! ## Vectors -/

theorem modifyAt_self {α : Type} {n : Nat} (v : Vector α n) (i : Fin n) (f : α → α) : (modifyAt v i f)[i] = f v[i] := by
  simp [modifyAt]

theorem modifyAt_other {α : Type} {n : Nat} (v : Vector α n) (i j : Fin n) (f : α → α) (h : j ≠ i) :
    (modifyAt v i f)[j] = v[j] := by
  have : i.val ≠ j.val := fun e => h (Fin.ext e.symm)
  simp [modifyAt, this]

theorem mapAll_get {α β : Type} {n : Nat} (v : Vector α n) (f : Fin n → α → β) (i : Fin n) : (mapAll v f)[i] = f i v[i] := by
  simp [mapAll]

/-! ## The working state of a station -/

@[simp] theorem fireWork_setFireWork (i : StationNo) (f : FireWork → FireWork) (s : State) :
    (setFireWork i f s).fireWork i = f (s.fireWork i) := modifyAt_self _ _ _

theorem fireWork_setFireWork_other (i j : StationNo) (f : FireWork → FireWork) (s : State) (h : j ≠ i) :
    (setFireWork i f s).fireWork j = s.fireWork j := modifyAt_other _ _ _ _ h

@[simp] theorem checkWork_setCheckWork (i : StationNo) (f : CheckWork → CheckWork) (s : State) :
    (setCheckWork i f s).checkWork i = f (s.checkWork i) := modifyAt_self _ _ _

theorem checkWork_setCheckWork_other (i j : StationNo) (f : CheckWork → CheckWork) (s : State) (h : j ≠ i) :
    (setCheckWork i f s).checkWork j = s.checkWork j := modifyAt_other _ _ _ _ h

theorem fireWork_endPulses (i : StationNo) (s : State) :
    (endPulses s).fireWork i = { s.fireWork i with pulse := false } := by
  simp only [endPulses, State.fireWork]
  exact mapAll_get _ _ i

/-- What is said of an operation that a station list is run through: an invariant of each is an invariant of all. -/
theorem forStations_inv (P : State → Prop) (f : StationNo → State → State) (h : ∀ i s, P s → P (f i s)) (s : State)
    (hs : P s) : P (forStations f s) := by
  have key : ∀ (l : List StationNo) (s : State), P s → P (l.foldl (fun s i => f i s) s) := by
    intro l
    induction l with
    | nil => intro s hs; exact hs
    | cons i l ih => intro s hs; exact ih _ (h i s hs)
  exact key stationNos s hs

/-- Every station number is in the station list. -/
theorem mem_stationNos (i : StationNo) : i ∈ stationNos := by revert i; decide

/-- A station is of a kind exactly when the kind's list names it. -/
theorem mem_stationsOf (s : State) (k : StationKind) (i : StationNo) : i ∈ s.stationsOf k ↔ (s.station i).kind = k := by
  simp [State.stationsOf, mem_stationNos]

/-! ## Track positions -/

@[simp] theorem trackLen_setContent (pos : Nat) (c : Content) (s : State) : (setContent pos c s).trackLen = s.trackLen := by
  simp [setContent, State.trackLen]

@[simp] theorem trackLen_modifyContext (pos : Nat) (f : Context → Context) (s : State) :
    (modifyContext pos f s).trackLen = s.trackLen := by
  simp [modifyContext, State.trackLen]

/-- A position beyond T holds EMPTY. -/
theorem contentAt_beyond (s : State) (pos : Nat) (h : s.trackLen ≤ pos) : s.contentAt pos = .empty := by
  simp [State.contentAt, State.trackLen] at *
  simp [List.getElem?_eq_none h]

/-- A position that holds something stands on the track. -/
theorem lt_trackLen_of_occupied (s : State) (pos : Nat) (h : s.contentAt pos ≠ .empty) : pos < s.trackLen := by
  by_contra hn
  exact h (contentAt_beyond s pos (by omega))

theorem contentAt_setContent_self (pos : Nat) (c : Content) (s : State) (h : pos < s.trackLen) :
    (setContent pos c s).contentAt pos = c := by
  simp only [State.trackLen] at h
  simp [setContent, State.contentAt, h]

theorem contentAt_setContent_other (pos q : Nat) (c : Content) (s : State) (h : q ≠ pos) :
    (setContent pos c s).contentAt q = s.contentAt q := by
  simp [setContent, State.contentAt, List.getElem?_set_ne (Ne.symm h)]

theorem contentAt_modifyContext_self (pos : Nat) (f : Context → Context) (s : State) :
    (modifyContext pos f s).contentAt pos = (s.contentAt pos).mapContext f := by
  simp only [modifyContext, State.contentAt, List.getD_eq_getElem?_getD, List.getElem?_modify, if_true]
  cases s.tu.track[pos]? <;> rfl

theorem contentAt_modifyContext_other (pos q : Nat) (f : Context → Context) (s : State) (h : q ≠ pos) :
    (modifyContext pos f s).contentAt q = s.contentAt q := by
  simp [modifyContext, State.contentAt, Ne.symm h]

/-! ## The upstream queue and notices -/

@[simp] theorem place_upstream (r : Record) (s : State) : (place r s).ll.upstream = s.ll.upstream ++ [r] := rfl

@[simp] theorem placeAll_upstream (rs : List Record) (s : State) : (placeAll rs s).ll.upstream = s.ll.upstream ++ rs := rfl

/-- All that raising a notice does: its flag, its record where it is enabled and the queue has room, and NOTICES_DROPPED
where it is enabled and the queue has none. -/
theorem raiseNotice_ll (n : Notice) (s : State) :
    (raiseNotice n s).ll = { s.ll with
      flags := setFlag s.ll.flags (noticeCode n)
      upstream := if s.ll.mask.getLsbD (noticeCode n) = true ∧ s.hasRoom = true then
        s.ll.upstream ++ [.notice n s.mu.pitch] else s.ll.upstream
      noticesDropped := if s.ll.mask.getLsbD (noticeCode n) = true ∧ s.hasRoom = false then bump s.ll.noticesDropped
        else s.ll.noticesDropped } := by
  unfold raiseNotice
  dsimp only
  (repeat' split) <;> simp_all [place]

/-! ## The line state -/

/-- All that a joining hold cause does to the Line Control Unit. -/
theorem addHold_lc (c : HoldCause) (s : State) :
    (addHold c s).lc = { s.lc with
      holds := s.lc.holds.add c
      line := if s.lc.holds.isEmpty = true ∧ s.lc.line = .running then .holding else s.lc.line } := by
  unfold addHold
  dsimp only
  split <;> simp_all [setLine]

/-- All that the removal of hold causes does to the Line Control Unit. -/
theorem reduceHolds_lc (h : HoldSet) (s : State) :
    (reduceHolds h s).lc = { s.lc with
      holds := h
      line := if h.isEmpty = true ∧ s.lc.holds.isEmpty = false ∧ s.lc.line = .holding then .running else s.lc.line } := by
  unfold reduceHolds
  dsimp only
  split <;> simp_all [setLine]

/-- A passage to a state outside the firing states changes the line state alone in the Line Control Unit. -/
theorem stopLine_lc (l : LineState) (s : State) : (stopLine l s).lc = { s.lc with line := l } := by
  unfold stopLine
  split <;> simp [setLine]

/-- A stop-class fault outside FAULTED. -/
theorem beginEpisode_lc (c : FaultCause) (st : Option StationNo) (s : State) :
    (beginEpisode c st s).lc = { s.lc with
      line := .faulted
      faults := FaultSet.empty.add c
      further := 0
      armed := false
      locator := if s.lc.armed = true then
        some { cause := c, station := st, pitch := s.mu.pitch, seq := st.bind (fun i => s.seqAt (s.station i).offset) }
        else s.lc.locator } := by
  simp [beginEpisode, stopLine_lc]

/-- A stop-class fault while FAULTED. -/
theorem furtherFault_lc (c : FaultCause) (st : Option StationNo) (s : State) :
    (furtherFault c st s).lc = { s.lc with faults := s.lc.faults.add c, further := bump255 s.lc.further } := by
  simp [furtherFault]

/-- Leaving the firing states ends every pulse and stops the simulated source. -/
theorem leaveFiring_outputs (s : State) :
    (∀ i, ((leaveFiring s).fireWork i).pulse = false) ∧ (leaveFiring s).fu.bundleKick = false ∧
    (leaveFiring s).fu.trayKick = false ∧ (leaveFiring s).mu = { s.mu with sim := .stopped } := by
  have hfu : (leaveFiring s).fu = (endPulses s).fu := by
    simp only [leaveFiring]
    exact forStations_keeps (fun s => s.fu) abandonMeasurement (by simp) (endPulses s)
  have hmu : (forStations abandonMeasurement (endPulses s)).mu = s.mu := by simp
  refine ⟨fun i => ?_, by rw [hfu]; rfl, by rw [hfu]; rfl, by simp only [leaveFiring, hmu]⟩
  have := fireWork_endPulses i s
  simp only [State.fireWork] at this ⊢
  rw [hfu, this]

/-! ## Kicks (R30, R145, R147, R193) -/

/-- All that a kick take can do: nothing, with no kick pending or none to be taken, or the oldest kick with its pulses, which is
the pitch's one kick. -/
theorem takeKick_cases (i : StationNo) (s : State) :
    (takeKick i s = s ∧ (s.bu.kicks = [] ∨ s.firing = false ∨ s.fu.kickTaken = true)) ∨
    ∃ tray rest, s.bu.kicks = tray :: rest ∧ s.firing = true ∧ s.fu.kickTaken = false ∧
      takeKick i s = { s with
        bu := { s.bu with kicks := rest }
        fu := { s.fu with
          bundleKick := true, trayKick := tray, kickEnd := (s.fireWork i).e + (s.station i).pulseLength
          kickTaken := true } } := by
  unfold takeKick State.mayKick
  cases hk : s.bu.kicks with
  | nil => simp
  | cons tray rest => cases hf : s.firing <;> cases ht : s.fu.kickTaken <;> simp

/-- A close leaves the kicks that wait where they are and appends its own. -/
theorem closeBundles_kicks (s : State) : ∃ more, (closeBundles s).bu.kicks = s.bu.kicks ++ more := ⟨_, rfl⟩

@[simp] theorem setFireWork_kickTaken (i : StationNo) (f : FireWork → FireWork) (s : State) :
    (setFireWork i f s).fu.kickTaken = s.fu.kickTaken := rfl
@[simp] theorem startPulse_kickTaken (i : StationNo) (s : State) : (startPulse i s).fu.kickTaken = s.fu.kickTaken := rfl
@[simp] theorem endPulses_kickTaken (s : State) : (endPulses s).fu.kickTaken = s.fu.kickTaken := rfl
@[simp] theorem endDuePulses_kickTaken (s : State) : (endDuePulses s).fu.kickTaken = s.fu.kickTaken := rfl
@[simp] theorem latchPitch_kickTaken (s : State) : (latchPitch s).fu.kickTaken = s.fu.kickTaken := rfl
@[simp] theorem newPitchFiring_kickTaken (s : State) : (newPitchFiring s).fu.kickTaken = false := rfl
@[simp] theorem putStation_kickTaken (i : StationNo) (e : StationEntry) (s : State) :
    (putStation i e s).fu.kickTaken = s.fu.kickTaken := rfl
@[simp] theorem putCurve_kickTaken (k : Fin 4) (f : CurveSlot → CurveSlot) (s : State) :
    (putCurve k f s).fu.kickTaken = s.fu.kickTaken := rfl
@[simp] theorem putOutput_kickTaken (k : Fin 24) (e : OutputEntry) (s : State) :
    (putOutput k e s).fu.kickTaken = s.fu.kickTaken := rfl
@[simp] theorem setOverrides_kickTaken (d p : Bool) (s : State) :
    (setOverrides d p s).fu.kickTaken = s.fu.kickTaken := rfl
@[simp] theorem resetFiring_kickTaken (s : State) : (resetFiring s).fu.kickTaken = s.fu.kickTaken := rfl

/-! ## Staging -/

theorem freeEntry_staging (i : Fin 16) (s : State) : (freeEntry i s).au.staging[i] = .free := by
  simp [freeEntry, setEntry]

theorem freeEntry_order (i : Fin 16) (s : State) :
    (freeEntry i s).au.order = s.au.order.filter (fun j => decide (j ≠ i)) := rfl

/-! ## Events -/

/-- While reset lasts an event changes nothing. -/
theorem event_inReset (p : Pins) (work : State → State) (s : State) (h : s.inReset = true) : event p work s = .next s := by
  simp [event, h]

/-- Outside reset an event takes the pins, does its work and ends with `finish`. -/
theorem event_open (p : Pins) (work : State → State) (s : State) (h : s.inReset = false) :
    event p work s = .next (finish (work (setPins p s))) := by
  simp [event, h]

/-- With no frame held, `takeHeld` does nothing. -/
theorem takeHeld_open (s : State) (h : s.ll.receive ≠ .held) : takeHeld s = s := by
  simp [takeHeld, h]

/-- With a queue between the two levels of LINK_BACKLOG, or a cause that agrees with it, nothing is reported. -/
theorem reportBacklog_quiet (s : State) (h1 : s.ll.upstream.length < 96) (h2 : s.lc.holds.linkBacklog = false) :
    reportBacklog s = s := by
  have : ¬ 96 ≤ s.ll.upstream.length := by omega
  simp [reportBacklog, this, h2]

/-- The end of an event that holds no frame and leaves the queue short: the transmitter alone. -/
theorem finish_quiet (s : State) (h0 : s.ll.receive ≠ .held) (h1 : s.ll.upstream.length < 96)
    (h2 : s.lc.holds.linkBacklog = false) : finish s = beginSending s := by
  simp [finish, takeHeld_open s h0, reportBacklog_quiet s h1 h2]

/-- All that the transmitter's start does to the Line Link Controller. -/
theorem beginSending_ll (s : State) :
    (beginSending s).ll = { s.ll with
      sending := s.ll.sending || (s.pins.lrdyIn && decide (s.ll.upstream ≠ [])) } := by
  have key : ∀ b : Bool, s.ll.sending = b → s.ll = { s.ll with sending := b } := by rintro b rfl; rfl
  unfold beginSending
  split
  · rename_i h; simp [h.2.1, h.2.2]
  · rename_i h
    refine key _ ?_
    cases hs : s.ll.sending with
    | true => rfl
    | false =>
      simp only [hs] at h
      by_contra hc
      simp only [Bool.false_or, ne_eq, eq_comm (a := false), Bool.not_eq_false, Bool.and_eq_true,
        decide_eq_true_eq] at hc
      exact h ⟨by simp, hc.1, hc.2⟩

end Sys2Proof.Machine
end

