-- ==== Sys2Proof/WellFormed.lean ====
section
/-! DEFINITION. Which commands are well formed: those that name one event of the part as the spec describes it. A command that is not well
formed still has a meaning (Machine/Dispatch.lean is total). -/

namespace Sys2Proof

/-- A payload of 1 to 250 octets (spec/10_the_line_link.md section 10.3): the fixed octets of the command, its reference
among them, and `rest`. -/
def payloadFits (fixed : Nat) (rest : List Byte) : Bool := decide (rest.length + fixed ≤ 250)

/-- The kind octet names none of the nine downstream kinds (R177). -/
def kindUnknown (kind : Byte) : Bool := decide (kind.toNat = 0 ∨ 9 < kind.toNat)

/-- The table code, the first octet of a TABLE-WRITE after its reference, names none of the five tables, or is absent. -/
def tableUnknown : List Byte → Bool
  | [] => true
  | c :: _ => decide (c.toNat = 0 ∨ 5 < c.toNat)

/-- The caliper readings of an event: one reading at least for each channel (R83). -/
def readingsGiven (p : Pins) : Bool := !p.cal0.isEmpty && !p.cal1.isEmpty

/-- A well-formed command. -/
def Instr.wellFormed : Instr → Bool
  | .powerOnReset p _ _ => readingsGiven p
  | .encoderEdge p _ _ => readingsGiven p
  | .simulatedCount p => readingsGiven p
  | .speedWindowExpiry p => readingsGiven p
  | .read p _ => readingsGiven p
  | .noRead p => readingsGiven p
  | .readerMessageDiscard p => readingsGiven p
  | .readerOctetTimeout p => readingsGiven p
  | .cleared p => readingsGiven p
  | .taken p _ => readingsGiven p
  | .done p _ _ => readingsGiven p
  | .printerMessageDiscard p => readingsGiven p
  | .printerOctetTimeout p => readingsGiven p
  | .linkOctet p _ => readingsGiven p
  | .frameTimeout p => readingsGiven p
  | .heldFrameTaken p => readingsGiven p
  | .unknownKind p k _ rest => readingsGiven p && kindUnknown k && payloadFits 1 rest
  | .copy p _ rest => readingsGiven p && payloadFits 1 rest
  | .resolutionComplete p => readingsGiven p
  | .bundleOpen p _ rest => readingsGiven p && payloadFits 1 rest
  | .lineProfileWrite p _ rest => readingsGiven p && payloadFits 2 rest
  | .stationWrite p _ rest => readingsGiven p && payloadFits 2 rest
  | .curveWrite p _ rest => readingsGiven p && payloadFits 2 rest
  | .outputMapWrite p _ rest => readingsGiven p && payloadFits 2 rest
  | .planWrite p _ rest => readingsGiven p && payloadFits 2 rest
  | .tableWrite p _ rest => readingsGiven p && tableUnknown rest && payloadFits 1 rest
  | .lineProfileRead p _ rest => readingsGiven p && payloadFits 2 rest
  | .stationRead p _ rest => readingsGiven p && payloadFits 2 rest
  | .curveRead p _ rest => readingsGiven p && payloadFits 2 rest
  | .outputMapRead p _ rest => readingsGiven p && payloadFits 2 rest
  | .planRead p _ rest => readingsGiven p && payloadFits 2 rest
  | .statusRead p _ rest => readingsGiven p && payloadFits 1 rest
  | .noticeMask p _ rest => readingsGiven p && payloadFits 1 rest
  | .flagClear p _ rest => readingsGiven p && payloadFits 1 rest
  | .protect p _ rest => readingsGiven p && payloadFits 1 rest
  | .start p _ rest => readingsGiven p && payloadFits 2 rest
  | .hold p _ rest => readingsGiven p && payloadFits 2 rest
  | .resume p _ rest => readingsGiven p && payloadFits 2 rest
  | .runOut p _ rest => readingsGiven p && payloadFits 2 rest
  | .stopNow p _ rest => readingsGiven p && payloadFits 2 rest
  | .clearFault p _ rest => readingsGiven p && payloadFits 2 rest
  | .setOverride p _ rest => readingsGiven p && payloadFits 2 rest
  | .runReset p _ rest => readingsGiven p && payloadFits 2 rest
  | .estopActive p => readingsGiven p && p.estop
  | .lrdyInActive p => readingsGiven p && p.lrdyIn
  | .upstreamFrameSent p => readingsGiven p
  | .printerMessageSent p => readingsGiven p
  | .resetEntry p => readingsGiven p
  | .readerPortOctet p _ => readingsGiven p
  | .printerPortOctet p _ => readingsGiven p

end Sys2Proof
end

