-- ==== Sys2Proof/Laws/PerInstr.lean ====
section
/-! SUPPORT. Per-command laws: for each command of the table, what its well-formedness gives. -/

-- The lemmas of this file are elaborated one after another: side by side, each waits for the others on a thread of its own.
set_option Elab.async false

namespace Sys2Proof.Laws

/-- The pin levels of a command. -/
def pinsOf : Instr → Pins
  | .powerOnReset pins _ _ => pins
  | .encoderEdge pins _ _ => pins
  | .simulatedCount pins => pins
  | .speedWindowExpiry pins => pins
  | .read pins _ => pins
  | .noRead pins => pins
  | .readerMessageDiscard pins => pins
  | .readerOctetTimeout pins => pins
  | .cleared pins => pins
  | .taken pins _ => pins
  | .done pins _ _ => pins
  | .printerMessageDiscard pins => pins
  | .printerOctetTimeout pins => pins
  | .linkOctet pins _ => pins
  | .frameTimeout pins => pins
  | .heldFrameTaken pins => pins
  | .unknownKind pins _ _ _ => pins
  | .copy pins _ _ => pins
  | .resolutionComplete pins => pins
  | .bundleOpen pins _ _ => pins
  | .lineProfileWrite pins _ _ => pins
  | .stationWrite pins _ _ => pins
  | .curveWrite pins _ _ => pins
  | .outputMapWrite pins _ _ => pins
  | .planWrite pins _ _ => pins
  | .tableWrite pins _ _ => pins
  | .lineProfileRead pins _ _ => pins
  | .stationRead pins _ _ => pins
  | .curveRead pins _ _ => pins
  | .outputMapRead pins _ _ => pins
  | .planRead pins _ _ => pins
  | .statusRead pins _ _ => pins
  | .noticeMask pins _ _ => pins
  | .flagClear pins _ _ => pins
  | .protect pins _ _ => pins
  | .start pins _ _ => pins
  | .hold pins _ _ => pins
  | .resume pins _ _ => pins
  | .runOut pins _ _ => pins
  | .stopNow pins _ _ => pins
  | .clearFault pins _ _ => pins
  | .setOverride pins _ _ => pins
  | .runReset pins _ _ => pins
  | .estopActive pins => pins
  | .lrdyInActive pins => pins
  | .upstreamFrameSent pins => pins
  | .printerMessageSent pins => pins
  | .resetEntry pins => pins
  | .readerPortOctet pins _ => pins
  | .printerPortOctet pins _ => pins

/-- The kind and the payload of the line-link frame that a record command stands for (spec/10_the_line_link.md section
10.3). -/
def frameOf : Instr → Option (Byte × List Byte)
  | .powerOnReset _ _ _ => none
  | .encoderEdge _ _ _ => none
  | .simulatedCount _ => none
  | .speedWindowExpiry _ => none
  | .read _ _ => none
  | .noRead _ => none
  | .readerMessageDiscard _ => none
  | .readerOctetTimeout _ => none
  | .cleared _ => none
  | .taken _ _ => none
  | .done _ _ _ => none
  | .printerMessageDiscard _ => none
  | .printerOctetTimeout _ => none
  | .linkOctet _ _ => none
  | .frameTimeout _ => none
  | .heldFrameTaken _ => none
  | .unknownKind _ kind ref rest => some (kind, ref :: rest)
  | .copy _ ref rest => some (0x01, ref :: rest)
  | .resolutionComplete _ => none
  | .bundleOpen _ ref rest => some (0x02, ref :: rest)
  | .lineProfileWrite _ ref rest => some (0x03, ref :: 0x05 :: rest)
  | .stationWrite _ ref rest => some (0x03, ref :: 0x01 :: rest)
  | .curveWrite _ ref rest => some (0x03, ref :: 0x02 :: rest)
  | .outputMapWrite _ ref rest => some (0x03, ref :: 0x04 :: rest)
  | .planWrite _ ref rest => some (0x03, ref :: 0x03 :: rest)
  | .tableWrite _ ref rest => some (0x03, ref :: rest)
  | .lineProfileRead _ ref rest => some (0x04, ref :: 0x05 :: rest)
  | .stationRead _ ref rest => some (0x04, ref :: 0x01 :: rest)
  | .curveRead _ ref rest => some (0x04, ref :: 0x02 :: rest)
  | .outputMapRead _ ref rest => some (0x04, ref :: 0x04 :: rest)
  | .planRead _ ref rest => some (0x04, ref :: 0x03 :: rest)
  | .statusRead _ ref rest => some (0x06, ref :: rest)
  | .noticeMask _ ref rest => some (0x08, ref :: rest)
  | .flagClear _ ref rest => some (0x07, ref :: rest)
  | .protect _ ref rest => some (0x09, ref :: rest)
  | .start _ ref rest => some (0x05, ref :: 0x01 :: rest)
  | .hold _ ref rest => some (0x05, ref :: 0x02 :: rest)
  | .resume _ ref rest => some (0x05, ref :: 0x03 :: rest)
  | .runOut _ ref rest => some (0x05, ref :: 0x04 :: rest)
  | .stopNow _ ref rest => some (0x05, ref :: 0x05 :: rest)
  | .clearFault _ ref rest => some (0x05, ref :: 0x06 :: rest)
  | .setOverride _ ref rest => some (0x05, ref :: 0x07 :: rest)
  | .runReset _ ref rest => some (0x05, ref :: 0x08 :: rest)
  | .estopActive _ => none
  | .lrdyInActive _ => none
  | .upstreamFrameSent _ => none
  | .printerMessageSent _ => none
  | .resetEntry _ => none
  | .readerPortOctet _ _ => none
  | .printerPortOctet _ _ => none

/-- A well-formed command gives a reading for each caliper channel, and the frame it stands for has a payload of 1 to 250
octets. -/
def F.Statement (i : Instr) : Prop :=
  i.wellFormed = true →
    readingsGiven (pinsOf i) = true ∧ ∀ k payload, frameOf i = some (k, payload) → 1 ≤ payload.length ∧ payload.length ≤ 250

theorem F.powerOnReset (pins : Pins) (encA encB : Bool) : F.Statement (.powerOnReset pins encA encB) := by
  intro h; exact ⟨h, fun _ _ hf => by cases hf⟩

theorem F.encoderEdge (pins : Pins) (encA encB : Bool) : F.Statement (.encoderEdge pins encA encB) := by
  intro h; exact ⟨h, fun _ _ hf => by cases hf⟩

theorem F.simulatedCount (pins : Pins) : F.Statement (.simulatedCount pins) := by
  intro h; exact ⟨h, fun _ _ hf => by cases hf⟩

theorem F.speedWindowExpiry (pins : Pins) : F.Statement (.speedWindowExpiry pins) := by
  intro h; exact ⟨h, fun _ _ hf => by cases hf⟩

theorem F.read (pins : Pins) (value : BitVec 16) : F.Statement (.read pins value) := by
  intro h; exact ⟨h, fun _ _ hf => by cases hf⟩

theorem F.noRead (pins : Pins) : F.Statement (.noRead pins) := by
  intro h; exact ⟨h, fun _ _ hf => by cases hf⟩

theorem F.readerMessageDiscard (pins : Pins) : F.Statement (.readerMessageDiscard pins) := by
  intro h; exact ⟨h, fun _ _ hf => by cases hf⟩

theorem F.readerOctetTimeout (pins : Pins) : F.Statement (.readerOctetTimeout pins) := by
  intro h; exact ⟨h, fun _ _ hf => by cases hf⟩

theorem F.cleared (pins : Pins) : F.Statement (.cleared pins) := by
  intro h; exact ⟨h, fun _ _ hf => by cases hf⟩

theorem F.taken (pins : Pins) (tag : Tag) : F.Statement (.taken pins tag) := by
  intro h; exact ⟨h, fun _ _ hf => by cases hf⟩

theorem F.done (pins : Pins) (tag : Tag) (result : PrintResult) : F.Statement (.done pins tag result) := by
  intro h; exact ⟨h, fun _ _ hf => by cases hf⟩

theorem F.printerMessageDiscard (pins : Pins) : F.Statement (.printerMessageDiscard pins) := by
  intro h; exact ⟨h, fun _ _ hf => by cases hf⟩

theorem F.printerOctetTimeout (pins : Pins) : F.Statement (.printerOctetTimeout pins) := by
  intro h; exact ⟨h, fun _ _ hf => by cases hf⟩

theorem F.linkOctet (pins : Pins) (octet : Byte) : F.Statement (.linkOctet pins octet) := by
  intro h; exact ⟨h, fun _ _ hf => by cases hf⟩

theorem F.frameTimeout (pins : Pins) : F.Statement (.frameTimeout pins) := by
  intro h; exact ⟨h, fun _ _ hf => by cases hf⟩

theorem F.heldFrameTaken (pins : Pins) : F.Statement (.heldFrameTaken pins) := by
  intro h; exact ⟨h, fun _ _ hf => by cases hf⟩

theorem F.unknownKind (pins : Pins) (kind ref : Byte) (rest : List Byte) : F.Statement (.unknownKind pins kind ref rest) := by
  intro h
  simp only [Instr.wellFormed, payloadFits, Bool.and_eq_true, decide_eq_true_eq] at h
  refine ⟨h.1.1, ?_⟩
  rintro k payload hf
  simp only [frameOf, Option.some.injEq, Prod.mk.injEq] at hf
  obtain ⟨-, rfl⟩ := hf
  simp only [List.length_cons]
  omega

theorem F.copy (pins : Pins) (ref : Byte) (rest : List Byte) : F.Statement (.copy pins ref rest) := by
  intro h
  simp only [Instr.wellFormed, payloadFits, Bool.and_eq_true, decide_eq_true_eq] at h
  refine ⟨h.1, ?_⟩
  rintro k payload hf
  simp only [frameOf, Option.some.injEq, Prod.mk.injEq] at hf
  obtain ⟨-, rfl⟩ := hf
  simp only [List.length_cons]
  omega

theorem F.resolutionComplete (pins : Pins) : F.Statement (.resolutionComplete pins) := by
  intro h; exact ⟨h, fun _ _ hf => by cases hf⟩

theorem F.bundleOpen (pins : Pins) (ref : Byte) (rest : List Byte) : F.Statement (.bundleOpen pins ref rest) := by
  intro h
  simp only [Instr.wellFormed, payloadFits, Bool.and_eq_true, decide_eq_true_eq] at h
  refine ⟨h.1, ?_⟩
  rintro k payload hf
  simp only [frameOf, Option.some.injEq, Prod.mk.injEq] at hf
  obtain ⟨-, rfl⟩ := hf
  simp only [List.length_cons]
  omega

theorem F.lineProfileWrite (pins : Pins) (ref : Byte) (rest : List Byte) : F.Statement (.lineProfileWrite pins ref rest) := by
  intro h
  simp only [Instr.wellFormed, payloadFits, Bool.and_eq_true, decide_eq_true_eq] at h
  refine ⟨h.1, ?_⟩
  rintro k payload hf
  simp only [frameOf, Option.some.injEq, Prod.mk.injEq] at hf
  obtain ⟨-, rfl⟩ := hf
  simp only [List.length_cons]
  omega

theorem F.stationWrite (pins : Pins) (ref : Byte) (rest : List Byte) : F.Statement (.stationWrite pins ref rest) := by
  intro h
  simp only [Instr.wellFormed, payloadFits, Bool.and_eq_true, decide_eq_true_eq] at h
  refine ⟨h.1, ?_⟩
  rintro k payload hf
  simp only [frameOf, Option.some.injEq, Prod.mk.injEq] at hf
  obtain ⟨-, rfl⟩ := hf
  simp only [List.length_cons]
  omega

theorem F.curveWrite (pins : Pins) (ref : Byte) (rest : List Byte) : F.Statement (.curveWrite pins ref rest) := by
  intro h
  simp only [Instr.wellFormed, payloadFits, Bool.and_eq_true, decide_eq_true_eq] at h
  refine ⟨h.1, ?_⟩
  rintro k payload hf
  simp only [frameOf, Option.some.injEq, Prod.mk.injEq] at hf
  obtain ⟨-, rfl⟩ := hf
  simp only [List.length_cons]
  omega

theorem F.outputMapWrite (pins : Pins) (ref : Byte) (rest : List Byte) : F.Statement (.outputMapWrite pins ref rest) := by
  intro h
  simp only [Instr.wellFormed, payloadFits, Bool.and_eq_true, decide_eq_true_eq] at h
  refine ⟨h.1, ?_⟩
  rintro k payload hf
  simp only [frameOf, Option.some.injEq, Prod.mk.injEq] at hf
  obtain ⟨-, rfl⟩ := hf
  simp only [List.length_cons]
  omega

theorem F.planWrite (pins : Pins) (ref : Byte) (rest : List Byte) : F.Statement (.planWrite pins ref rest) := by
  intro h
  simp only [Instr.wellFormed, payloadFits, Bool.and_eq_true, decide_eq_true_eq] at h
  refine ⟨h.1, ?_⟩
  rintro k payload hf
  simp only [frameOf, Option.some.injEq, Prod.mk.injEq] at hf
  obtain ⟨-, rfl⟩ := hf
  simp only [List.length_cons]
  omega

theorem F.tableWrite (pins : Pins) (ref : Byte) (rest : List Byte) : F.Statement (.tableWrite pins ref rest) := by
  intro h
  simp only [Instr.wellFormed, payloadFits, Bool.and_eq_true, decide_eq_true_eq] at h
  refine ⟨h.1.1, ?_⟩
  rintro k payload hf
  simp only [frameOf, Option.some.injEq, Prod.mk.injEq] at hf
  obtain ⟨-, rfl⟩ := hf
  simp only [List.length_cons]
  omega

theorem F.lineProfileRead (pins : Pins) (ref : Byte) (rest : List Byte) : F.Statement (.lineProfileRead pins ref rest) := by
  intro h
  simp only [Instr.wellFormed, payloadFits, Bool.and_eq_true, decide_eq_true_eq] at h
  refine ⟨h.1, ?_⟩
  rintro k payload hf
  simp only [frameOf, Option.some.injEq, Prod.mk.injEq] at hf
  obtain ⟨-, rfl⟩ := hf
  simp only [List.length_cons]
  omega

theorem F.stationRead (pins : Pins) (ref : Byte) (rest : List Byte) : F.Statement (.stationRead pins ref rest) := by
  intro h
  simp only [Instr.wellFormed, payloadFits, Bool.and_eq_true, decide_eq_true_eq] at h
  refine ⟨h.1, ?_⟩
  rintro k payload hf
  simp only [frameOf, Option.some.injEq, Prod.mk.injEq] at hf
  obtain ⟨-, rfl⟩ := hf
  simp only [List.length_cons]
  omega

theorem F.curveRead (pins : Pins) (ref : Byte) (rest : List Byte) : F.Statement (.curveRead pins ref rest) := by
  intro h
  simp only [Instr.wellFormed, payloadFits, Bool.and_eq_true, decide_eq_true_eq] at h
  refine ⟨h.1, ?_⟩
  rintro k payload hf
  simp only [frameOf, Option.some.injEq, Prod.mk.injEq] at hf
  obtain ⟨-, rfl⟩ := hf
  simp only [List.length_cons]
  omega

theorem F.outputMapRead (pins : Pins) (ref : Byte) (rest : List Byte) : F.Statement (.outputMapRead pins ref rest) := by
  intro h
  simp only [Instr.wellFormed, payloadFits, Bool.and_eq_true, decide_eq_true_eq] at h
  refine ⟨h.1, ?_⟩
  rintro k payload hf
  simp only [frameOf, Option.some.injEq, Prod.mk.injEq] at hf
  obtain ⟨-, rfl⟩ := hf
  simp only [List.length_cons]
  omega

theorem F.planRead (pins : Pins) (ref : Byte) (rest : List Byte) : F.Statement (.planRead pins ref rest) := by
  intro h
  simp only [Instr.wellFormed, payloadFits, Bool.and_eq_true, decide_eq_true_eq] at h
  refine ⟨h.1, ?_⟩
  rintro k payload hf
  simp only [frameOf, Option.some.injEq, Prod.mk.injEq] at hf
  obtain ⟨-, rfl⟩ := hf
  simp only [List.length_cons]
  omega

theorem F.statusRead (pins : Pins) (ref : Byte) (rest : List Byte) : F.Statement (.statusRead pins ref rest) := by
  intro h
  simp only [Instr.wellFormed, payloadFits, Bool.and_eq_true, decide_eq_true_eq] at h
  refine ⟨h.1, ?_⟩
  rintro k payload hf
  simp only [frameOf, Option.some.injEq, Prod.mk.injEq] at hf
  obtain ⟨-, rfl⟩ := hf
  simp only [List.length_cons]
  omega

theorem F.noticeMask (pins : Pins) (ref : Byte) (rest : List Byte) : F.Statement (.noticeMask pins ref rest) := by
  intro h
  simp only [Instr.wellFormed, payloadFits, Bool.and_eq_true, decide_eq_true_eq] at h
  refine ⟨h.1, ?_⟩
  rintro k payload hf
  simp only [frameOf, Option.some.injEq, Prod.mk.injEq] at hf
  obtain ⟨-, rfl⟩ := hf
  simp only [List.length_cons]
  omega

theorem F.flagClear (pins : Pins) (ref : Byte) (rest : List Byte) : F.Statement (.flagClear pins ref rest) := by
  intro h
  simp only [Instr.wellFormed, payloadFits, Bool.and_eq_true, decide_eq_true_eq] at h
  refine ⟨h.1, ?_⟩
  rintro k payload hf
  simp only [frameOf, Option.some.injEq, Prod.mk.injEq] at hf
  obtain ⟨-, rfl⟩ := hf
  simp only [List.length_cons]
  omega

theorem F.protect (pins : Pins) (ref : Byte) (rest : List Byte) : F.Statement (.protect pins ref rest) := by
  intro h
  simp only [Instr.wellFormed, payloadFits, Bool.and_eq_true, decide_eq_true_eq] at h
  refine ⟨h.1, ?_⟩
  rintro k payload hf
  simp only [frameOf, Option.some.injEq, Prod.mk.injEq] at hf
  obtain ⟨-, rfl⟩ := hf
  simp only [List.length_cons]
  omega

theorem F.start (pins : Pins) (ref : Byte) (rest : List Byte) : F.Statement (.start pins ref rest) := by
  intro h
  simp only [Instr.wellFormed, payloadFits, Bool.and_eq_true, decide_eq_true_eq] at h
  refine ⟨h.1, ?_⟩
  rintro k payload hf
  simp only [frameOf, Option.some.injEq, Prod.mk.injEq] at hf
  obtain ⟨-, rfl⟩ := hf
  simp only [List.length_cons]
  omega

theorem F.hold (pins : Pins) (ref : Byte) (rest : List Byte) : F.Statement (.hold pins ref rest) := by
  intro h
  simp only [Instr.wellFormed, payloadFits, Bool.and_eq_true, decide_eq_true_eq] at h
  refine ⟨h.1, ?_⟩
  rintro k payload hf
  simp only [frameOf, Option.some.injEq, Prod.mk.injEq] at hf
  obtain ⟨-, rfl⟩ := hf
  simp only [List.length_cons]
  omega

theorem F.resume (pins : Pins) (ref : Byte) (rest : List Byte) : F.Statement (.resume pins ref rest) := by
  intro h
  simp only [Instr.wellFormed, payloadFits, Bool.and_eq_true, decide_eq_true_eq] at h
  refine ⟨h.1, ?_⟩
  rintro k payload hf
  simp only [frameOf, Option.some.injEq, Prod.mk.injEq] at hf
  obtain ⟨-, rfl⟩ := hf
  simp only [List.length_cons]
  omega

theorem F.runOut (pins : Pins) (ref : Byte) (rest : List Byte) : F.Statement (.runOut pins ref rest) := by
  intro h
  simp only [Instr.wellFormed, payloadFits, Bool.and_eq_true, decide_eq_true_eq] at h
  refine ⟨h.1, ?_⟩
  rintro k payload hf
  simp only [frameOf, Option.some.injEq, Prod.mk.injEq] at hf
  obtain ⟨-, rfl⟩ := hf
  simp only [List.length_cons]
  omega

theorem F.stopNow (pins : Pins) (ref : Byte) (rest : List Byte) : F.Statement (.stopNow pins ref rest) := by
  intro h
  simp only [Instr.wellFormed, payloadFits, Bool.and_eq_true, decide_eq_true_eq] at h
  refine ⟨h.1, ?_⟩
  rintro k payload hf
  simp only [frameOf, Option.some.injEq, Prod.mk.injEq] at hf
  obtain ⟨-, rfl⟩ := hf
  simp only [List.length_cons]
  omega

theorem F.clearFault (pins : Pins) (ref : Byte) (rest : List Byte) : F.Statement (.clearFault pins ref rest) := by
  intro h
  simp only [Instr.wellFormed, payloadFits, Bool.and_eq_true, decide_eq_true_eq] at h
  refine ⟨h.1, ?_⟩
  rintro k payload hf
  simp only [frameOf, Option.some.injEq, Prod.mk.injEq] at hf
  obtain ⟨-, rfl⟩ := hf
  simp only [List.length_cons]
  omega

theorem F.setOverride (pins : Pins) (ref : Byte) (rest : List Byte) : F.Statement (.setOverride pins ref rest) := by
  intro h
  simp only [Instr.wellFormed, payloadFits, Bool.and_eq_true, decide_eq_true_eq] at h
  refine ⟨h.1, ?_⟩
  rintro k payload hf
  simp only [frameOf, Option.some.injEq, Prod.mk.injEq] at hf
  obtain ⟨-, rfl⟩ := hf
  simp only [List.length_cons]
  omega

theorem F.runReset (pins : Pins) (ref : Byte) (rest : List Byte) : F.Statement (.runReset pins ref rest) := by
  intro h
  simp only [Instr.wellFormed, payloadFits, Bool.and_eq_true, decide_eq_true_eq] at h
  refine ⟨h.1, ?_⟩
  rintro k payload hf
  simp only [frameOf, Option.some.injEq, Prod.mk.injEq] at hf
  obtain ⟨-, rfl⟩ := hf
  simp only [List.length_cons]
  omega

theorem F.estopActive (pins : Pins) : F.Statement (.estopActive pins) := by
  intro h
  simp only [Instr.wellFormed, Bool.and_eq_true] at h
  exact ⟨h.1, fun _ _ hf => by cases hf⟩

theorem F.lrdyInActive (pins : Pins) : F.Statement (.lrdyInActive pins) := by
  intro h
  simp only [Instr.wellFormed, Bool.and_eq_true] at h
  exact ⟨h.1, fun _ _ hf => by cases hf⟩

theorem F.upstreamFrameSent (pins : Pins) : F.Statement (.upstreamFrameSent pins) := by
  intro h; exact ⟨h, fun _ _ hf => by cases hf⟩

theorem F.printerMessageSent (pins : Pins) : F.Statement (.printerMessageSent pins) := by
  intro h; exact ⟨h, fun _ _ hf => by cases hf⟩

theorem F.resetEntry (pins : Pins) : F.Statement (.resetEntry pins) := by
  intro h; exact ⟨h, fun _ _ hf => by cases hf⟩

theorem F.readerPortOctet (pins : Pins) (octet : Byte) : F.Statement (.readerPortOctet pins octet) := by
  intro h; exact ⟨h, fun _ _ hf => by cases hf⟩

theorem F.printerPortOctet (pins : Pins) (octet : Byte) : F.Statement (.printerPortOctet pins octet) := by
  intro h; exact ⟨h, fun _ _ hf => by cases hf⟩

end Sys2Proof.Laws
end

