-- ==== Sys2Proof/Tests/Slice0.lean ====
section
/-! SUPPORT. Tests: the spec's worked examples, the refusals of WellFormed, and for each statement with hypotheses a state and operands
that meet them. The expected values are the spec's. -/

namespace Sys2Proof.Tests

open Sys2Proof.Machine

-- The tests are elaborated one after another, not each on a thread of its own.
set_option Elab.async false

/-! ## States and operands -/

/-- Every input inactive, one reading for each caliper channel. -/
def quiet : Pins := { sns := 0, cal0 := [0], cal1 := [0], estop := false, lrdyIn := false }

/-- Every presence sensor and ESTOP and LRDY_IN active. -/
def loud : Pins := { sns := 0xFFFF#16, cal0 := [512, 515], cal1 := [0], estop := true, lrdyIn := true }

/-- The state that a command leaves, if exec answers a next state. -/
def after (c : Instr) (s : State) : Option State :=
  match exec c s with
  | .next t => some t
  | _ => none

/-- The state right after reset with the line in a state. -/
def lineAt (l : LineState) : State := { State.reset with lc := { LineControl.por with line := l } }

/-- The same with the phase at the last of the pitch. -/
def lastPhase (l : LineState) : State := { lineAt l with mu := { MotionUnit.por with phase := 1999 } }

/-- A copy of a sequence and an ordinal, with one text block. -/
def staged (seq : Nat) (ordinal : Word16) (block : Nat) : StagedCopy :=
  { seq := BitVec.ofNat 24 seq, bundleNo := 201, ordinal := ordinal, plan := 1, lineCount := 1, blocks := [block] }

/-- Plan values that call for feeder 1 and for a reader answer. -/
def planned : PlanValues := { inserts := 1, low1 := 480, high1 := 560, low2 := 0, high2 := 1023, verify := true }

/-- A context of that copy with marks. -/
def context (seq : Nat) (ordinal : Word16) (marks : MarkSet) : Context :=
  { copy := staged seq ordinal 7, values := planned, origin := .main, attempts := 0, faulted := 0, marks := marks
    tag := none, verifyResult := none }

/-- A station of a kind at an offset. -/
def entry (k : StationKind) (offset : Nat) : StationEntry := { StationEntry.por with kind := k, offset := offset }

/-- FEED at 0, GATE at 1 and STACK at 2, and one station more. -/
def table (extra : StationEntry) : Vector StationEntry 16 :=
  (((Vector.replicate 16 StationEntry.por).set 0 (entry .feed 0)).set 1 (entry .gate 1)).set 2 (entry .stack 2)
    |>.set 3 extra

/-- A bundle of the table that has received some of its copies. -/
def bundle (ordinal number : Word16) (expected received : Nat) : Bundle :=
  { ordinal := ordinal, number := number, expected := expected, mode := .remake, retryLimit := 2, trayBreak := true
    receiving := decide (received ≠ expected), received := received, delivered := 0, excepted := 0, truncated := false
    digest := 0, complete := false }

/-- A line in a state with those stations, three positions holding the given contents, and one bundle. -/
def working (l : LineState) (extra : StationEntry) (track : List Content) (b : Bundle) : State :=
  { lineAt l with
    fu := { FiringUnit.por with stations := table extra }
    tu := { TrackUnit.por with track := track, gate := some 1 }
    bu := { BundleUnit.por with table := [b], nextOrdinal := 1, receiving := some 0 } }

/-- A copy on position 1, at the gate, and nothing else on the track. -/
def busy : State :=
  { working .running (entry .none 0) [.empty, .copy (context 1001 0 MarkSet.empty), .empty] (bundle 0 201 3 1) with
    pending := [.hold quiet 1 []] }

/-! ## WellFormed refuses -/

theorem test_wellFormed_wants_readings : (Instr.encoderEdge { quiet with cal0 := [] } true false).wellFormed = false ∧
    (Instr.encoderEdge { quiet with cal1 := [] } true false).wellFormed = false := by decide
theorem test_wellFormed_wants_a_payload_that_fits : (Instr.copy quiet 0 (List.replicate 250 0)).wellFormed = false ∧
    (Instr.copy quiet 0 (List.replicate 249 0)).wellFormed = true ∧
    (Instr.stationWrite quiet 0 (List.replicate 249 0)).wellFormed = false := by decide +kernel
theorem test_wellFormed_wants_an_unknown_kind : (Instr.unknownKind quiet 9 0 []).wellFormed = false ∧
    (Instr.unknownKind quiet 10 0 []).wellFormed = true ∧ (Instr.unknownKind quiet 0 0 []).wellFormed = true := by decide
theorem test_wellFormed_wants_an_unknown_table : (Instr.tableWrite quiet 0 [5]).wellFormed = false ∧
    (Instr.tableWrite quiet 0 [6]).wellFormed = true := by decide
theorem test_wellFormed_wants_the_active_input : (Instr.estopActive quiet).wellFormed = false ∧
    (Instr.lrdyInActive quiet).wellFormed = false ∧ (Instr.lrdyInActive loud).wellFormed = true := by decide

/-! ## The spec's worked values -/

/-- R174: over the nine ASCII digits 1 to 9 the register ends at 29B1h. -/
theorem test_crc_of_nine_digits : crc16 [0x31, 0x32, 0x33, 0x34, 0x35, 0x36, 0x37, 0x38, 0x39] = 0x29B1#16 := by
  decide +kernel

/-- Section 12.3: P = 2400, F = 96, the first eight boundaries. -/
theorem test_pitch_lengths_of_12_3 : pitchLengths { p := 2400, f := 96, source := .encoder, rate := 20 } 8 0 =
    [2400, 2400, 2401, 2400, 2400, 2401, 2400, 2401] := by decide

/-- Section 12.4: the curve of the table. -/
def curve124 : Curve :=
  { s1 := 200, s2 := 500, s3 := 900, a0 := 0, a1 := 50, a2 := 200, a3 := 500, k0 := 64, k1 := 128, k2 := 192
    k3 := 128, amin := 8, amax := 1200 }

theorem test_advance_of_12_4 : clampedAdvance curve124 0 = 8 ∧ clampedAdvance curve124 199 = 49 ∧
    clampedAdvance curve124 200 = 50 ∧ clampedAdvance curve124 600 = 275 ∧ clampedAdvance curve124 1000 = 550 ∧
    clampedAdvance curve124 4095 = 1200 := by decide

/-- Section 3.3's example: five lines of 30, 28, 0, 22 and 9 characters fill 94 octets, two blocks. -/
theorem test_block_count : (storedText [List.replicate 30 0x41, List.replicate 28 0x41, [], List.replicate 22 0x41,
    List.replicate 9 0x41]).length = 94 ∧ blocksNeeded 94 = 2 ∧ blocksNeeded 41 = 1 ∧
    lowestFree (useBlocks 0 [2]) 3 = [0, 1, 3] := by decide +kernel

/-- Section 7.6's example: 320 of ordinal 40 stands behind 318 and before 402. -/
theorem test_insertion : (insertContext (context 320 40 MarkSet.empty) [context 311 40 MarkSet.empty,
    context 318 40 MarkSet.empty, context 402 41 MarkSet.empty]).map (fun c => c.copy.seq.toNat) = [311, 318, 320, 402] := by
  decide +kernel

/-- Section 5.3's example: samples at 400, 500, 600 and 700 of window 400 to 800 with m = 2. -/
theorem test_sample_points : (List.range 4).map (samplePoint { entry .caliper 2 with
    windowStart := 400, windowEnd := 800, sampleExp := 2 }) = [400, 500, 600, 700] := by decide

/-- R14 and section 1.2: after power-on reset P is 2000 and a forward edge raises the phase to 1. -/
theorem test_edge_raises_the_phase : (after (.encoderEdge quiet true false) State.reset).map (fun t => t.mu.phase) = some 1 := by
  decide +kernel

/-- R7: a reverse count at phase 0 is absorbed. -/
theorem test_reverse_at_zero_is_absorbed :
    (after (.encoderEdge quiet false true) State.reset).map (fun t => (t.mu.phase, t.mu.reverseAbsorbed)) = some (0, 1) := by
  decide +kernel

/-- Section 3.2's example: from 16,777,214 sequence 1 lies at distance 3, and 8,388,610 from 1 at 8,388,609. -/
theorem test_sequence_distance : ((1 : Seq) - 16777214).toNat = 3 ∧ ((8388610 : Seq) - 1).toNat = 8388609 := by decide

/-- R177: a record of kind 06h gets its reply of 62 data octets behind reference and kind. -/
theorem test_status_is_answered : (after (.statusRead quiet 7 []) State.reset).map (fun t => t.ll.upstream.map (fun r =>
    match r with
    | .reply ref kind .ok detail data => (ref.toNat, kind.toNat, detail.toNat, data.length)
    | _ => (0, 0, 0, 0))) = some [(7, 6, 0, 62)] := by decide +kernel

/-- R166 and R153: CLEAR_FAULT outside FAULTED is refused with STATE. -/
theorem test_clear_fault_is_refused : (after (.clearFault quiet 1 []) State.reset).map (fun t => t.ll.upstream) =
    some [.reply 1 5 .state 3 []] := by decide +kernel

/-- R161: ESTOP faults the line. -/
theorem test_estop_faults : (after (.estopActive loud) (lineAt .running)).map (fun t => t.lc.line) = some .faulted := by
  decide +kernel

/-- R99: the CLEARED of the CLEAR sent at power-on synchronises the port. -/
theorem test_cleared_synchronises : (after (.cleared quiet) State.reset).map (fun t => (t.pp.synchronised, t.pp.clears)) =
    some (true, 0) := by decide +kernel

/-- R134 and R135: the first BUNDLE-OPEN gets ordinal 0. -/
theorem test_bundle_open : (after (.bundleOpen quiet 1 (bundleOctets 201 3 .remake 2 true)) State.reset).map
    (fun t => t.bu.table) = some [bundle 0 201 3 0] := by decide +kernel

/-- R39 to R43: the copy of an open bundle is staged, and the resolver takes it. -/
theorem test_copy_is_staged : (after (.copy quiet 1 (copyOctets 1001 201 1 [[0x41]]))
    { State.reset with bu := { BundleUnit.por with table := [bundle 0 201 3 0], nextOrdinal := 1, receiving := some 0 } }).map
    (fun t => (t.au.staging[0], t.bu.table.map Bundle.received)) =
    some (.resolving { staged 1001 0 0 with lineCount := 1 } false, [1]) := by decide +kernel

/-- R139, section 8.4: the stack event delivers a detected copy; the digest is its sequence's low 16 bits. -/
theorem test_stack_delivers : ((stackEvent 2 { working .running (entry .none 0)
      [.empty, .empty, .copy (context 70000 0 MarkSet.empty)] (bundle 0 201 4 4) with
        cu := { CheckUnit.por with work := CheckUnit.por.work.set 2 { CheckWork.por with detected := true } } }).bu.table.map
    (fun b => (b.delivered, b.digest.toNat))) = [(1, 4464)] := by decide +kernel

/-- R118 to R124: a copy with a fault mark is diverted within its retry limit and enters the make-up queue. -/
theorem test_divert_to_make_up : ((divert (context 1002 0 (MarkSet.empty.add (.insertMiss 1))) 1 6
    (working .running (entry .none 0) [.copy (context 1004 1 MarkSet.empty), .empty, .empty] (bundle 0 201 3 3))).gm.queue.map
    (fun c => (c.copy.seq.toNat, c.attempts, c.faulted))) = [(1002, 1, 1), (1004, 1, 0)] := by decide +kernel

/-- R169: from entry to end of reset a command changes nothing. -/
theorem test_reset_takes_no_command : after (.hold quiet 1 []) { State.reset with inReset := true } =
    some { State.reset with inReset := true } := by decide +kernel

/-- The queue is the model's own: no command is spelled by a word, and a placed command runs. -/
theorem test_step_runs_the_queue : (match step (State.reset.withPending [.hold quiet 1 []]) with
    | .next t => (t.lc.holds.command, t.pending.length)
    | _ => (false, 9)) = (true, 0) := by decide +kernel

/-! ## A state and operands for every statement with hypotheses -/

/-- The state right after reset with the table protection in a state. -/
def protection (enable : BitVec 5) (lock : Bool) : State :=
  { State.reset with ll := { LinkController.por with writeEnable := enable, lock := lock } }

/-- The state right after reset with a receive state and a kind octet. -/
def receiving (r : ReceiveState) (kind : Byte) : State :=
  { State.reset with ll := { LinkController.por with receive := r, buffer := { FrameBuffer.cleared with kind := kind } } }

/-- The same with so many records that a frame waits. -/
def crowded (r : ReceiveState) (n : Nat) : State :=
  { receiving r 0x06 with ll := { (receiving r 0x06).ll with upstream := List.replicate n (.notice .holdLeft 0), sending := true } }

/-- The state right after reset with one staging entry and its place in the arrival order. -/
def staging (e : StagingEntry) : State :=
  { State.reset with au := { AdmissionUnit.por with staging := AdmissionUnit.por.staging.set 0 e, order := [0] } }

/-- The state right after reset with bundle 201 open and its receipt in progress or ended. -/
def opened (received : Nat) : State :=
  { State.reset with bu := { BundleUnit.por with table := [bundle 0 201 3 received], nextOrdinal := 1, receiving := some 0 } }

/-- The state right after reset with a printer port of one job. -/
def printing (sync taken triggered : Bool) : State :=
  { State.reset with pp := { PrinterPort.por with
      synchronised := sync, clears := if sync then 0 else 1, transmit := [], nextTag := 1
      jobs := [{ tag := 0, lead := 1, dispatch := 0, taken := taken, triggered := triggered }] } }

theorem test_witness_StepRunsTheFrontCommand : busy.pending = .hold quiet 1 [] :: [] ∧ State.reset.pending = [] := by decide

theorem test_witness_PowerOnResetSetsEveryUnit : quiet.estop = false ∧ loud.estop = true := by decide

theorem test_witness_ResetTakesNoEvent : ({ State.reset with inReset := true } : State).inReset = true ∧
    (∀ p a b, Instr.hold quiet 1 [] ≠ .powerOnReset p a b) ∧ (∀ p, Instr.hold quiet 1 [] ≠ .resetEntry p) := by
  refine ⟨rfl, ?_, ?_⟩ <;> intros <;> exact fun h => by cases h

theorem test_witness_invariants : (busy.Settled ∧ busy.MotionSound ∧ busy.PoolSound) ∧ (busy.FaultsSound ∧ busy.OutputsSound) ∧
    (busy.PrinterSound ∧ busy.StagingSound) ∧ busy.CountersSound ∧ busy.CapacitySound ∧ busy.BalanceSound := by
  refine ⟨⟨?_, ?_, ?_⟩, ⟨?_, ?_⟩, ⟨?_, ?_⟩, ?_, ?_, ?_, ?_, ?_, ?_⟩
  case refine_12 =>
    have h : busy.inFlight = [0] := by decide +kernel
    rw [h]
    simp only [List.mem_singleton, forall_eq]
    decide +kernel
  all_goals decide +kernel

/-- The same with a GHOST before the gate. -/
def haunted : State := { busy with tu := { busy.tu with track := [.ghost none, .copy (context 1001 0 MarkSet.empty), .empty] } }

theorem test_witness_GhostsSound : haunted.GhostsSound := by
  intro pos h
  have hp : pos = 0 := by
    match pos with
    | 0 => rfl
    | 1 => exact absurd h (by decide)
    | 2 => exact absurd h (by decide)
    | n + 3 => exact absurd h (by simp [haunted, State.contentAt, Content.isGhost])
  exact ⟨1, rfl, by omega, by omega⟩

theorem test_witness_every_step : (match step busy with | .next _ => true | _ => false) = true ∧
    (match step haunted with | .next _ => true | _ => false) = true := by decide +kernel

/-- A line held by one cause. -/
def held (h : HoldSet) : State := { lineAt .holding with lc := { (lineAt .holding).lc with holds := h } }

theorem test_witness_HoldsSound : busy.HoldsSound ∧ (held (HoldSet.empty.add .command)).HoldsSound ∧
    ¬ (held HoldSet.empty).HoldsSound := by decide +kernel

/-- Two copies that wait ARRIVED behind a resolution in entry 5, the older in entry 2. -/
def waiting : State :=
  { State.reset with au := { AdmissionUnit.por with
      staging := ((AdmissionUnit.por.staging.set 5 (.resolving (staged 1 0 0) false)).set 2 (.arrived (staged 2 0 1))).set 0
        (.arrived (staged 3 0 2))
      order := [5, 2, 0], resolver := some { entry := 5, read := PlanEntry.por } } }

/-- The completion takes the older of the two, with the plan entry of its code. -/
theorem test_witness_ResolverSound : waiting.StagingSound ∧ waiting.ResolverSound ∧
    (after (.resolutionComplete quiet) waiting).map (fun t => t.au.resolver) =
      some (some { entry := 2, read := AdmissionUnit.por.plans[1] }) := by decide +kernel

/-- Contexts of two bundles along the combined order: on the track, in the make-up queue and in staging. -/
def inOrder : State :=
  { busy with
    gm := { GateUnit.por with queue := [context 1002 0 MarkSet.empty, context 1003 1 MarkSet.empty] }
    au := { AdmissionUnit.por with staging := AdmissionUnit.por.staging.set 5 (.arrived (staged 1004 1 8)), order := [5] }
    bu := { BundleUnit.por with
      table := [bundle 0 201 2 2, bundle 1 202 3 2], nextOrdinal := 2, receiving := some 1 } }

theorem test_witness_OrderSound : inOrder.orderedOrdinals = [0, 0, 1, 1] ∧ inOrder.OrderSound := by
  refine ⟨by decide +kernel, ⟨by decide +kernel, by decide +kernel, ?_, by decide +kernel⟩, by decide +kernel, by decide +kernel,
    by decide +kernel, by decide +kernel⟩
  have h : inOrder.inFlight = [1, 0, 0, 1] := by decide +kernel
  simp only [h, List.mem_cons, List.not_mem_nil, or_false, forall_eq_or_imp, forall_eq]
  decide +kernel

theorem test_witness_TableEntriesDecodeToThemselves : StationEntry.por.Sound ∧ curve124.Sound ∧ PlanEntry.por.Sound ∧
    MotionUnit.por.profile.Sound ∧
    { StationEntry.por with offset := 63, phi := 8190, pulseLength := 4095, windowEnd := 8190, minDetect := 255
                            faultLimit := 15, feeder := 8, printLead := 8, sampleExp := 4, zmax := 1023
                            driftLimit := 15, jamLength := 65535 : StationEntry }.Sound ∧
    { p := 8191, f := 255, source := .simulated, rate := 255 : LineProfile }.Sound := by decide

theorem test_witness_FrameOctetsAreTakenWhole : State.reset.ll.receive = .search ∧ State.reset.hasRoom = true ∧
    1 ≤ [(7 : Byte)].length ∧ (List.replicate 250 (7 : Byte)).length ≤ 250 := by decide +kernel

/-- Between frames, with no entry RECEIVING, and outside reset. -/
theorem test_witness_FrameOctetsAreTakenWhole_by_a_command : State.reset.receivingEntry = none ∧ State.reset.inReset = false ∧
    (frameOctets 0x05 [7, 0x02]).foldl (fun s o => receiveOctet o s) State.reset =
      arriveFrame 0x05 [7, 0x02] (setBuffer (fun _ => bufferOf 0x05 [7, 0x02]) State.reset) := by decide +kernel

theorem test_witness_StoredTextReadsBack : Memory.wf [(3, 9)] = true ∧ linesSound [[0x41], List.replicate 40 0x42] ∧
    [5, 0].Nodup ∧ (storedText [[0x41], List.replicate 40 0x42]).length ≤ blockSize * [5, 0].length := by decide +kernel

theorem test_witness_EncoderCountsMoveThePhase : State.reset.Open ∧ State.reset.mu.profile.source = .encoder ∧
    (State.reset.mu.encA, State.reset.mu.encB, true, false) ∈ forwardEdges ∧ State.reset.mu.phase + 1 < State.reset.mu.len ∧
    (lastPhase .running).Open ∧ (lastPhase .running).mu.profile.source = .encoder ∧
    ((lastPhase .running).mu.encA, (lastPhase .running).mu.encB, true, false) ∈ forwardEdges ∧
    (lastPhase .running).mu.len ≤ (lastPhase .running).mu.phase + 1 ∧
    (State.reset.mu.encA, State.reset.mu.encB, false, true) ∈ reverseEdges := by decide

/-- A count and a window's end while a frame is held. -/
theorem test_witness_SpeedWindowCountsAndSetsTheSpeed : (crowded .held 177).inReset = false ∧
    (crowded .held 177).mu.profile.source = .encoder ∧
    ((crowded .held 177).mu.encA, (crowded .held 177).mu.encB, true, false) ∈ forwardEdges ∧
    ((crowded .held 177).mu.encA, (crowded .held 177).mu.encB, true, true) ∈ illegalEdges ∧
    ((crowded .held 177).mu.encA, (crowded .held 177).mu.encB, false, true) ∈ reverseEdges ∧
    (crowded .held 177).mu.phase + 1 < (crowded .held 177).mu.len := by decide +kernel

/-- At the last phase with a station on a pending curve. -/
def curved : State := { lastPhase .running with fu := { FiringUnit.por with
  stations := table { entry .seal 1 with phi := 1500, curve := some 0 }
  curves := FiringUnit.por.curves.set 0 { active := Curve.por, shadow := curve124, pending := true } } }

theorem test_witness_BoundaryComputesTheFirePoints : curved.Open ∧ curved.mu.profile.source = .encoder ∧
    (curved.mu.encA, curved.mu.encB, true, false) ∈ forwardEdges ∧ curved.mu.len ≤ curved.mu.phase + 1 ∧
    (curved.station 0).kind.fires = true ∧ (curved.station 0).curve = none ∧ (curved.station 3).kind.fires = true ∧
    (curved.station 3).curve = some 0 := by decide +kernel

theorem test_witness_IllegalTransitionFaultsTheLine :
    (State.reset.mu.encA, State.reset.mu.encB, true, true) ∈ illegalEdges ∧ State.reset.Open := by decide

theorem test_witness_SimulatedCountCounts : ∃ s : State, s.Open ∧ s.firing = true ∧ s.mu.sim = .generating 1 0 :=
  ⟨{ lineAt .running with mu := { MotionUnit.por with sim := .generating 1 0 } }, by decide⟩

theorem test_witness_calm : State.reset.Calm ∧ (lineAt .running).Calm ∧ (lineAt .faulted).Calm := by decide

theorem test_witness_PitchLengthsAverageExactly : (255 : Nat) ≤ 255 ∧
    (pitchLengths { p := 2400, f := 96, source := .encoder, rate := 1 } 8 0)[2]? = some (2400 + 1) ∧
    (pitchLengths { p := 2400, f := 96, source := .encoder, rate := 1 } 8 0)[5]? = some (2400 + 1) ∧
    (∀ k, 2 < k → k < 5 → (pitchLengths { p := 2400, f := 96, source := .encoder, rate := 1 } 8 0)[k]? = some 2400) := by
  refine ⟨by decide, by decide, by decide, fun k h1 h2 => ?_⟩
  have : k = 3 ∨ k = 4 := by omega
  rcases this with rfl | rfl <;> decide

theorem test_witness_ActionStationsTakeTheirFirePoint : State.reset.firing = false ∧ busy.firing = true ∧
    (busy.station 0).kind = .feed ∧ (busy.contentAt (busy.station 0).offset).isCopy = false ∧
    (working .running (entry .seal 0) [] (bundle 0 1 1 0)).firing = true ∧
    ((working .running (entry .seal 0) [] (bundle 0 1 1 0)).station 3).kind = .seal ∧
    ((working .running (entry .insert 1) busy.tu.track (bundle 0 1 1 0)).station 3).kind = .insert ∧
    (working .running (entry .insert 1) busy.tu.track (bundle 0 1 1 0)).contentAt 1 = .copy (context 1001 0 MarkSet.empty) ∧
    planned.callsFor 1 = true := by decide +kernel

/-- At phase 0 of a line state, with a SEAL station whose fire point or pulse end is phase 1. -/
def firing (l : LineState) (fired : Bool) : State :=
  { working l (entry .seal 1) busy.tu.track (bundle 0 1 1 0) with
    mu := { MotionUnit.por with sim := if l = LineState.running then .generating 1 0 else .stopped } } |>
    (fun s => { s with fu := { s.fu with
      work := (Vector.replicate 16 FireWork.por).set 3 { FireWork.por with fired := fired, e := 1, pulse := fired, pulseEnd := 1 }
      bundleKick := true, trayKick := true, kickEnd := 1 } })

theorem test_witness_ActionStationsTakeTheirFirePoint_at_a_count : (firing .running false).Open ∧
    (firing .running false).mu.sim ≠ .stopped ∧ (firing .stopped false).mu.profile.source = .encoder ∧
    ((firing .stopped false).mu.encA, (firing .stopped false).mu.encB, true, false) ∈ forwardEdges ∧
    ((firing .stopped false).mu.encA, (firing .stopped false).mu.encB, false, true) ∈ reverseEdges ∧
    (firing .running false).mu.phase + 1 < (firing .running false).mu.len ∧
    ((firing .running false).fireWork 3).fired = false ∧ ((firing .running false).station 3).kind.fires = true ∧
    ((firing .running false).fireWork 3).e = (firing .running false).mu.phase + 1 ∧
    ((firing .running true).fireWork 3).fired = true ∧
    ((firing .running true).fireWork 3).pulseEnd = (firing .running true).mu.phase + 1 ∧
    (firing .stopped false).firing = false ∧ (firing .stopped false).contentAt 1 = .copy (context 1001 0 MarkSet.empty) ∧
    (lastPhase .running).mu.len ≤ (lastPhase .running).mu.phase + 1 := by decide +kernel

theorem test_witness_ActionStationsTakeTheirFirePoint_shows :
    (after (.encoderEdge quiet true false) (firing .running false)).map (fun t => (t.fireWork 3).fired) = some true ∧
    (after (.encoderEdge quiet true false) (firing .running true)).map (fun t => (t.fireWork 3).pulse) = some false := by
  decide +kernel

theorem test_witness_writes : State.reset.Calm ∧ (entry .seal 63).Sound ∧ (entry .caliper 2).Sound ∧ State.reset.lc.line = .stopped ∧
    State.reset.ll.lock = false ∧ State.reset.ll.writeEnable.getLsbD 0 = true ∧ State.reset.ll.writeEnable.getLsbD 1 = true ∧
    State.reset.ll.writeEnable.getLsbD 2 = true ∧ State.reset.ll.writeEnable.getLsbD 3 = true ∧
    State.reset.ll.writeEnable.getLsbD 4 = true ∧ (lineAt .running).lc.line ≠ .stopped ∧ (lineAt .running).ll.lock = false ∧
    (entry .seal 63).kind.fires = true ∧ (entry .caliper 2).kind.fires = false ∧ (State.reset.fireWork 3).fired = false := by
  decide +kernel

/-- A SEAL entry written at a copy's position behind the phase, and one already fired. -/
theorem test_witness_StationWriteSetsTheEntry_skips : ∀ s : State, s = (firing .stopped false) →
    s.Calm ∧ s.lc.line = .stopped ∧ (entry .seal 1).kind.fires = true ∧ (s.fireWork 0).fired = false ∧
    (entry .seal 1).phi - min (entry .seal 1).phi (s.advance (entry .seal 1)) ≤ s.mu.phase ∧
    s.contentAt (entry .seal 1).offset = .copy (context 1001 0 MarkSet.empty) ∧
    ((firing .stopped true).fireWork 3).fired = true := by
  rintro s rfl
  decide +kernel

/-- A STOPPED curve write that reaches a SEAL station at a copy's position. -/
theorem test_witness_CurveWriteByLineState_skips : ∀ s : State,
    s = { firing .stopped false with fu := { (firing .stopped false).fu with
      stations := (table (entry .seal 1)).map (fun e => { e with curve := some 3 })
      work := Vector.replicate 16 FireWork.por } } →
    s.Calm ∧ (s.station 3).kind = .seal ∧ (s.station 3).curve = some 3 ∧ (s.fireWork 3).fired = false ∧
    (s.station 3).phi - min (s.station 3).phi (clampedAdvance s.fu.curves[3].active s.fu.latchedSpeed) ≤ s.mu.phase ∧
    s.contentAt (s.station 3).offset = .copy (context 1001 0 MarkSet.empty) := by
  rintro s rfl
  decide +kernel

theorem test_witness_StoppedTablesAreWritten : ∀ source : OutputSource, ∃ s : State, s.inReset = false ∧
    s.fu.outputs[23].source = source ∧ s.fu.outputs[23].inverted = true :=
  fun source => ⟨{ State.reset with fu := { FiringUnit.por with
    outputs := FiringUnit.por.outputs.set 23 { source := source, inverted := true } } }, rfl, rfl, rfl⟩

theorem test_witness_PlanWriteSendsCopiesBack :
    (staging (.resolved (staged 1 0 0) planned)).au.staging[0] = .resolved (staged 1 0 0) planned ∧ (staged 1 0 0).plan = 1 ∧
    (staged 1 0 0).plan ≠ 2 ∧ (staging (.resolving (staged 1 0 0) false)).au.staging[0] = .resolving (staged 1 0 0) false ∧
    (staging (.resolving (staged 1 0 0) false)).Calm ∧
    (staging (.arrived (staged 1 0 0))).au.staging[0] = .arrived (staged 1 0 0) ∧
    (staging .receiving).au.staging[0] = .receiving ∧ (staging .receiving).au.staging[15] = .free ∧
    (staging (.arrived (staged 1 0 0))).au.resolver = none := by decide +kernel

/-- An idle resolver that finds a RESOLVED copy of the code written, and a busy one. -/
theorem test_witness_PlanWriteSendsCopiesBack_starts :
    (staging (.resolved (staged 1 0 0) planned)).au.resolver = none ∧ waiting.au.resolver ≠ none ∧
    oldestArrived [0] (AdmissionUnit.por.staging.set 0 (.arrived (staged 1 0 0))) 0 (staged 1 0 0) ∧
    (∀ j ∈ State.reset.au.order, AdmissionUnit.por.staging[j].isArrived = false) := by
  refine ⟨by decide +kernel, by decide, ⟨by decide +kernel, [], [], rfl, ?_⟩, by decide⟩
  rintro j ⟨⟩

theorem test_witness_TableReadsReturnTheEntry : 16 ≤ (16 : Byte).toNat ∧ 4 ≤ (4 : Byte).toNat ∧ 64 ≤ (64 : Byte).toNat ∧
    24 ≤ (24 : Byte).toNat ∧ 1 ≤ (1 : Byte).toNat := by decide

theorem test_witness_TableWritesMeetTheProtection : (protection 0x1F#5 false).Calm ∧ (protection 0x00#5 true).Calm ∧
    ((0 : Byte).toNat = 0 ∨ 5 < (0 : Byte).toNat) ∧ ((6 : Byte).toNat = 0 ∨ 5 < (6 : Byte).toNat) ∧
    (∀ tb ∈ [Table.station, .curve, .plan, .outputMap, .lineProfile],
      ([] : List Byte).length + 2 ≠ tableWriteLength tb ∧
      (List.replicate (tableWriteLength tb - 2) (255 : Byte)).length + 2 = tableWriteLength tb ∧
      (protection 0x00#5 false).ll.writeEnable.getLsbD (tableCode tb - 1) = false ∧
      (lineAt .running).ll.writeEnable.getLsbD (tableCode tb - 1) = true ∧
      tableSize tb ≤ octetAt (List.replicate (tableWriteLength tb - 2) (255 : Byte)) 0) ∧
    (protection 0x00#5 true).ll.lock = true ∧ (protection 0x00#5 false).ll.lock = false ∧
    (lineAt .running).Calm ∧ (lineAt .running).ll.lock = false ∧ (lineAt .running).lc.line ≠ .stopped ∧
    (protection 0x1F#5 false).lc.line = .stopped := by decide +kernel

theorem test_witness_CopyIsAccepted : (opened 2).Calm ∧ linesSound [List.replicate 40 0x41] ∧
    (copyOctets 8388608 201 1 [List.replicate 40 0x41]).length ≤ 249 ∧ (opened 2).receivingBundle = some (bundle 0 201 3 2) ∧
    (bundle 0 201 3 2).receiving = true ∧ (opened 2).au.lastSeq = none ∧ (opened 2).receivingEntry = none ∧
    (opened 2).freeStaging = some 0 ∧ ((8388608 : Seq) - 0).toNat ≤ 8388608 ∧ 1 ≤ ((8388608 : Seq) - 0).toNat := by
  decide +kernel

/-- The last octet of a COPY frame of bundle 201 waits, with its entry reserved or not, behind the last accepted copy 8. -/
def lastOctet (payload : List Byte) (reserved : Bool) : State :=
  { opened 2 with
    ll := { LinkController.por with receive := .crcLow, buffer := bufferOf 0x01 payload }
    au := if reserved then { (staging .receiving).au with lastSeq := some 8 } else { AdmissionUnit.por with lastSeq := some 8 } }

theorem test_witness_CopyIsAccepted_at_its_last_octet :
    (lastOctet (7 :: copyOctets 9 201 1 [[0x41]]) true).inReset = false ∧
    (lastOctet (7 :: copyOctets 9 201 1 [[0x41]]) true).ll.upstream.length ≤ 32 ∧
    (lastOctet (7 :: copyOctets 9 201 1 [[0x41]]) true).ll.buffer.payload = 7 :: copyOctets 9 201 1 [[0x41]] ∧
    (lastOctet (7 :: copyOctets 9 201 1 [[0x41]]) true).ll.buffer.crc =
      (bufferOf 0x01 (7 :: copyOctets 9 201 1 [[0x41]])).crcHigh ++ (bufferOf 0x01 (7 :: copyOctets 9 201 1 [[0x41]])).crcLow ∧
    (lastOctet (7 :: copyOctets 9 201 1 [[0x41]]) true).receivingEntry = some 0 ∧
    (lastOctet (7 :: copyOctets 9 201 1 [[0x41]]) false).receivingEntry = none ∧
    (lastOctet (7 :: copyOctets 9 201 1 [[0x41]]) false).freeStaging = some 0 ∧ ((9 : Seq) - 8).toNat = 1 ∧
    1 < ((12 : Seq) - 8).toNat ∧ ((12 : Seq) - 8).toNat ≤ 8388608 ∧
    0 < [(0x0A : Byte)].countP (fun ch => decide (ch.toNat < 0x20 ∨ 0x7E < ch.toNat)) ∧
    [(0x20 : Byte), 0x7E].countP (fun ch => decide (ch.toNat < 0x20 ∨ 0x7E < ch.toNat)) = 0 := by decide +kernel

/-- The accepted copy is the oldest ARRIVED one of an idle resolver. -/
theorem test_witness_CopyIsAccepted_starts : (opened 2).au.resolver = none ∧ waiting.au.resolver ≠ none ∧
    oldestArrived [0] ((opened 2).au.staging.set 0 (.arrived (staged 9 0 0))) 0 (staged 9 0 0) := by
  refine ⟨by decide +kernel, by decide, by decide +kernel, [], [], rfl, ?_⟩
  rintro j ⟨⟩

/-- The example of R41: after 16,777,214 the sequence 1 reports 16,777,215 as the first missing and 2 skipped. -/
theorem test_sequence_gap : (noticeGap (some 16777214) 1 State.reset).ll.upstream = [.notice (.sequenceGap 16777215 2) 0] := by
  decide +kernel

/-- Staging with no FREE entry. -/
def full : State :=
  { opened 2 with au := { AdmissionUnit.por with staging := Vector.replicate 16 (.arrived (staged 1 0 0)) } }

theorem test_witness_CopyIsRefused : full.Calm ∧ full.receivingEntry = none ∧ full.copyArriving = false ∧
    full.freeStaging = none ∧ copyRefusal (1 :: copyOctets 5 201 1 [[]]) full = none ∧
    copyRefusal [1] full = some (.refusal .format 0x03) ∧ State.reset.receivingEntry = none ∧
    State.reset.copyArriving = false ∧ copyRefusal [1] State.reset = some (.refusal .format 0x03) ∧
    State.reset.freeStaging = some 0 ∧ (0 : Fin 16) ∉ State.reset.au.order := by decide +kernel

/-- The text of one line of two characters, the octets of a COPY payload that the checks read, and states that fail each. -/
theorem test_witness_CopyIsRefused_by_each_check : [(1 : Byte), 2, 3].length < 8 ∧ (0 : Byte).toNat = 0 ∧ 6 < (7 : Byte).toNat ∧
    (∃ l ∈ [(41 : Byte)], 40 < l.toNat) ∧ [(41 : Byte)].length = (1 : Byte).toNat ∧ ([] : List Byte).length < (1 : Byte).toNat ∧
    ([(2 : Byte)].map BitVec.toNat).sum ≠ [(0x41 : Byte)].length ∧ (∀ l ∈ [(2 : Byte)], l.toNat ≤ 40) ∧
    ([(2 : Byte)].map BitVec.toNat).sum = [(0x41 : Byte), 0x42].length ∧ 64 ≤ (64 : Byte).toNat ∧ (63 : Byte).toNat ≤ 63 ∧
    ((5 : Seq) - 5).toNat = 0 ∧ 8388608 < ((5 : Seq) - 6).toNat ∧ State.reset.receivingBundle = none ∧
    (opened 2).receivingBundle = some (bundle 0 201 3 2) ∧ (bundle 0 201 3 2).number ≠ 202 ∧
    (opened 3).receivingBundle = some (bundle 0 201 3 3) ∧ (bundle 0 201 3 3).receiving = false ∧
    (bundle 0 201 3 2).receiving = true := by decide +kernel

/-- A refused COPY at the last octet of its frame with its entry reserved and without, one that finds staging full, and a
COPY command inside a COPY frame. -/
theorem test_witness_CopyIsRefused_at_its_last_octet :
    (lastOctet [7] true).ll.receive = .crcLow ∧ (lastOctet [7] true).ll.buffer.kind = 0x01 ∧
    (lastOctet [7] true).ll.buffer.crc = (lastOctet [7] true).ll.buffer.crcHigh ++ (bufferOf 0x01 [7]).crcLow ∧
    copyRefusal [7] (lastOctet [7] true) = some (.refusal .format 0x03) ∧ (lastOctet [7] true).receivingEntry = some 0 ∧
    copyRefusal [7] (lastOctet [7] false) = some (.refusal .format 0x03) ∧ (lastOctet [7] false).receivingEntry = none ∧
    copyRefusal (7 :: copyOctets 5 201 1 [[]])
      { full with ll := (lastOctet (7 :: copyOctets 5 201 1 [[]]) false).ll } = none ∧
    ({ full with ll := (lastOctet (7 :: copyOctets 5 201 1 [[]]) false).ll } : State).freeStaging = none ∧
    ({ full with ll := (lastOctet (7 :: copyOctets 5 201 1 [[]]) false).ll } : State).receivingEntry = none ∧
    ({ staging .receiving with ll := (receiving .payload 1).ll } : State).copyArriving = true := by decide +kernel

/-- A resolution in progress in entry 0. -/
def resolving (again : Bool) (e : PlanEntry) : State :=
  { staging (.resolving (staged 1 0 0) again) with
    au := { (staging (.resolving (staged 1 0 0) again)).au with resolver := some { entry := 0, read := e } } }

theorem test_witness_ResolutionCompletes : (resolving true PlanEntry.por).Calm ∧
    (resolving true PlanEntry.por).au.resolver = some { entry := 0, read := PlanEntry.por } ∧
    (resolving true PlanEntry.por).au.staging[0] = .resolving (staged 1 0 0) true ∧
    (resolving false PlanEntry.por).au.staging[0] = .resolving (staged 1 0 0) false ∧ PlanEntry.por.valid = false ∧
    (resolving false { PlanEntry.por with valid := true }).Calm ∧ ({ PlanEntry.por with valid := true } : PlanEntry).valid = true := by
  decide +kernel

/-- What waits behind the resolution, and what does not. -/
theorem test_witness_ResolutionCompletes_looks_again :
    oldestArrived waiting.au.order (waiting.au.staging.set 5 (.resolved (staged 1 0 0) planned)) 2 (staged 2 0 1) ∧
    (∀ j ∈ (resolving false PlanEntry.por).au.order,
      ((resolving false PlanEntry.por).au.staging.set 0 StagingEntry.free)[j].isArrived = false) := by
  refine ⟨⟨by decide +kernel, [5], [0], by decide, by decide +kernel⟩, by decide +kernel⟩

theorem test_witness_ResolutionCompletes_counts_excepted :
    ({ resolving false PlanEntry.por with bu := (opened 3).bu } : State).bundle (staged 1 0 0).ordinal = some (bundle 0 201 3 3) ∧
    (bundle 0 201 3 3).receiving = false ∧ (bundle 0 201 3 3).complete = false ∧
    (bundle 0 201 3 3).delivered + (bundle 0 201 3 3).excepted + 1 ≠ (bundle 0 201 3 3).expected ∧
    ({ resolving false PlanEntry.por with bu := { (opened 3).bu with table := [bundle 0 201 1 1] } } : State).bundle (staged 1 0 0).ordinal = some (bundle 0 201 1 1) ∧
    (bundle 0 201 1 1).receiving = false ∧
    (bundle 0 201 1 1).delivered + (bundle 0 201 1 1).excepted + 1 = (bundle 0 201 1 1).expected := by decide +kernel

theorem test_witness_BundleOpenMakesTheBundle : (opened 3).Calm ∧ 1 ≤ 999 ∧ 999 ≤ 999 ∧ 7 ≤ 7 ∧ (opened 3).bu.table.length < 8 ∧
    (opened 3).bundleNamed 202 = none ∧ (∀ b ∈ (opened 3).bu.table, b.receiving = false) := by decide +kernel

theorem test_witness_BundleOpenMakesTheBundle_truncates : (opened 2).Calm ∧ (opened 2).BundlesSound ∧
    (opened 2).receivingBundle = some (bundle 0 201 3 2) ∧ (bundle 0 201 3 2).receiving = true ∧
    (bundle 0 201 3 2).delivered + (bundle 0 201 3 2).excepted ≠ (bundle 0 201 3 2).received ∧ (opened 0).BundlesSound ∧
    (opened 0).receivingBundle = some (bundle 0 201 3 0) ∧ (opened 0).bu.table = [bundle 0 201 3 0] ∧
    (bundle 0 201 3 0).delivered + (bundle 0 201 3 0).excepted = (bundle 0 201 3 0).received := by decide +kernel

theorem test_witness_BundleOpenMakesTheBundle_refuses : ([] : List Byte).length ≠ 7 ∧ (0#16).toNat = 0 ∧ 999 < (1000#16).toNat ∧
    1 ≤ (999#16).toNat ∧ (999#16).toNat ≤ 999 ∧ 1 < (2 : Byte).toNat ∧ 7 < (8 : Byte).toNat ∧ (7 : Byte).toNat ≤ 7 ∧
    (1 : Byte).toNat ≤ 1 ∧ (opened 2).bundleNamed 201 = some (bundle 0 201 3 2) ∧
    ({ opened 2 with bu := { (opened 2).bu with table := List.replicate 8 (bundle 0 201 3 3) } } : State).bundleNamed 202 = none ∧
    8 ≤ (List.replicate 8 (bundle 0 201 3 3)).length := by decide +kernel

theorem test_witness_TheTrackShiftsAndReleases : 1 ≤ busy.trackLen ∧ busy.gm.queue = [] ∧ busy.au.order.head? = none ∧
    (staging (.resolved (staged 1 0 0) planned)).gm.queue = [] ∧
    (staging (.resolved (staged 1 0 0) planned)).au.order.head? = some 0 ∧
    ({ busy with gm := { busy.gm with queue := [context 9 0 MarkSet.empty] } } : State).gm.queue =
      context 9 0 MarkSet.empty :: [] ∧ LineState.holding ≠ .running := by decide +kernel

/-- The last count of a pitch in a line state, with a track, and fire points inside the pitch. -/
def ending (l : LineState) (track : List Content) (decided : Bool) : State :=
  { working l (entry .none 0) track (bundle 0 201 3 1) with
    mu := { MotionUnit.por with phase := 1999 }
    fu := { FiringUnit.por with stations := (table (entry .none 0)).map (fun e => { e with phi := 10 }) }
    gm := { GateUnit.por with decided := decided } }

theorem test_witness_TheTrackShiftsAndReleases_at_the_boundary : (ending .holding busy.tu.track false).Open ∧
    (ending .holding busy.tu.track false).mu.profile.source = .encoder ∧
    ((ending .holding busy.tu.track false).mu.encA, (ending .holding busy.tu.track false).mu.encB, true, false) ∈ forwardEdges ∧
    (ending .holding busy.tu.track false).mu.len ≤ (ending .holding busy.tu.track false).mu.phase + 1 ∧
    1 ≤ (ending .holding busy.tu.track false).trackLen ∧
    (∀ i, ((ending .holding busy.tu.track false).station i).kind = .gate ∨
      ((ending .holding busy.tu.track false).station i).kind = .stack →
      0 < ((ending .holding busy.tu.track false).station i).phi ∧
      ((ending .holding busy.tu.track false).station i).curve = none) ∧
    (ending .holding busy.tu.track false).gm.decided = false ∧ (ending .holding busy.tu.track false).tu.gate = some 1 ∧
    1 + 1 < (ending .holding busy.tu.track false).trackLen ∧ (ending .holding busy.tu.track false).lc.line ≠ .running ∧
    (ending .holding busy.tu.track false).contentAt 1 = .copy (context 1001 0 MarkSet.empty) ∧
    (∀ d ∈ (ending .holding busy.tu.track false).bu.table,
      (context 1001 0 MarkSet.empty).faulted + 1 ≤ d.retryLimit ∧ d.mode = .remake) := by decide +kernel

/-- A GATE and a STACK whose curve waits in its shadow with an advance one below their fire phase. -/
theorem test_witness_TheTrackShiftsAndReleases_with_a_curve : ∀ s : State,
    s = { ending .running busy.tu.track true with fu := { (ending .running busy.tu.track true).fu with
      stations := (table (entry .none 0)).map (fun e => { e with phi := 10, curve := some 3 })
      curves := FiringUnit.por.curves.set 3 { FiringUnit.por.curves[3] with
        shadow := { FiringUnit.por.curves[3].shadow with amin := 9, amax := 9 }, pending := true } } } →
    (s.station 1).kind = .gate ∧ (s.station 2).kind = .stack ∧ (s.station 1).curve = some 3 ∧
    clampedAdvance (if s.fu.curves[3].pending then s.fu.curves[3].shadow else s.fu.curves[3].active) s.mu.speed = 9 ∧
    9 < (s.station 1).phi ∧ 9 < (s.station 2).phi := by
  rintro s rfl
  decide +kernel

theorem test_witness_TheTrackShiftsAndReleases_after_the_decision :
    (ending .running busy.tu.track true).gm.decided = true ∧ (ending .running busy.tu.track true).lc.line = .running ∧
    (ending .running busy.tu.track true).contentAt 1 = .copy (context 1001 0 MarkSet.empty) ∧
    (ending .running busy.tu.track true).contentAt 0 = .empty ∧
    ((ending .running haunted.tu.track true).contentAt 0).isGhost = true ∧ (ending .running busy.tu.track true).gm.queue = [] ∧
    ((ending .running [.empty, .ghost none, .empty] false).contentAt 1).isGhost = true ∧
    ({ ending .running busy.tu.track true with
       au := (staging (.resolved (staged 1 0 0) planned)).au } : State).au.staging[0] = .resolved (staged 1 0 0) planned := by
  decide +kernel

/-- Inside the pitch with a filtered station on sensor 15. -/
def sensing (window : Nat) : State := { lineAt .running with fu := { FiringUnit.por with
  stations := table { entry .insert 1 with sensor := some 15, windowStart := window, windowEnd := window } } }

theorem test_witness_PresenceFilterCounts : (sensing 1).Open ∧ (sensing 1).mu.profile.source = .encoder ∧
    ((sensing 1).mu.encA, (sensing 1).mu.encB, true, false) ∈ forwardEdges ∧ (sensing 1).mu.phase + 1 < (sensing 1).mu.len ∧
    ((sensing 1).station 3).kind.filtered = true ∧ ((sensing 1).station 3).sensor = some 15 ∧
    ((sensing 1).station 3).windowStart ≤ (sensing 1).mu.phase + 1 ∧ (sensing 1).mu.phase + 1 ≤ ((sensing 1).station 3).windowEnd ∧
    loud.sns.getLsbD 15 = true ∧ quiet.sns.getLsbD 15 = false ∧ ((sensing 0).station 3).windowEnd < (sensing 0).mu.phase + 1 ∧
    (sensing 2).mu.phase + 1 < ((sensing 2).station 3).windowStart := by decide +kernel

/-- Inside the pitch with a GATE station on sensor 4, and its jam flag. -/
def jamming (length : Nat) (raised : Bool) : State := { lineAt .running with
  fu := { FiringUnit.por with stations := table { entry .gate 1 with sensor := some 4, jamLength := length } }
  cu := { CheckUnit.por with work := Vector.replicate 16 { CheckWork.por with jamRaised := raised } } }

theorem test_witness_PresenceFilterCounts_jams : (jamming 1 false).Open ∧ (jamming 1 false).mu.profile.source = .encoder ∧
    ((jamming 1 false).mu.encA, (jamming 1 false).mu.encB, true, false) ∈ forwardEdges ∧
    (jamming 1 false).mu.phase + 1 < (jamming 1 false).mu.len ∧ ((jamming 1 false).station 3).kind = .gate ∧
    ((jamming 1 false).station 3).sensor = some 4 ∧ 0 < ((jamming 1 false).station 3).jamLength ∧
    loud.sns.getLsbD 4 = true ∧ quiet.sns.getLsbD 4 = false ∧ ((jamming 1 false).checkWork 3).jamRaised = false ∧
    ((jamming 1 false).station 3).jamLength ≤ min (((jamming 1 false).checkWork 3).jamRun + 1) 65535 ∧
    ((jamming 1 true).checkWork 3).jamRaised = true ∧
    min (((jamming 2 false).checkWork 3).jamRun + 1) 65535 < ((jamming 2 false).station 3).jamLength := by decide +kernel

/-- A copy on the FEED station with an outcome and a detection. -/
def fed (o : PitchOutcome) (detected : Bool) : State :=
  { working .running (entry .carrier 0) [.copy (context 1 0 MarkSet.empty), .empty, .empty] (bundle 0 1 1 0) with
    cu := { CheckUnit.por with work := Vector.replicate 16 { CheckWork.por with detected := detected } } } |>
    (fun s => { s with fu := { s.fu with work := Vector.replicate 16 { FireWork.por with outcome := o } } })

theorem test_witness_WindowCloseJudgesTheProduct : (fed .fired true).firing = true ∧
    (fed .fired true).contentAt ((fed .fired true).station 0).offset = .copy (context 1 0 MarkSet.empty) ∧
    ((fed .fired true).station 0).faultLimit = 0 ∧ ((fed .fired true).station 0).kind = .feed ∧
    ((fed .fired true).station 3).kind = .carrier ∧ ((fed .fired true).fireWork 0).outcome = .fired ∧
    ((fed .fired true).checkWork 0).detected = true ∧ ((fed .fired false).checkWork 0).detected = false ∧
    ((fed .skipped false).fireWork 0).outcome = .skipped ∧ ((fed .none false).fireWork 0).outcome = .none := by decide +kernel

/-- A content on an INSERT station of a feeder, with an outcome and a detection. -/
def inserting (l : LineState) (feeder : Nat) (c : Content) (detected : Bool) (o : PitchOutcome) : State :=
  { working l { entry .insert 1 with feeder := feeder } [.empty, c, .empty] (bundle 0 1 1 0) with
    cu := { CheckUnit.por with work := Vector.replicate 16 { CheckWork.por with detected := detected } } } |>
    (fun s => { s with fu := { s.fu with work := Vector.replicate 16 { FireWork.por with outcome := o } } })

theorem test_witness_WindowCloseJudgesTheProduct_at_INSERT :
    (inserting .running 1 (.copy (context 1 0 MarkSet.empty)) true .fired).firing = true ∧
    (inserting .running 1 (.copy (context 1 0 MarkSet.empty)) true .fired).contentAt
      ((inserting .running 1 (.copy (context 1 0 MarkSet.empty)) true .fired).station 3).offset =
        .copy (context 1 0 MarkSet.empty) ∧
    ((inserting .running 1 .empty true .fired).station 3).kind = .insert ∧
    ((inserting .running 1 .empty true .fired).station 3).faultLimit = 0 ∧
    (context 1 0 MarkSet.empty).values.callsFor ((inserting .running 1 .empty true .fired).station 3).feeder = true ∧
    (context 1 0 MarkSet.empty).values.callsFor ((inserting .running 2 .empty true .fired).station 3).feeder = false ∧
    ((inserting .running 1 .empty true .fired).fireWork 3).outcome = .fired ∧
    ((inserting .running 1 .empty true .skipped).fireWork 3).outcome = .skipped ∧
    ((inserting .running 1 .empty false .fired).checkWork 3).detected = false ∧
    ((inserting .running 1 .empty true .fired).checkWork 3).detected = true ∧
    (inserting .stopped 1 (.copy (context 1 0 MarkSet.empty)) true .fired).firing = false ∧
    (inserting .running 1 .empty true .fired).contentAt 1 = .empty ∧
    (inserting .running 1 (.ghost none) true .fired).contentAt 1 = .ghost none := by decide +kernel

/-- A FEED station whose window ends at phase 1, with a sensor, and a copy there. -/
def closing (windowEnd : Nat) (closed : Bool) : State :=
  { working .stopped { entry .feed 0 with sensor := some 15, windowEnd := windowEnd }
      [.copy (context 1 0 MarkSet.empty), .empty, .empty] (bundle 0 1 1 0) with
    cu := { CheckUnit.por with work := Vector.replicate 16 { CheckWork.por with windowClosed := closed } } }

theorem test_witness_WindowCloseJudgesTheProduct_at_a_count : (closing 1 false).Open ∧
    (closing 1 false).mu.profile.source = .encoder ∧
    ((closing 1 false).mu.encA, (closing 1 false).mu.encB, true, false) ∈ forwardEdges ∧
    ((closing 1 false).mu.encA, (closing 1 false).mu.encB, false, true) ∈ reverseEdges ∧
    ((closing 1 false).station 3).windowEnd = (closing 1 false).mu.phase + 1 ∧
    ((closing 0 false).station 3).windowEnd = (closing 0 false).mu.phase - 1 ∧ ((closing 1 false).station 3).sensor ≠ none ∧
    ((closing 1 false).checkWork 3).windowClosed = false ∧ ((closing 1 true).checkWork 3).windowClosed = true ∧
    (closing 1 false).contentAt ((closing 1 false).station 3).offset = .copy (context 1 0 MarkSet.empty) ∧
    (inserting .running 2 (.copy (context 1 0 MarkSet.empty)) false .none).contentAt 1 = .copy (context 1 0 MarkSet.empty) := by
  decide +kernel

theorem test_witness_TheTrackShiftsAndReleases_marks_missed_work :
    (ending .stopped [.copy (context 1 0 MarkSet.empty), .empty, .empty] true).contentAt 0 = .copy (context 1 0 MarkSet.empty) ∧
    ((ending .stopped busy.tu.track true).fireWork 0).fired = false ∧ ((ending .stopped busy.tu.track true).station 0).kind = .feed ∧
    ((closing 1 false).checkWork 3).windowClosed = false ∧ ((closing 1 false).station 3).kind = .feed ∧
    (ending .stopped busy.tu.track true).lc.line = .stopped ∧
    ((ending .stopped busy.tu.track true).contentAt 1).occupied = true := by decide +kernel

/-- A copy on a station whose consecutive faults count to a limit. -/
def faulting (limit run : Nat) : State :=
  { working .running { entry .insert 1 with faultLimit := limit } busy.tu.track (bundle 0 1 1 0) with
    cu := { CheckUnit.por with work := Vector.replicate 16 { CheckWork.por with faultRun := run } } }

theorem test_witness_FaultVerdictCountsToItsLimit :
    (faulting 3 2).contentAt ((faulting 3 2).station 3).offset = .copy (context 1001 0 MarkSet.empty) ∧
    0 < ((faulting 3 1).station 3).faultLimit ∧ ((faulting 3 1).checkWork 3).faultRun + 1 < ((faulting 3 1).station 3).faultLimit ∧
    ((faulting 3 2).station 3).faultLimit ≤ ((faulting 3 2).checkWork 3).faultRun + 1 ∧ (faulting 3 2).lc.line = .running ∧
    (faulting 3 2).lc.holds.isEmpty = true := by decide +kernel

/-- Section 5.3's example: the samples of a copy sum to 2066 with m = 2. -/
def measuring : State :=
  { working .running { entry .caliper 1 with sampleExp := 2 } busy.tu.track (bundle 0 1 1 0) with
    cu := { CheckUnit.por with work := Vector.replicate 16 { CheckWork.por with sampleSum := 2066 } } }

theorem test_witness_CaliperReadingJudgesTheCopy :
    measuring.contentAt (measuring.station 3).offset = .copy (context 1001 0 MarkSet.empty) ∧
    (measuring.station 3).faultLimit = 0 ∧ 516 = (measuring.checkWork 3).sampleSum / 2 ^ (measuring.station 3).sampleExp ∧
    measuring.firstOf .caliper = some 3 := by decide +kernel

/-- A content on a CALIPER station that takes 2^m samples from channel 0, in a state of its measurement. -/
def sampling (l : LineState) (c : Content) (m drift : Nat) (state : MeasureState) : State :=
  { working l { entry .caliper 1 with sampleExp := m, driftLimit := drift, zmax := 500 } [.empty, c, .empty] (bundle 0 1 1 0) with
    pins := loud
    cu := { CheckUnit.por with work := Vector.replicate 16 { CheckWork.por with measure := state, sampleSum := 500 } } }

theorem test_witness_CaliperReadingJudgesTheCopy_begins :
    ((sampling .running .empty 0 0 .idle).station 3).kind = .caliper ∧
    ((sampling .running .empty 0 0 .idle).checkWork 3).measure = .idle ∧
    ((sampling .running .empty 0 0 .idle).checkWork 3).nextSample = 0 ∧
    (sampling .running .empty 0 0 .idle).mu.phase = ((sampling .running .empty 0 0 .idle).station 3).windowStart ∧
    (sampling .running .empty 0 0 .idle).firing = true ∧ (sampling .stopped .empty 0 0 .idle).firing = false ∧
    ((sampling .running .empty 0 0 .idle).contentAt 1).isGhost = false ∧
    (sampling .running (.ghost none) 0 0 .idle).contentAt 1 = .ghost none ∧
    (sampling .stopped (.copy (context 1 0 MarkSet.empty)) 0 0 .idle).contentAt 1 = .copy (context 1 0 MarkSet.empty) := by
  decide +kernel

theorem test_witness_CaliperReadingJudgesTheCopy_samples :
    ((sampling .running .empty 1 0 .measuring).checkWork 3).measure = .measuring ∧
    (sampling .running .empty 1 0 .measuring).mu.phase =
      ((sampling .running .empty 1 0 .measuring).station 3).windowStart + 0 *
        (((sampling .running .empty 1 0 .measuring).station 3).windowEnd -
          ((sampling .running .empty 1 0 .measuring).station 3).windowStart) /
        2 ^ ((sampling .running .empty 1 0 .measuring).station 3).sampleExp ∧
    0 + 1 < 2 ^ ((sampling .running .empty 1 0 .measuring).station 3).sampleExp ∧
    0 + 1 = 2 ^ ((sampling .running .empty 0 0 .measuring).station 3).sampleExp ∧
    (if ((sampling .running .empty 1 0 .measuring).station 3).channel then
      (sampling .running .empty 1 0 .measuring).pins.cal1 else (sampling .running .empty 1 0 .measuring).pins.cal0) =
      512 :: [515] := by decide +kernel

theorem test_witness_CaliperReadingJudgesTheCopy_checks_zero :
    (sampling .running .empty 0 3 .measuring).contentAt ((sampling .running .empty 0 3 .measuring).station 3).offset = .empty ∧
    (sampling .running (.ghost none) 0 3 .measuring).contentAt 1 = .ghost none ∧
    500 = ((sampling .running .empty 0 3 .measuring).checkWork 3).sampleSum /
      2 ^ ((sampling .running .empty 0 3 .measuring).station 3).sampleExp ∧
    0 < ((sampling .running .empty 0 1 .measuring).station 3).driftLimit ∧
    500 ≤ ((sampling .running .empty 0 3 .measuring).station 3).zmax ∧
    ((sampling .running .empty 0 3 .measuring).checkWork 3).drift + 1 < ((sampling .running .empty 0 3 .measuring).station 3).driftLimit ∧
    ((sampling .running .empty 0 1 .measuring).station 3).driftLimit ≤ ((sampling .running .empty 0 1 .measuring).checkWork 3).drift + 1 ∧
    ((sampling .running .empty 0 0 .measuring).station 3).driftLimit = 0 ∧
    (sampling .running .empty 0 1 .measuring).lc.holds.isEmpty = true ∧ ¬ (501 ≤ 500) := by decide +kernel

/-- A content on the VERIFY station. -/
def verifying (c : Content) : State := working .running (entry .verify 1) [.empty, c, .empty] (bundle 0 1 1 0)

theorem test_witness_ReaderMessagesFindTheirCopy : State.reset.firstOf .verify = none ∧
    (verifying .empty).firstOf .verify = some 3 ∧ (verifying .empty).contentAt ((verifying .empty).station 3).offset = .empty ∧
    (verifying (.ghost none)).contentAt ((verifying .empty).station 3).offset = .ghost none ∧
    (verifying (.copy (context 1 0 MarkSet.empty))).contentAt 1 = .copy (context 1 0 MarkSet.empty) ∧
    (context 1 0 MarkSet.empty).values.verify = true ∧ (context 1 0 MarkSet.empty).verifyResult = none ∧
    ({ context 1 0 MarkSet.empty with verifyResult := some .noRead } : Context).verifyResult ≠ none ∧
    PlanEntry.por.values.verify = false ∧ (verifying .empty).Calm := by decide +kernel

/-- A context with a verify result. -/
def heard (r : Option ReadResult) : Context := { context 1001 0 MarkSet.empty with verifyResult := r }

theorem test_witness_ReaderMessagesFindTheirCopy_judges : (verifying (.copy (heard none))).firstOf .verify = some 3 ∧
    ((verifying (.copy (heard none))).station 3).faultLimit = 0 ∧ (heard none).values.verify = true ∧
    (heard none).verifyResult = none ∧ (heard (some .noRead)).verifyResult = some .noRead ∧
    (heard (some (.value 0x03E8))).verifyResult = some (.value 0x03E8) ∧
    0x03E8 ≠ (heard (some (.value 0x03E8))).copy.seq.setWidth 16 ∧
    (heard (some (.value 0x03E9))).verifyResult =
      some (.value ((heard (some (.value 0x03E9))).copy.seq.setWidth 16)) ∧
    (verifying (.copy (heard none))).contentAt ((verifying (.copy (heard none))).station 3).offset =
      .copy (heard none) ∧ ((verifying .empty).contentAt 1).isCopy = false := by decide +kernel

theorem test_witness_PortsGatherMessages :
    frameOctets 0x21 (octets2 (0x03E9#16).toNat) = 0xA5 :: [0x02, 0x21, 0x03, 0xE9, (crc16 [0x02, 0x21, 0x03, 0xE9]).extractLsb' 8 8] ++
      [(crc16 [0x02, 0x21, 0x03, 0xE9]).extractLsb' 0 8] ∧
    frameOctets 0x11 [] = 0xA5 :: [0x00, 0x11, (crc16 [0x00, 0x11]).extractLsb' 8 8] ++ [(crc16 [0x00, 0x11]).extractLsb' 0 8] ∧
    State.reset.cu.reader = .idle ∧ State.reset.pp.receive = .idle := by decide +kernel

/-- Inner octets, a check that fails, and the last octets of the messages of either port. -/
theorem test_witness_PortsGatherMessages_inside : ([] : List Byte).length + 2 < (0 : Byte).toNat + 4 ∧
    (List.replicate 251 (0 : Byte)).length + 2 < (250 : Byte).toNat + 4 ∧ ([] : List Byte).length = (0 : Byte).toNat ∧
    crc16 [0x00, 0x11] ≠ (0x00 : Byte) ++ (0x00 : Byte) ∧
    (∀ kind ∈ [(0x22 : Byte), 0x11, 0x55], frameOctets kind [] =
      0xA5 :: [0x00, kind, (crc16 [0x00, kind]).extractLsb' 8 8] ++ [(crc16 [0x00, kind]).extractLsb' 0 8]) ∧
    frameOctets 0x12 [BitVec.ofNat 8 (9 : Tag).toNat] =
      0xA5 :: [0x01, 0x12, 9, (crc16 [0x01, 0x12, 9]).extractLsb' 8 8] ++ [(crc16 [0x01, 0x12, 9]).extractLsb' 0 8] ∧
    (∀ r ∈ [(0 : Byte), 1], frameOctets 0x13 [BitVec.ofNat 8 (9 : Tag).toNat, r] =
      0xA5 :: [0x02, 0x13, 9, r, (crc16 [0x02, 0x13, 9, r]).extractLsb' 8 8] ++
        [(crc16 [0x02, 0x13, 9, r]).extractLsb' 0 8]) := by decide +kernel

/-- Messages of a known kind with a length, a tag or a result code that no message has. -/
theorem test_witness_PortsGatherMessages_discards :
    (∀ kind ∈ [(0x21 : Byte), 0x12, 0x13], frameOctets kind [] =
      0xA5 :: [0x00, kind, (crc16 [0x00, kind]).extractLsb' 8 8] ++ [(crc16 [0x00, kind]).extractLsb' 0 8]) ∧
    (∀ kind ∈ [(0x22 : Byte), 0x11, 0x12], frameOctets kind [16] =
      0xA5 :: [0x01, kind, 16, (crc16 [0x01, kind, 16]).extractLsb' 8 8] ++ [(crc16 [0x01, kind, 16]).extractLsb' 0 8]) ∧
    frameOctets 0x13 [15, 2] =
      0xA5 :: [0x02, 0x13, 15, 2, (crc16 [0x02, 0x13, 15, 2]).extractLsb' 8 8] ++ [(crc16 [0x02, 0x13, 15, 2]).extractLsb' 0 8] ∧
    15 < (16 : Byte).toNat ∧ 1 < (2 : Byte).toNat ∧ ([] : List Byte).length ≠ 2 := by decide +kernel

/-- A PRINT station at 1 with a print lead, a content on positions 0 and 1, and the printer port's state. -/
def dispatching (l : LineState) (lead : Nat) (c : Content) (port : PrinterPort) : State :=
  { working l { entry .print 1 with printLead := lead } [c, c, .empty] (bundle 0 1 1 0) with pp := port }

theorem test_witness_ClearedAndTakenAnswerThePrinterPort_dispatch :
    (dispatching .running 1 (.copy (context 1 0 MarkSet.empty)) PrinterPort.por).firstOf .print = some 3 ∧
    ((dispatching .running 1 .empty PrinterPort.por).station 3).printLead ≤ ((dispatching .running 1 .empty PrinterPort.por).station 3).offset ∧
    (dispatching .running 1 (.copy (context 1 0 MarkSet.empty)) PrinterPort.por).contentAt (1 - 1) = .copy (context 1 0 MarkSet.empty) ∧
    (printing true true true).pp.synchronised = true ∧ (printing true true true).pp.jobs.length < 16 ∧
    16 ≤ (List.replicate 16 { tag := 0, lead := 1, dispatch := 0, taken := true, triggered := true : Job }).length ∧
    PrinterPort.por.synchronised = false ∧ State.reset.firstOf .print = none ∧
    ((dispatching .running 2 .empty PrinterPort.por).station 3).offset < ((dispatching .running 2 .empty PrinterPort.por).station 3).printLead ∧
    ((dispatching .running 1 .empty PrinterPort.por).contentAt 0).isCopy = false := by decide +kernel

theorem test_witness_DoneEndsTheHeadJob : (printing true true true).Calm ∧ (printing false true true).pp.synchronised = false ∧
    (printing true true true).pp.synchronised = true ∧
    (printing true true true).pp.jobs = { tag := 0, lead := 1, dispatch := 0, taken := true, triggered := true } :: [] ∧
    (printing true true false).pp.jobs = { tag := 0, lead := 1, dispatch := 0, taken := true, triggered := false } :: [] := by
  decide +kernel

/-- The job's copy on its position, before the gate's decision. -/
def printed : State :=
  { printing true true true with
    tu := { TrackUnit.por with
      track := [.empty, .copy { context 1 0 MarkSet.empty with tag := some 0 }, .empty], gate := some 1 } }

theorem test_witness_DoneEndsTheHeadJob_with_its_copy : printed.Calm ∧ printed.pp.synchronised = true ∧
    printed.contentAt (1 + (printed.mu.pitch - 0).toNat) = .copy { context 1 0 MarkSet.empty with tag := some 0 } ∧
    printed.tu.gate = some 1 ∧ printed.gm.decided = false := by decide +kernel

/-- A PRINT station written to T − 1 in STOPPED, its fire point not reached, and the tagged copy that stood there. -/
def beyond : State :=
  { working .stopped (entry .print 2) [.empty, .empty, .copy { context 1 0 MarkSet.empty with tag := some 0 }] (bundle 0 201 3 1) with
    pp := printed.pp }

/-- R64, R105: the PRINT close-out finds the copy at T − 1 as it stood in the pitch, and withdraws; then the copy is LOST. -/
theorem test_close_out_at_the_last_position : beyond.trackLen = 3 ∧ (closeOut .stopped 0 beyond).pp.synchronised = false ∧
    (closeOut .stopped 0 beyond).pp.jobs = [] ∧ (closeOut .stopped 0 beyond).contentAt 2 = .empty := by decide +kernel

/-- A context with the print tag of the one job. -/
def tagged : Context := { context 1 0 MarkSet.empty with tag := some 0 }

theorem test_witness_WithdrawalGivesUpEveryJob : printed.contentAt 1 = .copy tagged ∧
    (∃ j ∈ printed.pp.jobs, tagged.tag = some j.tag) ∧ (∀ j ∈ printed.pp.jobs, (context 1 0 MarkSet.empty).tag ≠ some j.tag) ∧
    (dispatching .running 1 (.ghost (some 0)) printed.pp).contentAt 1 = .ghost (some 0) ∧
    printed.pp.clears ≠ 255 ∧ PrinterMessage.clear ∉ printed.pp.transmit.tail ∧
    PrinterMessage.clear ∈ [PrinterMessage.job 0 1 [], .clear].tail ∧
    (dispatching .running 1 (.copy tagged) printed.pp).firing = true ∧
    ((dispatching .running 1 (.copy tagged) printed.pp).station 3).kind = .print ∧
    ((dispatching .running 1 (.copy tagged) printed.pp).contentAt 1).tag = some 0 ∧
    ((dispatching .running 1 .empty printed.pp).contentAt 1).tag = none ∧
    (printing true true false).pp.jobs.find? (fun j => !j.triggered) =
      some { tag := 0, lead := 1, dispatch := 0, taken := true, triggered := false } ∧
    (printing true false false).pp.jobs.find? (fun j => !j.triggered) =
      some { tag := 0, lead := 1, dispatch := 0, taken := false, triggered := false } ∧
    (∃ k ∈ (printing true false false).pp.jobs, k.tag = 0) ∧
    (dispatching .stopped 1 (.copy tagged) printed.pp).firing = false ∧
    ((dispatching .stopped 1 (.copy tagged) printed.pp).fireWork 3).fired = false := by decide +kernel

theorem test_witness_GatePassesOnlyCleanCopies : busy.contentAt 1 = .copy (context 1001 0 MarkSet.empty) ∧
    busy.firstOf .print = none := by decide +kernel

theorem test_witness_GatePassesOnlyCleanCopies_with_print :
    (dispatching .running 1 (.copy tagged) printed.pp).firstOf .print = some 3 ∧
    (∃ j ∈ printed.pp.jobs, tagged.tag = some j.tag ∧ j.lead + ((0 : PitchIndex) - j.dispatch).toNat = 1) ∧
    (∃ t, tagged.tag = some t ∧ ∀ j ∈ printed.pp.jobs, j.tag = t → j.lead + ((1 : PitchIndex) - j.dispatch).toNat ≠ 1) ∧
    (context 1 0 MarkSet.empty).tag = none ∧ (context 1 0 MarkSet.empty).marks.suspect = false ∧
    (context 1 0 (MarkSet.empty.add .suspect)).marks.suspect = true := by
  refine ⟨by decide +kernel, by decide +kernel, ⟨0, rfl, by decide +kernel⟩, by decide, by decide, by decide⟩

/-- A marked copy at the gate of a line that runs. -/
def rejected (decided : Bool) : State := ending .running [.empty, .copy (context 1 0 (MarkSet.empty.add .thin)), .empty] decided

/-- The GATE station's fire point with a clean copy and a marked one undecided, a second one in the pitch, a gap and a ghost on
g, and outside the firing states. -/
theorem test_witness_GatePassesOnlyCleanCopies_at_its_fire_point : (busy.station 1).kind = .gate ∧ busy.firing = true ∧
    busy.gm.decided = false ∧ busy.tu.gate = some 1 ∧ (lineAt .stopped).firing = false ∧
    (decideGate true 1 0 { setFireWork 1 (fun w => { w with fired := true }) busy with gm := { busy.gm with decided := true } }).1 =
      true ∧
    ((rejected false).station 1).kind = .gate ∧ (rejected false).firing = true ∧ (rejected false).gm.decided = false ∧
    (rejected false).tu.gate = some 1 ∧
    (decideGate true 1 0 { setFireWork 1 (fun w => { w with fired := true }) (rejected false) with
      gm := { (rejected false).gm with decided := true } }).1 = false ∧
    ((rejected true).station 1).kind = .gate ∧ (rejected true).firing = true ∧ (rejected true).gm.decided = true ∧
    (ending .runOut [.empty, .ghost none, .empty] false).contentAt 1 = .ghost none ∧
    (setContent 1 .empty (ending .runOut [.empty, .ghost none, .empty] false)).trackOccupied = false ∧
    (setContent 1 .empty (ending .runOut [.ghost none, .ghost none, .empty] false)).trackOccupied = true ∧
    (ending .running [.empty, .empty, .empty] false).contentAt 1 = .empty := by decide +kernel

/-- A second GATE fire point in the pitch, with DIVERT-ALL set between the two, leaves the passed copy on g (R113, R116). -/
theorem test_a_pass_stands_at_a_second_fire_point :
    ((takeFirePoint 1 { ending .running busy.tu.track true with
      fu := { (ending .running busy.tu.track true).fu with divertAll := true } }).contentAt 1) =
      .copy (context 1001 0 MarkSet.empty) := by decide +kernel

theorem test_witness_DivertsGoToMakeUpOrException : busy.bundle 0 = some (bundle 0 201 3 1) ∧
    (∀ pos, pos < 1 → (busy.contentAt pos).isCopy = false) ∧
    { context 1001 0 (MarkSet.empty.add .thin) with attempts := 1, faulted := 1 } =
      { context 1001 0 (MarkSet.empty.add .thin) with
        attempts := min ((context 1001 0 (MarkSet.empty.add .thin)).attempts + 1) 255
        faulted := if (context 1001 0 (MarkSet.empty.add .thin)).marks.hasFault then
          (context 1001 0 (MarkSet.empty.add .thin)).faulted + 1 else (context 1001 0 (MarkSet.empty.add .thin)).faulted } ∧
    1 ≤ (bundle 0 201 3 1).retryLimit ∧ (bundle 0 201 3 1).mode ≠ .short ∧
    ({ bundle 0 201 3 1 with retryLimit := 0 } : Bundle).retryLimit < 1 := by
  refine ⟨by decide +kernel, ?_, by decide +kernel, by decide, by decide, by decide⟩
  intro pos h
  obtain rfl : pos = 0 := by omega
  decide

/-- A copy below the gate, which an exception leaves there. -/
theorem test_witness_DivertsGoToMakeUpOrException_below_the_gate :
    (ending .running [.copy (context 1 0 MarkSet.empty), .copy (context 2 0 MarkSet.empty), .empty] false).contentAt 0 =
      .copy (context 1 0 MarkSet.empty) ∧
    (ending .running [.copy (context 1 0 MarkSet.empty), .copy (context 2 0 MarkSet.empty), .empty] false).bundle 0 =
      some (bundle 0 201 3 1) ∧ ((.copy (context 1 0 MarkSet.empty) : Content)).isCopy = true := by decide +kernel

/-- The bundle whose last copy is in flight, that gives up at its first fault. -/
def lastCopy (ordinal : Word16) : Bundle := { bundle ordinal 201 1 1 with retryLimit := 0 }

theorem test_witness_DivertsGoToMakeUpOrException_completes : (lastCopy 0).receiving = false ∧ (lastCopy 0).complete = false ∧
    (lastCopy 0).delivered + (lastCopy 0).excepted + 1 = (lastCopy 0).expected ∧
    ({ busy with bu := { busy.bu with table := [lastCopy 0, bundle 1 202 3 1] } } : State).bundle 0 = some (lastCopy 0) ∧
    (∀ e ∈ [bundle 1 202 3 1], e.ordinal ≠ (lastCopy 0).ordinal) ∧
    (∀ e, [bundle 1 202 3 1].head? = some e → e.complete = false) ∧
    ({ busy with bu := { busy.bu with table := [bundle 0 202 3 3, lastCopy 1] } } : State).bundle 1 = some (lastCopy 1) ∧
    (bundle 0 202 3 3).ordinal ≠ (lastCopy 1).ordinal ∧ (bundle 0 202 3 3).complete = false := by
  refine ⟨by decide, by decide, by decide, by decide +kernel, by decide, ?_, by decide +kernel, by decide, by decide⟩
  rintro e ⟨⟩
  rfl

theorem test_witness_InsertionKeepsTheQueueInOrder :
    (∀ d ∈ context 320 40 MarkSet.empty :: [context 318 40 MarkSet.empty, context 402 41 MarkSet.empty],
      (d.copy.ordinal - 34).toNat < 8) ∧
    [context 318 40 MarkSet.empty, context 402 41 MarkSet.empty].Pairwise
      (fun d e => ordinalAbove d.copy.ordinal e.copy.ordinal = false) := by decide +kernel

theorem test_witness_SweepMakesGhosts : 1 < 2 ∧ busy.contentAt 1 = .copy (context 1001 0 MarkSet.empty) ∧
    ordinalAbove (context 1001 0 MarkSet.empty).copy.ordinal 0xFFFF = true ∧
    ordinalAbove (context 1001 0 MarkSet.empty).copy.ordinal 0 = false := by decide +kernel

/-- Copies of bundles 1, 0 and 1 on positions 0 to 2: a sweep for bundle 0 takes the one nearest the gate first. -/
theorem test_witness_SweepMakesGhosts_in_order : (ending .running [.copy (context 5 1 MarkSet.empty),
      .copy (context 4 0 MarkSet.empty), .copy (context 3 1 MarkSet.empty)] false).sweptContexts 0 3 =
    [{ context 3 1 MarkSet.empty with attempts := 1 }, { context 5 1 MarkSet.empty with attempts := 1 }] := by decide +kernel

/-- A detected copy on the last position. -/
def stacking : State :=
  { working .running (entry .none 0) [.empty, .empty, .copy (context 1001 0 MarkSet.empty)] (bundle 0 201 3 1) with
    cu := { CheckUnit.por with work := Vector.replicate 16 { CheckWork.por with detected := true } } } |>
    (fun s => { s with fu := { s.fu with stations := s.fu.stations.set 2 { entry .stack 2 with sensor := some 0 } } })

theorem test_witness_StackEventDelivers : stacking.contentAt (stacking.trackLen - 1) = .copy (context 1001 0 MarkSet.empty) ∧
    stacking.stackDetected 2 = true ∧ stacking.BundlesSound ∧ stacking.bundle 0 = some (bundle 0 201 3 1) ∧
    (bundle 0 201 3 1).delivered + (bundle 0 201 3 1).excepted + 1 ≠ (bundle 0 201 3 1).expected := by decide +kernel

/-- The same with a bundle that this delivery completes. -/
def completing : State := { stacking with bu := { stacking.bu with table := [bundle 0 201 1 1] } }

/-- The same with two kicks pending, the older with a tray kick. -/
def kicking : State := { stacking with bu := { stacking.bu with kicks := [true, false] } }

theorem test_witness_StackEventDelivers_or_loses : ({ stacking with cu := CheckUnit.por } : State).stackDetected 2 = false ∧
    completing.stackDetected 2 = true ∧ completing.BundlesSound ∧ completing.bundle 0 = some (bundle 0 201 1 1) ∧
    completing.bu.table = bundle 0 201 1 1 :: [] ∧ (bundle 0 201 1 1).receiving = false ∧ (bundle 0 201 1 1).complete = false ∧
    (bundle 0 201 1 1).delivered + (bundle 0 201 1 1).excepted + 1 = (bundle 0 201 1 1).expected ∧
    (stacking.station 2).kind = .stack ∧ stacking.firing = true ∧ State.reset.firing = false ∧ stacking.bu.kicks = [] ∧
    kicking.bu.kicks = true :: [false] ∧ kicking.firing = true ∧ kicking.fu.kickTaken = false ∧
    ({ kicking with fu := { kicking.fu with kickTaken := true } } : State).fu.kickTaken = true ∧
    (busy.contentAt (busy.trackLen - 1)).isCopy = false := by decide +kernel

/-- R30, R147, R193: one kick per pitch. A second take in the pitch takes none, and the next pitch takes the next. -/
theorem test_one_kick_per_pitch : (takeKick 2 (takeKick 2 kicking)).bu.kicks = [false] ∧
    (takeKick 2 (newPitchFiring (takeKick 2 kicking))).bu.kicks = [] := by decide +kernel

/-- A pitch whose kick is taken, with a count that stays in the pitch. -/
theorem test_witness_BundlesCloseInOrder_one_per_pitch : ∀ s : State, s = takeKick 2 kicking →
    s.fu.kickTaken = true ∧ (after (.encoderEdge quiet true false) s).map (fun t => (t.mu.pitch, t.fu.kickTaken, t.bu.kicks)) =
      some (s.mu.pitch, true, [false]) := by
  rintro s rfl
  decide +kernel

theorem test_witness_BundlesCloseInOrder : ∃ s : State, s.bu.table = [{ bundle 0 1 1 1 with complete := true }] ++ [bundle 1 2 1 0] ∧
    (∀ b ∈ [{ bundle 0 1 1 1 with complete := true }], b.complete = true) ∧
    (∀ b, [bundle 1 2 1 0].head? = some b → b.complete = false) :=
  ⟨{ State.reset with bu := { BundleUnit.por with table := [{ bundle 0 1 1 1 with complete := true }, bundle 1 2 1 0] } }, rfl,
    by decide, by rintro b ⟨⟩; rfl⟩

theorem test_witness_line_commands : (lineAt .running).lc.line = .running ∧ (lineAt .running).lc.holds = HoldSet.empty ∧
    ({ lineAt .holding with lc := { (lineAt .holding).lc with holds := HoldSet.empty.add .command } } : State).lc.holds ≠ HoldSet.empty ∧
    (lineAt .holding).lc.line = .holding ∧ 1 < (2 : Byte).toNat ∧ busy.trackOccupied = true ∧ State.reset.trackOccupied = false ∧
    busy.firing = true ∧ State.reset.firing = false ∧ ¬ (State.reset.lc.line = .running ∨ State.reset.lc.line = .holding) := by
  decide +kernel

/-- The resumed line reports HOLD_LEFT. -/
theorem test_witness_CommandsTakenInEveryLineState_reports : (held (HoldSet.empty.add .command)).Calm ∧
    (held (HoldSet.empty.add .command)).lc.holds ≠ HoldSet.empty ∧
    (held (HoldSet.empty.add .command)).ll.mask.getLsbD 2 = true ∧
    (held (HoldSet.empty.add .command)).ll.mask.getLsbD 1 = true := by decide +kernel

/-- Lines that the backlog holds, alone and with COMMAND, at the ends of the range of `Steady`. -/
theorem test_witness_steady :
    ({ crowded .search 32 with lc := (held (HoldSet.empty.add .linkBacklog)).lc } : State).Steady ∧
    ({ crowded .search 158 with lc := (held ((HoldSet.empty.add .linkBacklog).add .command)).lc } : State).Steady ∧
    ({ crowded .search 93 with lc := (lineAt .running).lc } : State).Steady ∧ State.reset.Steady ∧
    (after (.resume quiet 1 []) { crowded .search 32 with
      lc := (held ((HoldSet.empty.add .linkBacklog).add .command)).lc }).map (fun t => (t.lc.line, t.lc.holds)) =
      some (.holding, HoldSet.empty.add .linkBacklog) := by decide +kernel

/-- STOP_NOW with a measurement in progress at a copy. -/
theorem test_witness_CommandsThatEndFiring : ∀ s : State,
    s = { working .running (entry .caliper 1) busy.tu.track (bundle 0 1 1 0) with
      cu := { CheckUnit.por with work := Vector.replicate 16 { CheckWork.por with measure := .measuring } } } →
    s.Steady ∧ s.firing = true ∧ (s.station 3).kind = .caliper ∧ (s.checkWork 3).measure = .measuring ∧
    s.contentAt (s.station 3).offset = .copy (context 1001 0 MarkSet.empty) ∧ (s.station 0).kind ≠ .caliper := by
  rintro s rfl
  decide +kernel

/-- A line that START takes. -/
def startable : State := { State.reset with fu := { FiringUnit.por with stations := table (entry .none 0) } }

/-- The same with a context that would stand beyond the gate. -/
def displaced : State := { startable with tu := { TrackUnit.por with
  track := [.empty, .copy (context 1 0 MarkSet.empty), .empty, .empty], gate := some 3 } }

theorem test_witness_StartLeavesStopped : startable.Calm ∧ startable.lc.line = .stopped ∧ configRefusal startable = none ∧
    startable.geometryFits = true ∧ configRefusal State.reset ≠ none ∧ displaced.Calm ∧ configRefusal displaced = none ∧
    displaced.geometryFits = false ∧ (lineAt .running).lc.line ≠ .stopped := by decide +kernel

/-- START of a line with a hold cause. -/
theorem test_witness_StartLeavesStopped_holding : ∀ s : State,
    s = { startable with lc := { startable.lc with holds := HoldSet.empty.add .command } } →
    s.Steady ∧ s.lc.line = .stopped ∧ configRefusal s = none ∧ s.geometryFits = true ∧ s.lc.holds ≠ HoldSet.empty ∧
    s.ll.mask.getLsbD 1 = true := by
  rintro s rfl
  decide +kernel

/-- Two FEED stations: COUNT_FEED fails, and station 0 is the lowest that breaks it. -/
theorem test_witness_AcceptedConfigurationsAreSound : configRefusal startable = none ∧ State.reset.configFails 1 ∧
    (∀ i, ¬ State.reset.breaks 1 i) ∧ (working .stopped (entry .feed 0) [] (bundle 0 1 1 0)).configFails 1 ∧
    (working .stopped (entry .feed 0) [] (bundle 0 1 1 0)).breaks 1 0 ∧
    (∀ j : StationNo, j < 0 → ¬ (working .stopped (entry .feed 0) [] (bundle 0 1 1 0)).breaks 1 j) := by
  refine ⟨by decide +kernel, ?_, ?_, ?_, ?_, fun j h => absurd h (Fin.not_lt_zero j)⟩ <;>
    simp only [State.configFails, State.breaks] <;> decide +kernel

theorem test_witness_AcceptedConfigurationsAreSound_with_no_reason : ∀ n, 1 ≤ n → n ≤ 17 → ¬ startable.configFails n := by
  intro n h1 h17
  interval_cases n <;> simp only [State.configFails, State.breaks] <;> decide +kernel

/-- FAULTED with a station whose jam length is on and whose sensor is input 4. -/
def jammed : State := { lineAt .faulted with fu := { FiringUnit.por with
  stations := table { entry .gate 1 with jamLength := 1, sensor := some 4 } } }

theorem test_witness_ClearFaultEndsTheEpisode : (lineAt .faulted).Calm ∧ (lineAt .faulted).lc.line = .faulted ∧ quiet.estop = false ∧
    (setPins quiet (lineAt .faulted)).jamInputActive = false ∧ State.reset.lc.line ≠ .faulted ∧ loud.estop = true ∧
    jammed.lc.line = .faulted ∧ (setPins { loud with estop := false } jammed).jamInputActive = true := by decide +kernel

theorem test_witness_RunResetClearsTheJob : State.reset.Calm ∧ State.reset.lc.line = .stopped ∧
    (lineAt .running).lc.line ≠ .stopped ∧ State.reset.pp.clears ≠ 255 ∧ PrinterMessage.clear ∉ State.reset.pp.transmit.tail ∧
    PrinterMessage.clear ∈ [PrinterMessage.job 0 1 [], .clear].tail := by decide

/-- A COPY frame is arriving when the run reset is taken. -/
theorem test_witness_RunResetClearsTheJob_keeps_its_entry : (staging .receiving).StagingSound ∧ (staging .receiving).Calm ∧
    (∀ j : Fin 16, (staging .receiving).au.staging[j] = .receiving ↔ j = 0) ∧ State.reset.receivingEntry = none := by
  decide +kernel

theorem test_witness_LinkOctetsAdvanceTheReceiveState : (receiving .search 0).ll.receive = .search ∧
    (receiving .length 0).ll.receive = .length ∧ (receiving .kind 0).ll.receive = .kind ∧
    (receiving .payload 0).ll.receive = .payload ∧ (receiving .crcHigh 0).ll.receive = .crcHigh ∧
    (receiving .kind 0).inReset = false ∧ (receiving .kind 0).freeStaging = some 0 := by decide +kernel

/-- The kind octet of a COPY that finds no FREE entry. -/
theorem test_witness_LinkOctetsAdvanceTheReceiveState_when_full :
    ({ full with ll := (receiving .kind 0).ll } : State).freeStaging = none ∧
    ({ full with ll := (receiving .kind 0).ll } : State).ll.receive = .kind := by decide +kernel

theorem test_witness_BadFramesAreDiscarded : (receiving .crcLow 6).Calm ∧
    (receiving .crcLow 6).ll.buffer.crc ≠ (receiving .crcLow 6).ll.buffer.crcHigh ++ (0 : Byte) ∧
    (receiving .crcLow 6).ll.buffer.kind ≠ 0x01 ∧ (receiving .length 6).ll.receive ≠ .search ∧
    ({ staging .receiving with ll := (receiving .payload 1).ll } : State).receivingEntry = some 0 ∧
    (receiving .payload 1).ll.buffer.kind = 0x01 := by decide +kernel

/-- A COPY frame that fails its CRC, with its entry reserved and without. -/
theorem test_witness_BadFramesAreDiscarded_of_a_COPY : (receiving .crcLow 1).Calm ∧ (receiving .crcLow 1).ll.buffer.kind = 0x01 ∧
    (receiving .crcLow 1).ll.buffer.crc ≠ (receiving .crcLow 1).ll.buffer.crcHigh ++ (0 : Byte) ∧
    (receiving .crcLow 1).receivingEntry = none ∧
    ({ staging .receiving with ll := (receiving .crcLow 1).ll } : State).receivingEntry = some 0 := by decide +kernel

theorem test_witness_FramesWaitForRoomAndRecordsAreSent : (crowded .crcLow 177).hasRoom = false ∧
    (crowded .held 177).hasRoom = false ∧ (crowded .held 176).hasRoom = true ∧
    (crowded .held 177).ll.upstream = .notice .holdLeft 0 :: List.replicate 176 (.notice .holdLeft 0) ∧
    (List.replicate 176 (Record.notice .holdLeft 0)).length + (crowded .held 177).stagingFill + 80 ≤ 256 ∧
    ({ FrameBuffer.cleared with crcHigh := FrameBuffer.cleared.crc.extractLsb' 8 8 } : FrameBuffer).crc =
      FrameBuffer.cleared.crc.extractLsb' 8 8 ++ FrameBuffer.cleared.crc.extractLsb' 0 8 := by decide +kernel

/-- A notice kind ENABLED and not, with room and without. -/
theorem test_witness_FramesWaitForRoomAndRecordsAreSent_notices :
    State.reset.ll.mask.getLsbD (noticeCode .holdLeft) = true ∧ (0x000#11).getLsbD (noticeCode .holdLeft) = false ∧
    (crowded .held 176).ll.upstream.length + (crowded .held 176).stagingFill + 80 ≤ 256 ∧
    ¬ ((crowded .held 177).ll.upstream.length + (crowded .held 177).stagingFill + 80 ≤ 256) ∧
    State.reset.inReset = false ∧ (∃ i : Fin 16, State.reset.au.staging[i] = .free) ∧ State.reset.bu.table.length < 8 := by
  refine ⟨by decide +kernel, by decide, by decide +kernel, by decide +kernel, rfl, ⟨0, by decide +kernel⟩, by decide⟩

/-- The reply that is the 96th record and finds the line RUNNING, and the sent frame that leaves 32 in a line that the backlog
alone holds. -/
theorem test_witness_FramesWaitForRoomAndRecordsAreSent_backlog :
    ({ crowded .search 95 with lc := (lineAt .running).lc } : State).Open ∧ 95 ≤ (crowded .search 95).ll.upstream.length ∧
    (crowded .search 159).ll.upstream.length ≤ 159 ∧ (lineAt .running).lc.holds = HoldSet.empty ∧
    96 ≤ (crowded .search 96).ll.upstream.length ∧ (crowded .search 33).ll.upstream.length ≤ 33 ∧
    (crowded .search 32).ll.upstream.length ≤ 32 ∧ (crowded .search 33).ll.sending = true ∧
    (held (HoldSet.empty.add .linkBacklog)).lc.holds = { HoldSet.empty with linkBacklog := true } ∧
    (held (HoldSet.empty.add .linkBacklog)).lc.line = .holding ∧ (crowded .search 95).ll.mask.getLsbD 1 = true ∧
    (after (.statusRead quiet 7 []) { crowded .search 95 with lc := (lineAt .running).lc }).map (fun t => t.lc.line) =
      some .holding ∧
    (after (.upstreamFrameSent quiet)
      { crowded .search 33 with lc := (held (HoldSet.empty.add .linkBacklog)).lc }).map (fun t => t.lc.line) =
      some .running := by decide +kernel

theorem test_witness_TheLinkAnswersItsOwnRecords : 2048 ≤ (2048#16).toNat ∧ 32 ≤ (32 : Byte).toNat ∧
    ((10 : Byte).toNat = 0 ∨ 9 < (10 : Byte).toNat) := by decide

end Sys2Proof.Tests
end

section
/-! PROOFS. The speed window (R11, R12): the values of the Motion Unit that only counts and window ends write, the operations that
leave them alone, and what each motion event does to them. -/

namespace Sys2Proof.Machine

/-! ## The values that only a count or a window's end writes -/

/-- The Motion Unit without its profile, accumulator, encoder pins, simulated source and error counters, which line records and
stops write too: outside reset, what is left is written by counts and window ends alone. -/
structure MotionTiming where
  phase : Nat
  len : Nat
  pitch : PitchIndex
  windowCount : Int
  speed : Nat

/-- The timing values of a Motion Unit. -/
def MotionUnit.timing (m : MotionUnit) : MotionTiming :=
  { phase := m.phase, len := m.len, pitch := m.pitch, windowCount := m.windowCount, speed := m.speed }

theorem windowCount_eq_of_timing {m n : MotionUnit} (h : m.timing = n.timing) : m.windowCount = n.windowCount :=
  congrArg MotionTiming.windowCount h

/-! ## Operations that leave the timing values alone -/

/-- Leaving the firing states writes the simulated source alone in the Motion Unit (R5). -/
@[simp] theorem leaveFiring_timing (s : State) : (leaveFiring s).mu.timing = s.mu.timing := by
  obtain ⟨-, -, -, hmu⟩ := leaveFiring_outputs s
  rw [hmu]
  rfl

@[simp] theorem stopLine_timing (l : LineState) (s : State) : (stopLine l s).mu.timing = s.mu.timing := by
  unfold stopLine; split <;> simp

@[simp] theorem reportTrackClear_timing (s : State) : (reportTrackClear s).mu.timing = s.mu.timing := by
  unfold reportTrackClear; split <;> simp

@[simp] theorem stopFault_timing (c : FaultCause) (st : Option StationNo) (s : State) :
    (stopFault c st s).mu.timing = s.mu.timing := by
  unfold stopFault
  split
  · simp
  · simp [beginEpisode]

@[simp] theorem lose_timing (c : Context) (pitch : PitchIndex) (s : State) : (lose c pitch s).mu.timing = s.mu.timing := by
  simp [lose]

@[simp] theorem stackEvent_timing (i : StationNo) (s : State) : (stackEvent i s).mu.timing = s.mu.timing := by
  unfold stackEvent; (repeat' split) <;> simp [deliver]

@[simp] theorem stackCloseOut_timing (ended : PitchIndex) (s : State) :
    (stackCloseOut ended s).mu.timing = s.mu.timing := by
  unfold stackCloseOut; split <;> simp

@[simp] theorem dispatchJob_timing (s : State) : (dispatchJob s).mu.timing = s.mu.timing := by
  unfold dispatchJob; dsimp only; (repeat' split) <;> simp

@[simp] theorem printFired_timing (i : StationNo) (s : State) : (printFired i s).mu.timing = s.mu.timing := by
  unfold printFired; (repeat' split) <;> simp

@[simp] theorem divert_timing (c : Context) (g : Nat) (pitch : PitchIndex) (s : State) :
    (divert c g pitch s).mu.timing = s.mu.timing := by
  unfold divert; dsimp only; split <;> simp

@[simp] theorem divertGhost_timing (g : Nat) (s : State) : (divertGhost g s).mu.timing = s.mu.timing := by
  simp [divertGhost]

@[simp] theorem decideGate_timing (atFirePoint : Bool) (g : Nat) (pitch : PitchIndex) (s : State) :
    (decideGate atFirePoint g pitch s).2.mu.timing = s.mu.timing := by
  unfold decideGate; dsimp only; (repeat' split) <;> simp

@[simp] theorem gateFirePoint_timing (s : State) : (gateFirePoint s).2.mu.timing = s.mu.timing := by
  unfold gateFirePoint; dsimp only; (repeat' split) <;> simp

@[simp] theorem gateCloseOut_timing (ended : PitchIndex) (s : State) : (gateCloseOut ended s).mu.timing = s.mu.timing := by
  unfold gateCloseOut; (repeat' split) <;> simp

/-! ## The tasks of a count and the boundary's work -/

@[simp] theorem fireInFiring_timing (i : StationNo) (s : State) : (fireInFiring i s).mu.timing = s.mu.timing := by
  unfold fireInFiring; (repeat' split) <;> simp

@[simp] theorem takeFirePoint_timing (i : StationNo) (s : State) : (takeFirePoint i s).mu.timing = s.mu.timing := by
  unfold takeFirePoint; dsimp only; split <;> simp

@[simp] theorem runTask_timing (forward : Bool) (s : State) (task : CountTask) :
    (runTask forward s task).mu.timing = s.mu.timing := by
  cases task with
  | firePoint i => unfold runTask; dsimp only; split <;> simp
  | windowClose i => unfold runTask; dsimp only; split <;> simp
  | caliper i => unfold runTask; dsimp only; split <;> simp
  | jam i => unfold runTask; dsimp only; split <;> simp [raiseJam]

/-- The tasks of a count leave the timing values alone, in whatever order they are taken. -/
@[simp] theorem takeTasks_timing (forward : Bool) (s : State) : (takeTasks forward s).mu.timing = s.mu.timing := by
  have key : ∀ (tasks : List CountTask) (u : State), (tasks.foldl (runTask forward) u).mu.timing = u.mu.timing := by
    intro tasks
    induction tasks with
    | nil => intro u; rfl
    | cons task tasks ih => intro u; rw [List.foldl_cons, ih, runTask_timing]
  rw [takeTasks, countUp_mu, key]

/-- Of all the boundary's work only the Motion Unit's own writes the timing values (R8). -/
theorem pitchBoundary_timing (s : State) : (pitchBoundary s).mu.timing = (motionBoundary s).mu.timing := by
  simp [pitchBoundary, closeOut]

/-! ## The taking of a frame -/

@[simp] theorem ownTableWrite_timing (payload : List Byte) (s : State) :
    (ownTableWrite payload s).1.mu.timing = s.mu.timing := by
  have profile (index : Nat) (entry : List Byte) : (writeProfile index entry s).1.mu.timing = s.mu.timing := by
    unfold writeProfile stoppedWrite checkedWrite; (repeat' split) <;> rfl
  unfold ownTableWrite ownerWrite
  (repeat' split) <;> simp [profile]

/-- No line command, RUN_RESET among them, writes a timing value (R15). -/
@[simp] theorem ownLineCommand_timing (payload : List Byte) (s : State) :
    (ownLineCommand payload s).1.mu.timing = s.mu.timing := by
  have start : (lineStart s).1.mu.timing = s.mu.timing := by
    have source (u : State) : (startSource u).mu.timing = u.mu.timing := by unfold startSource; split <;> rfl
    unfold lineStart; (repeat' split) <;> simp [stateRefusal, lineOk, acceptStart, source]
  have runOut : (lineRunOut s).1.mu.timing = s.mu.timing := by
    unfold lineRunOut; (repeat' split) <;> simp [stateRefusal, lineOk]
  have stopNow : (lineStopNow s).1.mu.timing = s.mu.timing := by
    unfold lineStopNow; split <;> simp [stateRefusal, lineOk]
  have runReset : (lineRunReset s).1.mu.timing = s.mu.timing := by
    have motion : (resetMotion s).mu.timing = s.mu.timing := rfl
    unfold lineRunReset; split <;> simp [stateRefusal, lineOk, runResetAll, motion]
  unfold ownLineCommand
  (repeat' split) <;> simp [start, runOut, stopNow, runReset]

@[simp] theorem ownFrame_timing (kind : Byte) (payload : List Byte) (s : State) :
    (ownFrame kind payload s).1.mu.timing = s.mu.timing := by
  unfold ownFrame; split <;> simp

/-- The end of an event leaves the timing values alone, whatever held frame it takes. -/
@[simp] theorem finish_timing (s : State) : (finish s).mu.timing = s.mu.timing := by
  have held : (takeHeld s).mu.timing = s.mu.timing := by
    unfold takeHeld; split <;> simp [takeFrame]
  simp [finish, held]

/-! ## What a count does to the speed-window count (R11) -/

/-- The phase goes on or the pitch ends; neither touches the speed-window count. -/
theorem advancePhase_windowCount (s : State) : (advancePhase s).mu.windowCount = s.mu.windowCount := by
  unfold advancePhase
  split
  · rw [endDuePulses_mu]; rfl
  · exact (windowCount_eq_of_timing (pitchBoundary_timing s)).trans rfl

theorem forwardCount_windowCount (s : State) : (forwardCount s).mu.windowCount = windowUp s.mu.windowCount := by
  calc (forwardCount s).mu.windowCount
      = (senseCount (advancePhase (countForward s))).mu.windowCount :=
        windowCount_eq_of_timing (takeTasks_timing true _)
    _ = (countForward s).mu.windowCount := by rw [senseCount_mu, advancePhase_windowCount]
    _ = windowUp s.mu.windowCount := rfl

theorem reverseCount_windowCount (s : State) : (reverseCount s).mu.windowCount = windowDown s.mu.windowCount :=
  windowCount_eq_of_timing (takeTasks_timing false (lowerPhase (countReverse s)))

theorem illegalTransition_windowCount (s : State) : (illegalTransition s).mu.windowCount = s.mu.windowCount :=
  windowCount_eq_of_timing (stopFault_timing .motion none _)

/-! ## The table of R3 -/

theorem edgeKind_of_mem_forwardEdges (lastA lastB a b : Bool) (h : (lastA, lastB, a, b) ∈ forwardEdges) :
    edgeKind lastA lastB a b = .forward := by
  revert lastA lastB a b; decide

theorem edgeKind_of_mem_reverseEdges (lastA lastB a b : Bool) (h : (lastA, lastB, a, b) ∈ reverseEdges) :
    edgeKind lastA lastB a b = .reverse := by
  revert lastA lastB a b; decide

theorem edgeKind_of_mem_illegalEdges (lastA lastB a b : Bool) (h : (lastA, lastB, a, b) ∈ illegalEdges) :
    edgeKind lastA lastB a b = .illegal := by
  revert lastA lastB a b; decide

/-- What a new state of the encoder pins does to the speed-window count, by what it yields (R11). -/
def EdgeKind.window : EdgeKind → Int → Int
  | .noChange, n => n
  | .forward, n => windowUp n
  | .reverse, n => windowDown n
  | .illegal, n => n

theorem encoderState_windowCount (a b : Bool) (s : State) (hsrc : s.mu.profile.source = .encoder) :
    (encoderState a b s).mu.windowCount = (edgeKind s.mu.encA s.mu.encB a b).window s.mu.windowCount := by
  unfold encoderState
  simp only [hsrc]
  cases edgeKind s.mu.encA s.mu.encB a b with
  | noChange => rfl
  | forward => exact forwardCount_windowCount _
  | reverse => exact reverseCount_windowCount _
  | illegal => exact illegalTransition_windowCount _

/-! ## The motion events -/

/-- A motion event outside reset ends with the timing values its work leaves, whether or not it takes a held frame. -/
theorem event_timing (p : Pins) (work : State → State) (s : State) (h : s.inReset = false) :
    ∃ t, event p work s = .next t ∧ t.mu.timing = (work (setPins p s)).mu.timing :=
  ⟨_, event_open p work s h, finish_timing _⟩

/-- An event leaves the speed-window count that its work gives it. -/
theorem event_windowCount (p : Pins) (work : State → State) (s : State) (n : Int) (h : s.inReset = false)
    (hw : (work (setPins p s)).mu.windowCount = n) :
    ∃ t, event p work s = .next t ∧ t.mu.windowCount = n := by
  obtain ⟨t, ht, htiming⟩ := event_timing p work s h
  exact ⟨t, ht, (windowCount_eq_of_timing htiming).trans hw⟩

theorem exec_encoderEdge_windowCount (p : Pins) (a b : Bool) (s : State) (h : s.inReset = false)
    (hsrc : s.mu.profile.source = .encoder) :
    ∃ t, exec (.encoderEdge p a b) s = .next t ∧
      t.mu.windowCount = (edgeKind s.mu.encA s.mu.encB a b).window s.mu.windowCount :=
  event_windowCount p (encoderState a b) s _ h (encoderState_windowCount a b (setPins p s) hsrc)

theorem exec_simulatedCount_windowCount (p : Pins) (s : State) (rate issued : Nat) (h : s.inReset = false)
    (hsim : s.mu.sim = .generating rate issued) :
    ∃ t, exec (.simulatedCount p) s = .next t ∧ t.mu.windowCount = windowUp s.mu.windowCount := by
  refine event_windowCount p simulatedTick s _ h ?_
  unfold simulatedTick
  rw [setPins_mu, hsim]
  exact forwardCount_windowCount _

/-! ## The end of a window (R12) -/

/-- S floored at 0 and held at 4095. -/
theorem speedOf_eq (n : Int) : speedOf n = if n ≤ 0 then 0 else if 4095 ≤ n then 4095 else n.toNat := by
  unfold speedOf
  split
  · omega
  · split <;> omega

/-- With a short queue and no frame held, a window's end is the Motion Unit's work and the transmitter's start alone. -/
theorem exec_speedWindowExpiry_calm (p : Pins) (s : State) (h : s.Calm) :
    exec (.speedWindowExpiry p) s = .next (beginSending (windowExpiry (setPins p s))) := by
  obtain ⟨hreset, hheld, hshort, hbacklog⟩ := h
  have hquiet : (windowExpiry (setPins p s)).ll.upstream.length < 96 := Nat.lt_of_le_of_lt hshort (by decide)
  exact (event_open p windowExpiry s hreset).trans (congrArg _ (finish_quiet _ hheld hquiet hbacklog))

/-- Settles O21: each motion event through what its count does to the speed-window count, which the rest of the event, a held
frame's taking included, leaves alone. -/
theorem speedWindowCountsAndSetsTheSpeed : Obligations.SpeedWindowCountsAndSetsTheSpeed := by
  refine ⟨fun p a b s h hsrc => ?_, ?_, fun p s hcalm => ?_, fun p s h => ?_⟩
  · have hexec := exec_encoderEdge_windowCount p a b s h hsrc
    refine ⟨fun hedge => ?_, fun hedge => ?_, fun hedge => ?_⟩
    · rwa [edgeKind_of_mem_forwardEdges _ _ _ _ hedge] at hexec
    · rwa [edgeKind_of_mem_reverseEdges _ _ _ _ hedge] at hexec
    · rwa [edgeKind_of_mem_illegalEdges _ _ _ _ hedge] at hexec
  · exact fun p s rate issued => exec_simulatedCount_windowCount p s rate issued
  · rw [exec_speedWindowExpiry_calm p s hcalm, ← speedOf_eq]
    rfl
  · obtain ⟨t, ht, htiming⟩ := event_timing p windowExpiry s h
    obtain ⟨hphase, hlen, hpitch, hcount, hspeed⟩ := MotionTiming.mk.inj htiming
    exact ⟨t, ht, hcount, hspeed.trans (speedOf_eq _), hphase, hpitch, hlen⟩

end Sys2Proof.Machine
end

section
/-! PROOFS. The averaging of pitch lengths (R8, R9): the number of long pitches among the next n is the number of times that n
additions of F carry the accumulator past 256. -/

namespace Sys2Proof.Machine

/-- The number of times that n additions of F to A reach a multiple of 256. -/
def LineProfile.carries (p : LineProfile) (acc n : Nat) : Nat := (acc + n * p.f) / 256

section
variable (p : LineProfile) (acc n : Nat)

@[simp] theorem nextPitch_snd : (nextPitch p acc).2 = (acc + p.f) % 256 := by
  unfold nextPitch; split <;> rfl

/-- The next pitch is P counts long, and one more where its addition carries (R8). -/
theorem nextPitch_fst (hf : p.f ≤ 255) (hacc : acc ≤ 255) : (nextPitch p acc).1 = p.p + p.carries acc 1 := by
  unfold nextPitch LineProfile.carries
  split <;> simp only <;> omega

theorem carries_zero (hacc : acc ≤ 255) : p.carries acc 0 = 0 := by
  unfold LineProfile.carries; omega

theorem carries_one_le (hf : p.f ≤ 255) (hacc : acc ≤ 255) : p.carries acc 1 ≤ 1 := by
  unfold LineProfile.carries; omega

/-- 256 additions carry exactly F times. -/
theorem carries_256 (hacc : acc ≤ 255) : p.carries acc 256 = p.f := by
  unfold LineProfile.carries; omega

/-- The carries of n + 1 additions: that of the first, and those of n from the accumulator it leaves. -/
theorem carries_succ : p.carries acc (n + 1) = p.carries acc 1 + p.carries ((acc + p.f) % 256) n := by
  have hsplit : acc + (n + 1) * p.f = (acc + p.f) % 256 + n * p.f + 256 * ((acc + p.f) / 256) := by
    have := Nat.mod_add_div (acc + p.f) 256
    have : (n + 1) * p.f = n * p.f + p.f := Nat.succ_mul n p.f
    omega
  unfold LineProfile.carries
  rw [hsplit, Nat.add_mul_div_left _ _ (by decide), one_mul, Nat.add_comm]

end

section
variable {p : LineProfile} (hf : p.f ≤ 255)
include hf

/-- The sum of the next n pitch lengths. -/
theorem sum_pitchLengths (n : Nat) : ∀ acc ≤ 255, (pitchLengths p n acc).sum = n * p.p + p.carries acc n := by
  induction n with
  | zero => intro acc hacc; simp [pitchLengths, carries_zero p acc hacc]
  | succ n ih =>
    intro acc hacc
    rw [pitchLengths, List.sum_cons, nextPitch_fst p acc hf hacc, nextPitch_snd, ih _ (by omega), carries_succ p acc n,
      Nat.succ_mul]
    omega

/-- The number of long pitches among the next n. -/
theorem count_long_pitchLengths (n : Nat) :
    ∀ acc ≤ 255, (pitchLengths p n acc).count (p.p + 1) = p.carries acc n := by
  induction n with
  | zero => intro acc hacc; simp [pitchLengths, carries_zero p acc hacc]
  | succ n ih =>
    intro acc hacc
    have hfirst : (if (p.p + p.carries acc 1 == p.p + 1) = true then 1 else 0) = p.carries acc 1 := by
      rcases Nat.le_one_iff_eq_zero_or_eq_one.mp (carries_one_le p acc hf hacc) with h | h <;> simp [h]
    rw [pitchLengths, List.count_cons, nextPitch_fst p acc hf hacc, nextPitch_snd, ih _ (by omega), hfirst,
      carries_succ p acc n]
    omega

/-- The k-th pitch is longer than P by the carries of its own addition. -/
theorem getElem?_pitchLengths (n : Nat) : ∀ acc ≤ 255, ∀ k l, (pitchLengths p n acc)[k]? = some l →
    l + p.carries acc k = p.p + p.carries acc (k + 1) := by
  induction n with
  | zero => intro acc _ k l h; simp [pitchLengths] at h
  | succ n ih =>
    intro acc hacc k l h
    cases k with
    | zero =>
      have hl : (nextPitch p acc).1 = l := by simpa [pitchLengths] using h
      rw [← hl, nextPitch_fst p acc hf hacc, carries_zero p acc hacc]
      rfl
    | succ k =>
      have hrest := ih ((acc + p.f) % 256) (by omega) k l (by simpa [pitchLengths] using h)
      rw [carries_succ p acc k, carries_succ p acc (k + 1)]
      omega

end

/-- Every pitch length is P or P + 1 (R8). -/
theorem mem_pitchLengths (p : LineProfile) (n : Nat) :
    ∀ acc, ∀ l ∈ pitchLengths p n acc, l = p.p ∨ l = p.p + 1 := by
  induction n with
  | zero => intro acc l h; simp [pitchLengths] at h
  | succ n ih =>
    intro acc l h
    rcases List.mem_cons.mp h with rfl | h
    · unfold nextPitch; split <;> simp
    · exact ih _ l h

/-- With F = 0 no addition carries, and every pitch is P counts long. -/
theorem mem_pitchLengths_of_f_zero {p : LineProfile} (hf : p.f = 0) {acc n l : Nat} (hacc : acc ≤ 255)
    (h : l ∈ pitchLengths p n acc) : l = p.p := by
  obtain ⟨k, hk⟩ := List.getElem?_of_mem h
  have hlen := getElem?_pitchLengths (by omega) n acc hacc k l hk
  simp only [LineProfile.carries, hf, Nat.mul_zero] at hlen
  omega

/-- Pitches i + 1 to j − 1 of length P leave the carries as they stand after pitch i. -/
theorem carries_eq_of_short_between {p : LineProfile} (hf : p.f ≤ 255) {acc n i j : Nat} (hacc : acc ≤ 255) (hij : i < j)
    (hshort : ∀ k, i < k → k < j → (pitchLengths p n acc)[k]? = some p.p) : p.carries acc j = p.carries acc (i + 1) := by
  induction j, hij using Nat.le_induction with
  | base => rfl
  | succ j hij ih =>
    have hj := getElem?_pitchLengths hf n acc hacc j p.p (hshort j hij (Nat.lt_succ_self j))
    have hprev := ih (fun k hik hkj => hshort k hik (Nat.lt_succ_of_lt hkj))
    omega

/-- A distance d with (d − 1) F < 256 < (d + 1) F is the quotient 256 / F rounded down or up. -/
theorem eq_div_or_ceilDiv {f d : Nat} (hlow : 256 < (d + 1) * f) (hhigh : (d - 1) * f < 256) :
    d = 256 / f ∨ d = (256 + f - 1) / f := by
  have hpos : 0 < f := by
    by_contra h
    simp [Nat.eq_zero_of_not_pos h] at hlow
  have hfloor : 256 / f < d + 1 := (Nat.div_lt_iff_lt_mul hpos).2 hlow
  have hceil : (256 + f - 1) / f = 255 / f + 1 := by
    rw [show 256 + f - 1 = 255 + f by omega, Nat.add_div_right _ hpos]
  have hupper : d - 1 ≤ 255 / f := (Nat.le_div_iff_mul_le hpos).2 (by omega)
  have hmono : 255 / f ≤ 256 / f := Nat.div_le_div_right (by decide)
  omega

/-- Two consecutive long pitches stand 256 / F apart, rounded down or up (R9): the accumulator gains more than 256 over the
pitches from the first to the second, both counted, and less than 256 over those strictly between. -/
theorem distance_of_consecutive_long {p : LineProfile} (hf : p.f ≤ 255) {acc n i j : Nat} (hacc : acc ≤ 255) (hij : i < j)
    (hi : (pitchLengths p n acc)[i]? = some (p.p + 1)) (hj : (pitchLengths p n acc)[j]? = some (p.p + 1))
    (hshort : ∀ k, i < k → k < j → (pitchLengths p n acc)[k]? = some p.p) :
    j - i = 256 / p.f ∨ j - i = (256 + p.f - 1) / p.f := by
  have hcarryI := getElem?_pitchLengths hf n acc hacc i _ hi
  have hcarryJ := getElem?_pitchLengths hf n acc hacc j _ hj
  have hbetween := carries_eq_of_short_between hf hacc hij hshort
  unfold LineProfile.carries at hcarryI hcarryJ hbetween
  refine eq_div_or_ceilDiv ?_ ?_
  · have : (j + 1) * p.f = i * p.f + (j - i + 1) * p.f := by
      rw [← Nat.add_mul]; congr 1; omega
    omega
  · have : j * p.f = (i + 1) * p.f + (j - i - 1) * p.f := by
      rw [← Nat.add_mul]; congr 1; omega
    omega

/-- Settles O22, by counting the carries of the accumulator. -/
theorem pitchLengthsAverageExactly : Obligations.PitchLengthsAverageExactly := by
  intro p acc hf hacc
  refine ⟨?_, ?_, fun n => mem_pitchLengths p n acc, fun h0 n l => mem_pitchLengths_of_f_zero h0 hacc, ?_⟩
  · rw [sum_pitchLengths hf 256 acc hacc, carries_256 p acc hacc]
  · rw [count_long_pitchLengths hf 256 acc hacc, carries_256 p acc hacc]
  · intro n i j hij _ hi hj hshort
    have := distance_of_consecutive_long hf hacc hij hi hj hshort
    omega

end Sys2Proof.Machine
end

section
/-! PROOFS. Events: what a command can be, the end of an event, power-on reset and reset entry, and a record command between frames. -/

namespace Sys2Proof.Machine

/-! ## What a command can be -/

/-- The work of an event, by the kind of its command: reset apart, every command is one of these. -/
inductive EventWork : (State → State) → Prop
  | encoder (a b : Bool) : EventWork (encoderState a b)
  | simulated : EventWork simulatedTick
  | windowEnd : EventWork windowExpiry
  | reader (v : ReadResult) : EventWork (fun s => readerArrival v (setReader .idle s))
  | readerDiscard : EventWork (fun s => countReaderError (setReader .idle s))
  | readerGap : EventWork readerGap
  | readerOctet (o : Byte) : EventWork (readerOctet o)
  | cleared : EventWork (fun s => printerCleared (setPrinterReceive .idle s))
  | taken (t : Tag) : EventWork (fun s => printerTaken t (setPrinterReceive .idle s))
  | done (t : Tag) (r : PrintResult) : EventWork (fun s => printerDone t r (setPrinterReceive .idle s))
  | printerDiscard : EventWork (fun s => countPrinterError (setPrinterReceive .idle s))
  | printerGap : EventWork printerGap
  | printerOctet (o : Byte) : EventWork (printerOctet o)
  | printerSent : EventWork printerSent
  | linkOctet (o : Byte) : EventWork (receiveOctet o)
  | frameGap : EventWork frameGap
  | held : EventWork takeHeld
  | frame (kind : Byte) (payload : List Byte) : EventWork (arriveFrame kind payload)
  | resolution : EventWork completeResolution
  | estop : EventWork estopFault
  | ready : EventWork id
  | sent : EventWork frameSent

/-- Every command ends a reset, begins one, or is an event. -/
theorem exec_cases (c : Instr) (s : State) :
    (∃ p a b, c = .powerOnReset p a b ∧ exec c s = .next (finish (powerOn p a b s))) ∨
    (∃ p, c = .resetEntry p ∧ exec c s = .next (enterReset s)) ∨
    (∃ p work, EventWork work ∧ exec c s = event p work s) := by
  have ev (p : Pins) {work : State → State} (h : EventWork work) (he : exec c s = event p work s) :
      (∃ p a b, c = .powerOnReset p a b ∧ exec c s = .next (finish (powerOn p a b s))) ∨
      (∃ p, c = .resetEntry p ∧ exec c s = .next (enterReset s)) ∨
      (∃ p work, EventWork work ∧ exec c s = event p work s) := .inr (.inr ⟨p, work, h, he⟩)
  cases c with
  | powerOnReset p a b => exact .inl ⟨p, a, b, rfl, rfl⟩
  | resetEntry p => exact .inr (.inl ⟨p, rfl, rfl⟩)
  | encoderEdge p a b => exact ev p (.encoder a b) rfl
  | simulatedCount p => exact ev p .simulated rfl
  | speedWindowExpiry p => exact ev p .windowEnd rfl
  | read p v => exact ev p (.reader (.value v)) rfl
  | noRead p => exact ev p (.reader .noRead) rfl
  | readerMessageDiscard p => exact ev p .readerDiscard rfl
  | readerOctetTimeout p => exact ev p .readerGap rfl
  | readerPortOctet p o => exact ev p (.readerOctet o) rfl
  | cleared p => exact ev p .cleared rfl
  | taken p t => exact ev p (.taken t) rfl
  | done p t r => exact ev p (.done t r) rfl
  | printerMessageDiscard p => exact ev p .printerDiscard rfl
  | printerOctetTimeout p => exact ev p .printerGap rfl
  | printerPortOctet p o => exact ev p (.printerOctet o) rfl
  | printerMessageSent p => exact ev p .printerSent rfl
  | linkOctet p o => exact ev p (.linkOctet o) rfl
  | frameTimeout p => exact ev p .frameGap rfl
  | heldFrameTaken p => exact ev p .held rfl
  | resolutionComplete p => exact ev p .resolution rfl
  | estopActive p => exact ev (estopPins p) .estop rfl
  | lrdyInActive p => exact ev (readyPins p) .ready rfl
  | upstreamFrameSent p => exact ev p .sent rfl
  | _ => exact ev _ (.frame _ _) rfl

/-- An event answers the state as it is while reset lasts, and otherwise the state its work and its end leave. -/
theorem event_next (p : Pins) (work : State → State) (s t : State) (h : event p work s = .next t) :
    (s.inReset = true ∧ t = s) ∨ (s.inReset = false ∧ t = finish (work (setPins p s))) := by
  unfold event at h
  split at h <;> rename_i hr
  · exact .inl ⟨hr, (Host.Outcome.next.inj h).symm⟩
  · exact .inr ⟨Bool.eq_false_iff.mpr hr, (Host.Outcome.next.inj h).symm⟩

/-- Every command answers a next state. -/
theorem exec_total (c : Instr) (s : State) : ∃ t, exec c s = .next t := by
  rcases exec_cases c s with ⟨p, a, b, -, h⟩ | ⟨p, -, h⟩ | ⟨p, work, -, h⟩
  · exact ⟨_, h⟩
  · exact ⟨_, h⟩
  · rw [h]
    cases hr : s.inReset with
    | true => exact ⟨_, event_inReset p work s hr⟩
    | false => exact ⟨_, event_open p work s hr⟩

/-- What a step can do: nothing, or one of the three kinds of command on the state with the queue's rest. -/
theorem step_cases (s t : State) (h : step s = .next t) :
    t = s ∨ ∃ q : List Instr,
      (∃ p a b, t = finish (powerOn p a b (s.withPending q))) ∨ t = enterReset (s.withPending q) ∨
      t = s.withPending q ∨
      (∃ p work, EventWork work ∧ s.inReset = false ∧ t = finish (work (setPins p (s.withPending q)))) := by
  unfold step at h
  split at h
  · exact .inl (Host.Outcome.next.inj h).symm
  · rename_i c q _
    refine .inr ⟨q, ?_⟩
    rcases exec_cases c (s.withPending q) with ⟨p, a, b, -, he⟩ | ⟨p, -, he⟩ | ⟨p, work, hw, he⟩
    · exact .inl ⟨p, a, b, (Host.Outcome.next.inj (he.symm.trans h)).symm⟩
    · exact .inr (.inl (Host.Outcome.next.inj (he.symm.trans h)).symm)
    · rcases event_next p work _ t (he.symm.trans h) with ⟨-, ht⟩ | ⟨hr, ht⟩
      · exact .inr (.inr (.inl ht))
      · exact .inr (.inr (.inr ⟨p, work, hw, hr, ht⟩))

/-- Settles O1. -/
theorem stepRunsTheFrontCommand : Obligations.StepRunsTheFrontCommand := by
  refine ⟨fun c rest s h => ?_, fun s h => ?_, exec_total⟩
  · simp [step, h]
  · simp [step, h]

/-! ## Reset -/

/-- Outside the firing states a passage to another state outside them writes the line state alone. -/
theorem stopLine_outside (l : LineState) (s : State) (h : s.firing = false) : stopLine l s = setLine l s := by
  simp [stopLine, h]

/-- Settles O2: each invariant is a fact of the one state after reset. -/
theorem resetMeetsTheInvariants : Obligations.ResetMeetsTheInvariants := by
  have ghosts : State.reset.GhostsSound := by
    intro pos h
    have : State.reset.contentAt pos = .empty := by
      simp only [State.contentAt, State.reset, TrackUnit.por, List.getD_eq_getElem?_getD, List.getElem?_replicate]
      split <;> rfl
    simp [this, Content.isGhost] at h
  have free (i : Fin 16) : State.reset.au.staging[i] = .free := by simp [State.reset, AdmissionUnit.por]
  have staging : State.reset.StagingSound := by
    refine ⟨List.nodup_nil, fun i => ?_, fun i => ?_⟩
    · simp only [free, ne_eq, not_true_eq_false, iff_false]; exact List.not_mem_nil
    · rw [free]; exact ⟨fun h => absurd h Bool.false_ne_true, fun h => by cases h⟩
  have flight : State.reset.inFlight = [] := by
    simp [State.inFlight, State.reset, AdmissionUnit.por, TrackUnit.por, GateUnit.por, StagingEntry.ordinal,
      Content.ordinal]
  have ordered : State.reset.orderedOrdinals = [] := by
    simp [State.orderedOrdinals, State.reset, AdmissionUnit.por, TrackUnit.por, GateUnit.por, Content.ordinal]
  have balance : State.reset.BalanceSound := by
    refine ⟨by decide +kernel, by decide +kernel, ?_, fun b hb => absurd hb List.not_mem_nil⟩
    rw [flight]
    exact fun o ho => absurd ho List.not_mem_nil
  have capacity : State.reset.CapacitySound := by
    refine ⟨?_, by decide +kernel, by decide +kernel, by decide +kernel⟩
    simp [State.trackCopies, State.trackLen, State.reset, TrackUnit.por, GateUnit.por, Content.isCopy]
  have order : State.reset.OrderSound := by
    refine ⟨balance, staging, by rw [ordered]; exact .nil, fun i hi => absurd hi List.not_mem_nil, fun h => absurd ?_ h⟩
    simp [State.receivingEntry, free]
  refine ⟨?_, ?_, ?_, ?_, ?_, ?_, ?_, staging, ⟨fun i h => ?_, fun r h => by cases h⟩, ?_, ghosts, ?_, capacity, balance, order⟩
  case refine_8 => rw [free] at h; cases h
  all_goals decide +kernel

/-- A notice whose kind is ENABLED sets its flag and places its record while 80 places are free (R182). -/
theorem raiseNotice_placed (n : Notice) (s : State) (hmask : s.ll.mask.getLsbD (noticeCode n) = true)
    (hroom : s.hasRoom = true) :
    raiseNotice n s = { s with ll := { s.ll with
      flags := setFlag s.ll.flags (noticeCode n), upstream := s.ll.upstream ++ [.notice n s.mu.pitch] } } := by
  simp [raiseNotice, hmask, hroom, place]

/-- With a short queue and nothing held, power-on reset without ESTOP ends in the state after reset. -/
theorem finish_afterPor (p : Pins) (a b : Bool) (s : State) : finish (s.afterPor p a b) = s.afterPor p a b := by
  rw [finish_quiet (s.afterPor p a b) (by simp [State.afterPor, State.reset, LinkController.por])
    (Nat.zero_lt_succ 95) rfl]
  simp [beginSending, State.afterPor, State.reset, LinkController.por]

/-- Settles O3. -/
theorem powerOnResetSetsEveryUnit : Obligations.PowerOnResetSetsEveryUnit := by
  refine ⟨fun p a b s he => ?_, fun p a b s he => ?_⟩
  · change Host.Outcome.next (finish (powerOn p a b s)) = _
    rw [powerOn, he, if_neg Bool.false_ne_true, finish_afterPor]
    rfl
  · change Host.Outcome.next (finish (powerOn p a b s)) = _
    rw [powerOn, he, if_pos rfl]
    have hline : (s.afterPor p a b).lc.line = .stopped := rfl
    have hroom (u : State) (hau : u.au = AdmissionUnit.por) (hll : u.ll.upstream = []) : u.hasRoom = true := by
      have hfill : u.stagingFill = 0 := by rw [State.stagingFill, hau]; decide +kernel
      simp [State.hasRoom, hfill, hll]
    have hfault : estopFault (s.afterPor p a b) = { s.afterPor p a b with
        lc := { LineControl.por with
          line := .faulted, faults := FaultSet.empty.add .estop, armed := false
          locator := some { cause := .estop, station := none, pitch := 0, seq := none } }
        ll := { LinkController.por with upstream := [.notice (.fault .estop none none 0) 0], flags := 1 } } := by
      rw [estopFault, stopFault, hline, if_neg (by decide), beginEpisode, stopLine_outside _ _ rfl]
      dsimp only [Option.bind_none]
      rw [raiseNotice_placed _ _ (show (0x2FF#11).getLsbD 0 = true by decide) (hroom _ rfl rfl)]
      exact congrArg (fun f : BitVec 11 => ({ s.afterPor p a b with
        lc := { LineControl.por with
          line := .faulted, faults := FaultSet.empty.add .estop, armed := false
          locator := some { cause := .estop, station := none, pitch := 0, seq := none } }
        ll := { LinkController.por with upstream := [.notice (.fault .estop none none 0) 0], flags := f } } : State))
        (show setFlag 0 0 = 1 by decide)
    rw [hfault, finish_quiet _ (by simp [LinkController.por]) (by simp) rfl]
    cases hl : p.lrdyIn <;> simp [beginSending, State.afterPor, LinkController.por, hl]

/-- Settles O4. -/
theorem resetTakesNoEvent : Obligations.ResetTakesNoEvent := by
  refine ⟨fun p s => ⟨enterReset s, rfl, rfl, fun k => ?_, ?_, ?_, ?_, fun i => ?_, rfl, rfl, rfl⟩, fun c s hr hp he => ?_⟩
  · simp [State.outLevel, enterReset]
  · simp [State.readyOut, enterReset]
  · simp [State.upstreamFrame, enterReset]
  · simp [State.printerFrameOut, enterReset]
  · exact congrArg FireWork.pulse (fireWork_endPulses i s)
  · rcases exec_cases c s with ⟨p, a, b, hc, -⟩ | ⟨p, hc, -⟩ | ⟨p, work, -, h⟩
    · exact absurd hc (hp p a b)
    · exact absurd hc (he p)
    · rw [h, event_inReset p work s hr]

end Sys2Proof.Machine
end

section
/-! PROOFS. Acts: what the units of the part do, as a list of single changes. Every command is a run of acts (P03), so an invariant
that every act keeps is kept by every command. -/

namespace Sys2Proof.Machine

/-! ## The conditions under which the acts stand -/

/-- What a content is apart from the marks, the tag and the verify result of its context: nothing, a GHOST, or a copy. -/
def Content.core : Content → Option (Option StagedCopy)
  | .empty => none
  | .ghost _ => some none
  | .copy c => some (some c.copy)

/-- The Motion Unit's values stand in their ranges. -/
abbrev MotionUnit.Sound (m : MotionUnit) : Prop :=
  m.phase < m.len ∧ 64 ≤ m.len ∧ m.len ≤ 8192 ∧ m.acc ≤ 255 ∧ m.speed ≤ 4095 ∧
  -32768 ≤ m.windowCount ∧ m.windowCount ≤ 32767 ∧ m.profile.Sound

/-- The printer port's count, job list and synchronisation agree. -/
abbrev PrinterPort.Sound (p : PrinterPort) : Prop :=
  (p.synchronised = true ↔ p.clears = 0) ∧ p.clears ≤ 255 ∧
  (p.synchronised = false → p.jobs = [] ∧ p.nextTag = 0) ∧
  p.jobs.length ≤ 16 ∧ p.jobs.map Job.tag = tagRun p.nextTag p.jobs.length

/-- A counter stays, or takes a value of 16 bits. -/
abbrev Counts (n m : Nat) : Prop := m ≤ max n 65535

theorem Counts.same (n : Nat) : Counts n n := Nat.le_max_left _ _
theorem Counts.bump (n : Nat) : Counts n (bump n) := by unfold Machine.bump; omega
theorem Counts.zero (n : Nat) : Counts n 0 := Nat.zero_le _

/-! ## The acts -/

/-- What a run of acts may do to staging: in which states it reserves an entry, and whether it takes copies in and resolves
them. -/
structure Scope where
  reserve : State → Prop
  resolve : Prop

/-- A scope in which copies are taken in, and an entry is reserved while none is RECEIVING. -/
structure Scope.Full (may : Scope) : Prop where
  reserve : ∀ u : State, u.receivingEntry = none → may.reserve u
  resolve : may.resolve

/-- One change that a unit of the part makes. Where an invariant rests on more than one change, they are one act. Staging is
changed within the scope `may`. -/
inductive UnitAct (may : Scope) (s : State) : State → Prop
  /-- pins, reset, the model's own count and queue -/
  | input (p : Pins) (r : Bool) (n : Nat) (q : List Instr) :
      UnitAct may s { s with pins := p, inReset := r, countIndex := n, pending := q }
  /-- the Motion Unit; the simulated source begins in a firing state alone -/
  | motion (m : MotionUnit) : (s.mu.Sound → m.Sound) → Counts s.mu.motionErrors m.motionErrors →
      Counts s.mu.reverseAbsorbed m.reverseAbsorbed →
      (s.firing = false → s.mu.sim = .stopped → m.sim = .stopped) → UnitAct may s { s with mu := m }
  /-- the Firing Unit, no pulse beginning -/
  | fire (f : FiringUnit) : f.stations = s.fu.stations →
      (∀ i : StationNo, f.work[i].pulse = true → (s.fireWork i).pulse = true) →
      (f.bundleKick = true → s.fu.bundleKick = true) → (f.trayKick = true → s.fu.trayKick = true) →
      UnitAct may s { s with fu := f }
  | pulse (i : StationNo) : s.firing = true → UnitAct may s (startPulse i s)
  | kick (i : StationNo) : UnitAct may s (takeKick i s)
  | station (i : StationNo) (e : StationEntry) : e.offset ≤ 63 → UnitAct may s (putStation i e s)
  | check (c : CheckUnit) : Counts s.cu.strayProduct c.strayProduct → Counts s.cu.strayRead c.strayRead →
      Counts s.cu.readerErrors c.readerErrors → UnitAct may s { s with cu := c }
  | printer (p : PrinterPort) : (s.pp.Sound → p.Sound) → Counts s.pp.errors p.errors → Counts s.pp.stray p.stray →
      UnitAct may s { s with pp := p }
  /-- marks, tags and verify results on the track -/
  | marks (tr : List Content) : tr.map Content.core = s.tu.track.map Content.core →
      UnitAct may s { s with tu := { s.tu with track := tr } }
  | starved (b : Bool) (n : Nat) : Counts s.tu.starved n →
      UnitAct may s { s with tu := { s.tu with starvedRun := b, starved := n } }
  /-- a context leaves the track, delivered or excepted -/
  | delivered (pos : Nat) (c : Context) : s.contentAt pos = .copy c →
      UnitAct may s (countDelivered c.copy.ordinal c.copy.seq (setContent pos .empty s))
  | excepted (pos : Nat) (c d : Context) : s.contentAt pos = .copy c → d.copy = c.copy →
      UnitAct may s (countExcepted d.copy.ordinal (setContent pos .empty s))
  | complete (o : Word16) : UnitAct may s (testComplete o s)
  /-- a divert to the make-up queue with its sweep -/
  | makeUp (g : Nat) (c d : Context) (pitch : PitchIndex) : s.contentAt g = .copy c → d.copy = c.copy →
      s.tu.gate = some g → UnitAct may s (sendToMakeUp d g pitch (setContent g .empty s))
  | ghostOff (g : Nat) : (s.contentAt g).isGhost = true → UnitAct may s (setContent g .empty s)
  | ghostCount (n : Nat) : Counts s.gm.ghostDiverts n → UnitAct may s { s with gm := { s.gm with ghostDiverts := n } }
  | decided : (∀ g, s.tu.gate = some g → (s.contentAt g).isGhost = false) →
      UnitAct may s { s with gm := { s.gm with decided := true } }
  | untag : UnitAct may s { s with gm := { s.gm with queue := s.gm.queue.map (fun c => { c with tag := none }) } }
  /-- the shift, with the gate-decided flag cleared: no copy stands at T − 1, and no ghost at an undecided gate -/
  | shift : (s.contentAt (s.trackLen - 1)).isCopy = false →
      (s.gm.decided = false → ∀ g, s.tu.gate = some g → (s.contentAt g).isGhost = false) →
      UnitAct may s (newPitchGate (shiftTrack s))
  | remake (c : Context) (rest : List Context) : s.gm.queue = c :: rest → s.contentAt 0 = .empty →
      UnitAct may s (setContent 0 (.copy (c.renewed .remake)) { s with gm := { s.gm with queue := rest } })
  | first (i : Fin 16) (c : StagedCopy) (v : PlanValues) : s.gm.queue = [] → s.contentAt 0 = .empty →
      s.oldestEntry = some (i, .resolved c v) → UnitAct may s (setContent 0 (.copy (firstRelease c v)) (freeEntry i s))
  /-- the text blocks in use -/
  | text (b : BitVec 384) : UnitAct may s { s with au := { s.au with blocksUsed := b } }
  /-- staging, the resolver, the plans and the pool, the copies staying in their entries -/
  | restage (a : AdmissionUnit) : may.resolve → a.order = s.au.order →
      (∀ i : Fin 16, a.staging[i].ordinal = s.au.staging[i].ordinal) →
      (∀ i : Fin 16, a.staging[i] = .receiving ↔ s.au.staging[i] = .receiving) → UnitAct may s { s with au := a }
  | reserve : may.reserve s → UnitAct may s (reserveEntry s)
  | unreserve : UnitAct may s (freeReceiving s)
  | accept (i : Fin 16) (payload : List Byte) (b : Bundle) : may.resolve → s.au.staging[i] = .receiving →
      s.receivingBundle = some b → b.receiving = true →
      UnitAct may s (countReceived b.ordinal (stageCopy i payload b.ordinal s))
  | vacant (i : Fin 16) (c : StagedCopy) : may.resolve → s.au.staging[i].ordinal = some c.ordinal →
      UnitAct may s (freeEntry i (countExcepted c.ordinal s))
  | truncate (b : Bundle) : s.receivingBundle = some b → b.receiving = true → b.received < b.expected →
      UnitAct may s (modifyBundle b.ordinal (fun b => { b with receiving := false, expected := b.received, truncated := true }) s)
  | endReceipt (b : Bundle) : s.receivingBundle = some b → b.receiving = true → ¬ b.received < b.expected →
      UnitAct may s (modifyBundle b.ordinal (fun b => { b with receiving := false }) s)
  | addBundle (payload : List Byte) : 1 ≤ fieldAt2 payload 3 → s.bu.table.length < 8 →
      ((s.bu.table.map Bundle.ordinal).Nodup →
        ∀ b ∈ s.bu.table, s.bu.receiving = some b.ordinal → b.receiving = false) →
      UnitAct may s { s with bu := { s.bu with
        table := s.bu.table ++ [bundleOfPayload payload s.bu.nextOrdinal]
        nextOrdinal := s.bu.nextOrdinal + 1
        receiving := some s.bu.nextOrdinal } }
  | records (rs : List Record) : UnitAct may s (placeAll rs s)
  | notice (n : Notice) : UnitAct may s (raiseNotice n s)
  | hold (c : HoldCause) : UnitAct may s (addHold c s)
  | unhold (h : HoldSet) : (s.lc.holds.isEmpty = true → h.isEmpty = true) → UnitAct may s (reduceHolds h s)
  | stop : s.firing = true → UnitAct may s (stopLine .stopped s)
  | fault (c : FaultCause) (st : Option StationNo) : UnitAct may s (stopFault c st s)
  | runOut : s.lc.line = .running ∨ s.lc.line = .holding → UnitAct may s (setLine .runOut s)
  | start : s.lc.line = .stopped → configRefusal s = none → s.geometryFits = true → UnitAct may s (acceptStart s)
  | endEpisode : s.lc.line = .faulted → UnitAct may s (endEpisode s)
  | displaced (b : Bool) : UnitAct may s { s with lc := { s.lc with displaced := b } }
  | runReset : s.lc.line = .stopped → UnitAct may s (runResetAll s)

/-- A run of acts. -/
abbrev Acts (may : Scope) : State → State → Prop := Relation.ReflTransGen (UnitAct may)

/-- One change of the part: an act of a unit, or a change of the line link's own state. -/
inductive Act (may : Scope) (s : State) : State → Prop
  | unit (t : State) : UnitAct may s t → Act may s t
  | link (l : LinkController) : Counts s.ll.crcErrors l.crcErrors → Counts s.ll.frameTimeouts l.frameTimeouts →
      Counts s.ll.lengthErrors l.lengthErrors → Counts s.ll.receiveOverruns l.receiveOverruns →
      Counts s.ll.noticesDropped l.noticesDropped → Act may s { s with ll := l }

/-- A predicate that every act keeps is kept by a run of acts. -/
theorem Acts.keeps {may : Scope} {P : State → Prop} (h : ∀ s t, UnitAct may s t → P s → P t) {s t : State} (hr : Acts may s t) (hs : P s) : P t := by
  induction hr with
  | refl => exact hs
  | tail _ ha ih => exact h _ _ ha ih

end Sys2Proof.Machine
end

section
/-! PROOFS. Every operation of the units is a run of acts: the operations that the units share, the printer port, the gate and the
boundary, the stations. -/

namespace Sys2Proof.Machine

open Relation

/-! ## The track and its cores -/

@[simp] theorem core_mapContext (f : Context → Context) (hf : ∀ c, (f c).copy = c.copy) (c : Content) :
    (c.mapContext f).core = c.core := by
  cases c <;> simp [Content.mapContext, Content.core, hf]

/-- A change of contents at one position that keeps every core keeps the cores of the track. -/
theorem map_core_modify (tr : List Content) (pos : Nat) (f : Content → Content) (hf : ∀ c, (f c).core = c.core) :
    (tr.modify pos f).map Content.core = tr.map Content.core := by
  refine List.ext_getElem? fun k => ?_
  rw [List.getElem?_map, List.getElem?_map, List.getElem?_modify]
  cases tr[k]? with
  | none => rfl
  | some c => by_cases h : pos = k <;> simp [h, hf]

theorem map_core_set (tr : List Content) (pos : Nat) (c d : Content) (hc : tr.getD pos .empty = c) (hd : d.core = c.core) :
    (tr.set pos d).map Content.core = tr.map Content.core := by
  refine List.ext_getElem? fun k => ?_
  rw [List.getElem?_map, List.getElem?_map, List.getElem?_set]
  rw [List.getD_eq_getElem?_getD] at hc
  by_cases h : pos = k
  · subst h
    by_cases hl : pos < tr.length <;> simp_all
  · simp [h]

theorem core_withdrawContent (jobs : List Job) (c : Content) : (withdrawContent jobs c).core = c.core := by
  cases c with
  | empty => rfl
  | copy c => simp only [withdrawContent]; split <;> rfl
  | ghost t => simp only [withdrawContent]; split <;> rfl

variable {may : Scope} (s : State)

/-! ## Single acts -/

theorem setContent_act (pos : Nat) (c d : Content) (h : s.contentAt pos = c) (hd : d.core = c.core) :
    UnitAct may s (setContent pos d s) := .marks _ (map_core_set _ pos c d h hd)

theorem modifyContext_act (pos : Nat) (f : Context → Context) (hf : ∀ c, (f c).copy = c.copy) :
    UnitAct may s (modifyContext pos f s) :=
  .marks _ (map_core_modify _ pos _ (core_mapContext f hf))

theorem markAt_act (pos : Nat) (m : Mark) : UnitAct may s (markAt pos m s) := modifyContext_act s pos _ fun _ => rfl

theorem suspectAt_act (pos : Nat) : UnitAct may s (suspectAt pos s) := markAt_act s pos .suspect

theorem setCheckWork_act (i : StationNo) (f : CheckWork → CheckWork) : UnitAct may s (setCheckWork i f s) :=
  .check _ (Counts.same _) (Counts.same _) (Counts.same _)

/-- Any change of the stations' working states in the Check Unit. -/
theorem checkWork_act (w : Vector CheckWork 16) : UnitAct may s { s with cu := { s.cu with work := w } } :=
  .check _ (Counts.same _) (Counts.same _) (Counts.same _)

theorem senseCount_act : UnitAct may s (senseCount s) := checkWork_act s _

theorem newPitchChecks_act : UnitAct may s (newPitchChecks s) := checkWork_act s _

theorem place_act (r : Record) : UnitAct may s (place r s) := .records [r]

/-- A change of one station's working state in the Firing Unit that begins no pulse. -/
theorem setFireWork_act (i : StationNo) (f : FireWork → FireWork)
    (hf : (f (s.fireWork i)).pulse = true → (s.fireWork i).pulse = true) : UnitAct may s (setFireWork i f s) := by
  refine .fire _ rfl (fun j hj => ?_) id id
  by_cases h : j = i
  · subst h
    exact hf (by rw [← fireWork_setFireWork j f s]; exact hj)
  · rw [← fireWork_setFireWork_other i j f s h]; exact hj

theorem setOutcome_act (i : StationNo) (o : PitchOutcome) : UnitAct may s (setOutcome i o s) := setFireWork_act s i _ id

theorem freeText_act (blocks : List Nat) : UnitAct may s (freeText blocks s) := .text _

theorem endPulses_act : UnitAct may s (endPulses s) :=
  .fire _ rfl (fun i hi => by
    have h := (congrArg FireWork.pulse (fireWork_endPulses i s)).symm.trans hi
    exact absurd h Bool.false_ne_true) (fun h => absurd h Bool.false_ne_true) (fun h => absurd h Bool.false_ne_true)

theorem endDuePulses_act : UnitAct may s (endDuePulses s) := by
  refine .fire _ rfl (fun i hi => ?_) (fun h => ?_) (fun h => ?_)
  · have h : (endDuePulse s.mu.phase s.fu.work[i]).pulse = true := by rw [← hi, mapAll_get]
    unfold endDuePulse at h
    split at h
    · cases h
    · exact h
  · exact (Bool.and_eq_true_iff.mp h).1
  · exact (Bool.and_eq_true_iff.mp h).1

/-- A change of the Firing Unit outside its stations and pulses. -/
theorem fire_act_of_work (f : FiringUnit) (hst : f.stations = s.fu.stations) (hw : f.work = s.fu.work)
    (hb : f.bundleKick = s.fu.bundleKick) (ht : f.trayKick = s.fu.trayKick) : UnitAct may s { s with fu := f } :=
  .fire _ hst (fun i hi => by rw [hw] at hi; exact hi) (fun h => hb ▸ h) (fun h => ht ▸ h)

theorem latchPitch_acts : Acts may s (latchPitch s) :=
  (ReflTransGen.single (endPulses_act s)).tail (fire_act_of_work (endPulses s) _ rfl rfl rfl rfl)

/-- A change of every station's working state in the Firing Unit that begins no pulse. -/
theorem fireWorks_act (f : StationNo → FireWork → FireWork) (k : Bool) (hf : ∀ i w, (f i w).pulse = true → w.pulse = true) :
    UnitAct may s { s with fu := { s.fu with work := mapAll s.fu.work f, kickTaken := k } } :=
  .fire _ rfl (fun i hi => hf i s.fu.work[i] (by rw [← mapAll_get s.fu.work f i]; exact hi)) id id

theorem newPitchFiring_acts : Acts may s (newPitchFiring s) :=
  (latchPitch_acts s).tail (fireWorks_act (latchPitch s) _ false fun _ _ h => h)

theorem countUp_act : UnitAct may s (countUp s) := .input s.pins s.inReset _ s.pending

theorem setPins_act (p : Pins) : UnitAct may s (setPins p s) := .input p s.inReset s.countIndex s.pending

theorem clearStarvedRun_act : UnitAct may s (clearStarvedRun s) := .starved _ _ (Counts.same _)

theorem setReader_act (r : PortReceive) : UnitAct may s (setReader r s) := .check _ (Counts.same _) (Counts.same _) (Counts.same _)

theorem countReaderError_act : UnitAct may s (countReaderError s) := .check _ (Counts.same _) (Counts.same _) (Counts.bump _)

/-! ## The operations that the units share -/

theorem forStations_acts (f : StationNo → State → State) (h : ∀ i s, Acts may s (f i s)) : Acts may s (forStations f s) :=
  forStations_inv (Acts may s) f (fun i u hu => hu.trans (h i u)) s .refl

theorem abandonMeasurement_acts (i : StationNo) : Acts may s (abandonMeasurement i s) := by
  unfold abandonMeasurement
  split
  · exact (ReflTransGen.single (setCheckWork_act s i _)).tail (suspectAt_act _ _)
  · exact .refl

theorem reportTrackClear_acts : Acts may s (reportTrackClear s) := by
  unfold reportTrackClear
  split
  · rename_i h; exact .single (.stop (by rw [State.firing, h.1]; rfl))
  · exact .refl

theorem deliver_acts (c : Context) (h : s.contentAt (s.trackLen - 1) = .copy c) : Acts may s (deliver c s) :=
  (((((ReflTransGen.single (.delivered _ c h)).tail (place_act _ _)).tail (freeText_act _ _)).tail (.complete _)).trans
    (reportTrackClear_acts _))

/-- A LOST copy: the record stands before the count, which it does not touch. -/
theorem lose_acts (c d : Context) (pitch : PitchIndex) (h : s.contentAt (s.trackLen - 1) = .copy c) (hd : d.copy = c.copy) :
    Acts may s (lose d pitch s) :=
  (((((ReflTransGen.single (.excepted _ c d h hd)).tail (place_act _ _)).tail (freeText_act _ _)).tail (.complete _)).trans
    (reportTrackClear_acts _))

theorem stackEvent_acts (i : StationNo) : Acts may s (stackEvent i s) := by
  unfold stackEvent
  split
  · rename_i c h
    split
    · exact deliver_acts s c h
    · exact lose_acts s c c _ h rfl
  · exact .refl

/-! ## The printer port -/

/-- CLEAR is the Printer Port's alone. -/
theorem sendClear_eq : sendClear s = { s with pp := (sendClear s).pp } := by
  unfold sendClear; (repeat' split) <;> rfl

/-- What a CLEAR leaves: a count of one to 255 where none stood, and the other fields but the transmit queue as they were. -/
theorem sendClear_pp : ∃ q n, (sendClear s).pp = { s.pp with transmit := q, clears := n } ∧
    (s.pp.clears ≤ 255 → n ≤ 255) ∧ 1 ≤ n ∧ s.pp.clears ≤ n := by
  unfold sendClear
  split
  · exact ⟨s.pp.transmit, s.pp.clears, rfl, id, by omega, Nat.le_refl _⟩
  · split
    · exact ⟨s.pp.transmit, _, rfl, by omega, by omega, by omega⟩
    · exact ⟨_, _, rfl, by omega, by omega, by omega⟩

/-- A withdrawal changes the track's marks and tags, the queue's tags and the Printer Port. -/
theorem withdraw_eq : withdraw s = { s with
    tu := { s.tu with track := s.tu.track.map (withdrawContent s.pp.jobs) }
    gm := { s.gm with queue := s.gm.queue.map (fun c => { c with tag := none }) }
    pp := (withdraw s).pp } := by
  unfold withdraw
  dsimp only
  split
  · rw [sendClear_eq]
  · rfl

/-- What a withdrawal leaves of the Printer Port: no job, and a CLEAR outstanding where the port was SYNCHRONISED. -/
theorem withdraw_pp : ∃ q n, (withdraw s).pp = { s.pp with
    transmit := q, jobs := [], nextTag := 0, synchronised := false, clears := n } ∧
    (s.pp.clears ≤ 255 → n ≤ 255) ∧ (s.pp.synchronised = true → 1 ≤ n) ∧ (s.pp.synchronised = false → n = s.pp.clears) := by
  unfold withdraw
  dsimp only
  split
  · rename_i h
    obtain ⟨q, n, hq, hn, hone, -⟩ := sendClear_pp { s with
      tu := { s.tu with track := s.tu.track.map (withdrawContent s.pp.jobs) }
      gm := { s.gm with queue := s.gm.queue.map (fun c => { c with tag := none }) }
      pp := { s.pp with transmit := dropJobs s.pp.transmit, jobs := [], nextTag := 0, synchronised := false } }
    exact ⟨q, n, hq, hn, fun _ => hone, fun hf => by simp [h] at hf⟩
  · exact ⟨_, s.pp.clears, rfl, id, fun h => absurd h ‹_›, fun _ => rfl⟩

/-- A port without jobs keeps its soundness where the count agrees with the synchronisation. -/
theorem PrinterPort.sound_of_empty {p : PrinterPort} (hsync : p.synchronised = true ↔ p.clears = 0) (hc : p.clears ≤ 255)
    (hj : p.jobs = []) (ht : p.nextTag = 0) : p.Sound :=
  ⟨hsync, hc, fun _ => ⟨hj, ht⟩, by simp [hj], by simp [hj, tagRun]⟩

theorem withdraw_sound (h : s.pp.Sound) : (withdraw s).pp.Sound := by
  obtain ⟨q, n, hpp, hle, hone, hsame⟩ := withdraw_pp s
  obtain ⟨hsync, hc, -, -, -⟩ := h
  rw [hpp]
  refine PrinterPort.sound_of_empty ?_ (hle hc) rfl rfl
  have hn : n ≠ 0 := by
    cases hs : s.pp.synchronised with
    | true => have := hone hs; omega
    | false =>
      rw [hsame hs, ne_eq, ← hsync, hs]
      exact Bool.false_ne_true
  exact ⟨fun h => absurd h Bool.false_ne_true, fun h => absurd h hn⟩

theorem map_core_withdraw (jobs : List Job) (tr : List Content) :
    (tr.map (withdrawContent jobs)).map Content.core = tr.map Content.core := by
  rw [List.map_map]
  exact List.map_congr_left fun c _ => core_withdrawContent jobs c

theorem withdraw_acts : Acts may s (withdraw s) := by
  have hpp := withdraw_pp s
  rw [withdraw_eq]
  refine ((ReflTransGen.single (.marks _ (map_core_withdraw s.pp.jobs s.tu.track))).tail .untag).tail
    (.printer _ (fun _ => withdraw_sound s ‹_›) ?_ ?_)
  · obtain ⟨q, n, hq, -⟩ := hpp; rw [hq]; exact Counts.same _
  · obtain ⟨q, n, hq, -⟩ := hpp; rw [hq]; exact Counts.same _

/-- The tags of the job list and one more are the last ones given, in turn. -/
theorem tagRun_succ (next : Tag) (n : Nat) : tagRun (next + 1) (n + 1) = tagRun next n ++ [next] := by
  unfold tagRun
  rw [List.range_succ, List.map_append]
  congr 1
  · refine List.map_congr_left fun k hk => ?_
    have hk : k < n := List.mem_range.mp hk
    rw [show n + 1 - k = (n - k) + 1 by omega]
    rw [BitVec.ofNat_add]
    generalize BitVec.ofNat 4 (n - k) = x
    bv_omega
  · have h : n + 1 - n = 1 := by omega
    simp only [List.map_cons, List.map_nil, h]
    congr 1
    bv_omega

/-- The tags of the job list behind its head. -/
theorem tagRun_tail (next : Tag) (n : Nat) : (tagRun next (n + 1)).tail = tagRun next n := by
  unfold tagRun
  rw [List.range_succ_eq_map, List.map_cons, List.tail_cons, List.map_map]
  exact List.map_congr_left fun k _ => by simp only [Function.comp, Nat.succ_eq_add_one, Nat.add_sub_add_right]

theorem makeJob_acts (lead : Nat) (c : Context) (hsync : s.pp.synchronised = true) (hlen : s.pp.jobs.length < 16) :
    Acts may s (makeJob lead c s) := by
  refine (ReflTransGen.single (.printer _ (fun h => ?_) (Counts.same _) (Counts.same _))).tail
    (modifyContext_act _ lead _ fun _ => rfl)
  obtain ⟨h1, h2, -, -, h5⟩ := h
  refine ⟨h1, h2, fun h => absurd (hsync.symm.trans h) Bool.noConfusion, ?_, ?_⟩
  · simp only [List.length_append, List.length_singleton]; omega
  · simp only [List.map_append, List.length_append, List.map_cons, List.map_nil, List.length_singleton, h5, tagRun_succ]

theorem stopFault_act (c : FaultCause) (st : Option StationNo) : UnitAct may s (stopFault c st s) := .fault c st

theorem dispatchJob_acts : Acts may s (dispatchJob s) := by
  unfold dispatchJob
  split
  · exact .refl
  · split
    · exact .refl
    · dsimp only
      split
      · split
        · exact .single (suspectAt_act _ _)
        · split
          · rename_i hs hl; exact makeJob_acts s _ _ (by simpa using hs) hl
          · exact (ReflTransGen.single (stopFault_act _ _ _)).tail (suspectAt_act _ _)
      · exact .refl

/-- A change of the jobs that keeps their tags. -/
theorem jobs_act (f : Job → Job) (hf : ∀ j, (f j).tag = j.tag) :
    UnitAct may s { s with pp := { s.pp with jobs := s.pp.jobs.map f } } := by
  refine .printer _ (fun ⟨h1, h2, h3, h4, h5⟩ => ⟨h1, h2, fun h => ?_, by simpa using h4, ?_⟩) (Counts.same _) (Counts.same _)
  · exact ⟨by simp [(h3 h).1], (h3 h).2⟩
  · simpa [List.map_map, Function.comp_def, hf] using h5

end Sys2Proof.Machine
end

section
/-! PROOFS. Every operation of the units is a run of acts, continued: printer arrivals, the gate, the Check Unit, the fire points and the
tasks of a count. -/

namespace Sys2Proof.Machine

open Relation

variable {may : Scope} (s : State)

/-! ## The printer port -/

theorem printFired_acts (i : StationNo) : Acts may s (printFired i s) := by
  unfold printFired
  split
  · exact .refl
  · split
    · exact .single (jobs_act s _ fun j => by split <;> rfl)
    · exact (ReflTransGen.single (stopFault_act _ _ _)).trans (withdraw_acts _)

theorem printNotTaken_acts (i : StationNo) : Acts may s (printNotTaken i s) := by
  unfold printNotTaken
  dsimp only
  split
  · exact (ReflTransGen.single (suspectAt_act _ _)).trans (withdraw_acts _)
  · exact .single (suspectAt_act _ _)

theorem countPrintStray_act : UnitAct may s (countPrintStray s) := .printer _ id (Counts.same _) (Counts.bump _)

theorem countPrinterError_act : UnitAct may s (countPrinterError s) := .printer _ id (Counts.bump _) (Counts.same _)

theorem setPrinterReceive_act (r : PortReceive) : UnitAct may s (setPrinterReceive r s) :=
  .printer _ id (Counts.same _) (Counts.same _)

theorem printerSent_act : UnitAct may s (printerSent s) := .printer _ id (Counts.same _) (Counts.same _)

theorem printerCleared_act : UnitAct may s (printerCleared s) := by
  unfold printerCleared
  split
  · exact countPrintStray_act s
  · rename_i hs
    refine .printer _ (fun ⟨_, hc, hj, _, _⟩ => ?_) (Counts.same _) (Counts.same _)
    obtain ⟨hjobs, htag⟩ := hj (by simpa using hs)
    refine PrinterPort.sound_of_empty ?_ ?_ hjobs htag
    · simp
    · simp only; omega

theorem printerTaken_act (t : Tag) : UnitAct may s (printerTaken t s) := by
  unfold printerTaken
  split
  · exact jobs_act s _ fun j => by split <;> rfl
  · exact countPrintStray_act s

theorem printFailed_acts (j : Job) : Acts may s (printFailed j s) := by
  unfold printFailed
  dsimp only
  split
  · split
    · exact .single (markAt_act _ _ _)
    · exact .refl
  · exact .refl

/-- The head job leaves the list. -/
theorem headJob_act (j : Job) (rest : List Job) (h : s.pp.jobs = j :: rest) :
    UnitAct may s { s with pp := { s.pp with jobs := rest } } := by
  refine .printer _ (fun ⟨h1, h2, h3, h4, h5⟩ => ⟨h1, h2, fun hs => ?_, ?_, ?_⟩) (Counts.same _) (Counts.same _)
  · rw [h] at h3; exact absurd (h3 hs).1 (List.cons_ne_nil _ _)
  · rw [h, List.length_cons] at h4; simp only; omega
  · rw [h, List.length_cons] at h5
    simpa [tagRun_tail] using congrArg List.tail h5

theorem printerDone_acts (t : Tag) (r : PrintResult) : Acts may s (printerDone t r s) := by
  have fault (u : State) : Acts may u (withdraw (stopFault .printOrder (u.firstOf .print) u)) :=
    (ReflTransGen.single (stopFault_act _ _ _)).trans (withdraw_acts _)
  unfold printerDone
  split
  · exact .single (countPrintStray_act s)
  · split
    · rename_i j rest h
      split
      · have head := headJob_act (may := may) s j rest h
        cases r with
        | ok => exact .single head
        | fail => exact (ReflTransGen.single head).trans (printFailed_acts _ j)
      · exact fault s
    · exact fault s

/-! ## The gate -/

theorem exceptAtGate_acts (g : Nat) (c d : Context) (r : ExceptionReason) (pitch : PitchIndex)
    (h : s.contentAt g = .copy c) (hd : d.copy = c.copy) : Acts may s (exceptAtGate d r pitch (setContent g .empty s)) :=
  (((ReflTransGen.single (.excepted g c d h hd)).tail (place_act _ _)).tail (.complete _)).tail (freeText_act _ _)

theorem divert_acts (g : Nat) (c d : Context) (pitch : PitchIndex) (h : s.contentAt g = .copy c) (hd : d.copy = c.copy)
    (hg : s.tu.gate = some g) : Acts may s (divert d g pitch s) := by
  unfold divert
  dsimp only
  split
  · exact (exceptAtGate_acts s g c d.diverted _ pitch h hd).trans (reportTrackClear_acts _)
  · exact (ReflTransGen.single (.makeUp g c d.diverted pitch h hd hg)).trans (reportTrackClear_acts _)

theorem divertGhost_acts (g : Nat) (h : (s.contentAt g).isGhost = true) : Acts may s (divertGhost g s) :=
  ((ReflTransGen.single (.ghostOff g h)).tail (.ghostCount _ (Counts.bump _))).trans (reportTrackClear_acts _)

theorem decisionMarks_copy (b : Bool) (g : Nat) (pitch : PitchIndex) (c : Context) :
    (decisionMarks b g pitch s c).copy = c.copy := by
  unfold decisionMarks
  dsimp only
  (repeat' split) <;> rfl

/-- A decision on the context at the gate. -/
theorem decideGate_acts (b : Bool) (g : Nat) (pitch : PitchIndex) (hg : s.tu.gate = some g) :
    Acts may s (decideGate b g pitch s).2 := by
  unfold decideGate
  split
  · exact .refl
  · rename_i h; exact divertGhost_acts s g (by rw [h]; rfl)
  · rename_i c h
    dsimp only
    split
    · exact .single (setContent_act s g (.copy c) _ h (by simp [Content.core, decisionMarks_copy]))
    · exact divert_acts s g c _ pitch h (decisionMarks_copy s b g pitch c) hg

/-- The gate's fire point: a GHOST leaves g before the flag is set. -/
theorem gateFirePoint_acts : Acts may s (gateFirePoint s).2 := by
  unfold gateFirePoint
  split
  · exact .refl
  · dsimp only
    split
    · rename_i h
      exact .single (.decided fun g hg => by rw [h] at hg; cases hg)
    · rename_i g hg
      have hg : s.tu.gate = some g := hg
      by_cases hghost : (s.contentAt g).isGhost = true
      · have heq : decideGate true g s.mu.pitch { s with gm := { s.gm with decided := true } } =
            (false, divertGhost g { s with gm := { s.gm with decided := true } }) := by
          unfold decideGate
          have hc : ({ s with gm := { s.gm with decided := true } } : State).contentAt g = s.contentAt g := rfl
          rw [hc]
          cases hs : s.contentAt g with
          | ghost t => rfl
          | empty => rw [hs] at hghost; cases hghost
          | copy c => rw [hs] at hghost; cases hghost
        rw [heq]
        refine (((ReflTransGen.single (.ghostOff g hghost)).tail (.decided fun k hk => ?_)).tail
          (.ghostCount _ (Counts.bump _))).trans (reportTrackClear_acts _)
        have hk : s.tu.gate = some k := hk
        obtain rfl : g = k := Option.some.inj (hg.symm.trans hk)
        rw [contentAt_setContent_self g .empty s
          (lt_trackLen_of_occupied s g fun he => by rw [he] at hghost; cases hghost)]
        rfl
      · refine (ReflTransGen.single (.decided fun k hk => ?_)).trans (decideGate_acts _ true g _ hg)
        obtain rfl : g = k := Option.some.inj (hg.symm.trans hk)
        exact Bool.eq_false_iff.mpr hghost

theorem gateCloseOut_acts (ended : PitchIndex) : Acts may s (gateCloseOut ended s) := by
  unfold gateCloseOut
  split
  · exact .refl
  · rename_i g hg
    split
    · exact .refl
    · exact decideGate_acts s false g ended hg

/-! ## The Check Unit -/

theorem faultVerdict_acts (i : StationNo) (m : Mark) (c : Context) : Acts may s (faultVerdict i m c s) := by
  unfold faultVerdict
  dsimp only
  split
  · exact .single (markAt_act _ _ _)
  · split
    · exact (ReflTransGen.single (markAt_act _ _ _)).tail (setCheckWork_act _ _ _)
    · exact (((ReflTransGen.single (markAt_act _ _ _)).tail (setCheckWork_act _ _ _)).tail (.hold _)).tail (.notice _)

theorem cleanVerdict_act (i : StationNo) : UnitAct may s (cleanVerdict i s) := setCheckWork_act s i _

theorem presenceVerdict_acts (i : StationNo) (c : Context) : Acts may s (presenceVerdict i c s) := by
  unfold presenceVerdict
  dsimp only
  split
  · split
    · exact faultVerdict_acts _ _ _ _
    · exact .single (cleanVerdict_act _ _)
  · split
    · split
      · exact .single (cleanVerdict_act _ _)
      · split <;> exact faultVerdict_acts _ _ _ _
    · exact .single (suspectAt_act _ _)

theorem presenceNotTaken_acts (i : StationNo) : Acts may s (presenceNotTaken i s) := by
  unfold presenceNotTaken
  split
  · split
    · exact .single (suspectAt_act _ _)
    · exact .refl
  · exact .refl

theorem closeWindow_acts (i : StationNo) : Acts may s (closeWindow i s) := by
  unfold closeWindow
  dsimp only
  have closed : Acts may s _ := .single (setCheckWork_act s i fun w => { w with windowClosed := true })
  split
  · exact closed
  · split
    · exact closed.tail (.check _ (Counts.bump _) (Counts.same _) (Counts.same _))
    · exact closed
  · split
    · exact closed.trans (presenceVerdict_acts _ _ _)
    · exact closed.trans (presenceNotTaken_acts _ _)

theorem takeSample_acts (i : StationNo) : Acts may s (takeSample i s) := by
  unfold takeSample
  dsimp only
  split
  · exact (ReflTransGen.single (.input _ _ _ _)).tail (setCheckWork_act _ _ _)
  · exact (ReflTransGen.single (.input _ _ _ _)).tail (setCheckWork_act _ _ _)

theorem zeroCheck_acts (i : StationNo) (reading : Nat) : Acts may s (zeroCheck i reading s) := by
  unfold zeroCheck
  dsimp only
  (repeat' split)
  · exact .refl
  · exact .single (setCheckWork_act _ _ _)
  · exact .single (setCheckWork_act _ _ _)
  · exact ((ReflTransGen.single (setCheckWork_act _ _ _)).tail (.hold _)).tail (.notice _)

theorem thicknessVerdict_acts (i : StationNo) (reading : Nat) (c : Context) : Acts may s (thicknessVerdict i reading c s) := by
  unfold thicknessVerdict
  dsimp only
  generalize (if s.firstCaliper i = true then c.values.low1 else c.values.low2) = low
  generalize (if s.firstCaliper i = true then c.values.high1 else c.values.high2) = high
  split
  · exact faultVerdict_acts _ _ _ _
  · split
    · exact faultVerdict_acts _ _ _ _
    · exact .single (cleanVerdict_act _ _)

theorem completeMeasurement_acts (i : StationNo) : Acts may s (completeMeasurement i s) := by
  unfold completeMeasurement
  dsimp only
  have finished : Acts may s _ := .single (setCheckWork_act s i fun w => { w with measure := .done })
  split
  · exact finished.trans (thicknessVerdict_acts _ _ _ _)
  · exact finished.trans (zeroCheck_acts _ _ _)
  · exact finished

theorem takeSamples_acts (i : StationNo) (fuel : Nat) : Acts may s (takeSamples i fuel s) := by
  induction fuel generalizing s with
  | zero => exact .refl
  | succ fuel ih =>
    unfold takeSamples
    dsimp only
    split
    · split
      · exact (takeSample_acts s i).trans (completeMeasurement_acts _ i)
      · exact (takeSample_acts s i).trans (ih _)
    · exact .refl

theorem beginMeasurement_acts (i : StationNo) : Acts may s (beginMeasurement i s) := by
  unfold beginMeasurement
  split
  · split
    · exact .single (setCheckWork_act _ _ _)
    · exact (ReflTransGen.single (setCheckWork_act _ _ _)).trans (takeSamples_acts _ _ _)
  · exact (ReflTransGen.single (setCheckWork_act _ _ _)).tail (suspectAt_act _ _)

theorem caliperCount_acts (i : StationNo) : Acts may s (caliperCount i s) := by
  unfold caliperCount
  split
  · exact beginMeasurement_acts s i
  · exact takeSamples_acts s i _
  · exact .refl
  · exact .refl

theorem raiseJam_acts (i : StationNo) : Acts may s (raiseJam i s) :=
  (ReflTransGen.single (setCheckWork_act s i _)).tail (stopFault_act _ _ _)

theorem strayRead_acts (r : StrayReason) (v : ReadResult) : Acts may s (strayRead r v s) :=
  (ReflTransGen.single (.check _ (Counts.same _) (Counts.bump _) (Counts.same _))).tail (.notice _)

theorem readerArrival_acts (v : ReadResult) : Acts may s (readerArrival v s) := by
  unfold readerArrival
  split
  · exact strayRead_acts _ _ _
  · split
    · exact strayRead_acts _ _ _
    · exact strayRead_acts _ _ _
    · split
      · split
        · exact .single (modifyContext_act _ _ _ fun _ => rfl)
        · exact strayRead_acts _ _ _
      · exact .refl

theorem verifyJudgement_acts (firing : Bool) : Acts may s (verifyJudgement firing s) := by
  unfold verifyJudgement
  split
  · exact .refl
  · split
    · split
      · exact .refl
      · split
        · exact .single (suspectAt_act _ _)
        · split
          · split
            · exact .single (cleanVerdict_act _ _)
            · exact faultVerdict_acts _ _ _ _
          · exact faultVerdict_acts _ _ _ _
    · exact .refl

theorem presenceCloseOut_acts (i : StationNo) : Acts may s (presenceCloseOut i s) := by
  unfold presenceCloseOut
  split
  · exact presenceNotTaken_acts s i
  · exact .refl

theorem checkCloseOut_acts (firing : Bool) : Acts may s (checkCloseOut firing s) :=
  ((forStations_acts s _ fun i u => presenceCloseOut_acts u i).trans
    (forStations_acts _ _ fun i u => abandonMeasurement_acts u i)).trans (verifyJudgement_acts _ _)

/-! ## Fire points -/

theorem actionMissed_acts (i : StationNo) : Acts may s (actionMissed i s) := by
  unfold actionMissed
  dsimp only
  split
  · split
    · split
      · exact .single (suspectAt_act _ _)
      · exact .refl
    · exact .refl
  · exact .single (suspectAt_act _ _)
  · exact .single (suspectAt_act _ _)
  · exact .single (suspectAt_act _ _)
  · exact .refl

theorem stationMissed_acts (i : StationNo) : Acts may s (stationMissed i s) := by
  unfold stationMissed
  split
  · exact printNotTaken_acts s i
  · exact actionMissed_acts s i

theorem fireWithPulse_acts (i : StationNo) (h : s.firing = true) : Acts may s (fireWithPulse i s) :=
  (ReflTransGen.single (setOutcome_act s i .fired)).tail (.pulse i h)

/-- A pass leaves the line as it is. -/
theorem gateFirePoint_lc_of_pass (h : (gateFirePoint s).1 = true) : (gateFirePoint s).2.lc = s.lc := by
  unfold gateFirePoint decideGate at h ⊢
  dsimp only at h ⊢
  (repeat' split at h) <;> simp_all

theorem fireInFiring_acts (i : StationNo) (h : s.firing = true) : Acts may s (fireInFiring i s) := by
  unfold fireInFiring
  split
  · split
    · rename_i hpass
      exact (gateFirePoint_acts s).trans
        (fireWithPulse_acts _ i (by rw [State.firing, gateFirePoint_lc_of_pass s hpass]; exact h))
    · exact (gateFirePoint_acts s).tail (setOutcome_act _ _ _)
  · exact ((ReflTransGen.single (setOutcome_act s i .fired)).trans (stackEvent_acts _ i)).tail (.kick i)
  · split
    · exact (fireWithPulse_acts s i h).trans (printFired_acts _ i)
    · exact .single (setOutcome_act _ _ _)
  · split
    · exact fireWithPulse_acts s i h
    · exact .single (setOutcome_act _ _ _)

theorem takeFirePoint_acts (i : StationNo) : Acts may s (takeFirePoint i s) := by
  unfold takeFirePoint
  dsimp only
  have flagged : Acts may s _ := .single (setFireWork_act s i (fun w => { w with fired := true }) id)
  split
  · rename_i h; exact flagged.trans (fireInFiring_acts _ i h)
  · exact (flagged.tail (setOutcome_act _ _ _)).trans (stationMissed_acts _ i)

theorem runTask_acts (forward : Bool) (task : CountTask) : Acts may s (runTask forward s task) := by
  cases task with
  | firePoint i => unfold runTask; dsimp only; split; exacts [takeFirePoint_acts s i, .refl]
  | windowClose i => unfold runTask; dsimp only; split; exacts [closeWindow_acts s i, .refl]
  | caliper i => unfold runTask; dsimp only; split; exacts [caliperCount_acts s i, .refl]
  | jam i => unfold runTask; dsimp only; split; exacts [raiseJam_acts s i, .refl]

/-- What every task of a count keeps, the count keeps, whatever their order. -/
theorem foldl_runTask_inv (P : State → Prop) (forward : Bool) (h : ∀ u task, P u → P (runTask forward u task))
    (tasks : List CountTask) (s : State) (hs : P s) : P (tasks.foldl (runTask forward) s) := by
  induction tasks generalizing s with
  | nil => exact hs
  | cons task tasks ih => exact ih _ (h s task hs)

theorem takeTasks_acts (forward : Bool) : Acts may s (takeTasks forward s) :=
  (foldl_runTask_inv (Acts may s) forward (fun u task hu => hu.trans (runTask_acts u forward task)) _ s .refl).tail
    (countUp_act _)

theorem actionCloseOut_acts (i : StationNo) : Acts may s (actionCloseOut i s) := by
  unfold actionCloseOut; split; exacts [actionMissed_acts s i, .refl]

theorem printCloseOut_acts (i : StationNo) : Acts may s (printCloseOut i s) := by
  unfold printCloseOut; split; exacts [printNotTaken_acts s i, .refl]

theorem recomputeStation_acts (i : StationNo) : Acts may s (recomputeStation i s) := by
  unfold recomputeStation
  split
  · have point : Acts may s _ := .single
      (setFireWork_act s i (fun w => { w with e := s.firePointOf (s.station i) }) id)
    dsimp only
    split
    · exact (point.tail (setFireWork_act _ i _ id)).trans (stationMissed_acts _ i)
    · exact point
  · exact .single (setFireWork_act s i _ id)

end Sys2Proof.Machine
end

section
/-! PROOFS. Every command is a run of acts: the boundary, the counts, the records of the line link, and the step. -/

namespace Sys2Proof.Machine

open Relation

/-! ## What stands at the gate and at T − 1 after the close-out -/

section
variable (s : State)

/-- The content of a position keeps its core where the track keeps its cores. -/
theorem core_contentAt_of_map {t : State} (h : t.tu.track.map Content.core = s.tu.track.map Content.core) (pos : Nat) :
    (t.contentAt pos).core = (s.contentAt pos).core := by
  have h : (t.tu.track[pos]?).map Content.core = (s.tu.track[pos]?).map Content.core := by
    rw [← List.getElem?_map, ← List.getElem?_map, h]
  unfold State.contentAt
  rw [List.getD_eq_getElem?_getD, List.getD_eq_getElem?_getD]
  generalize t.tu.track[pos]? = a at h ⊢
  generalize s.tu.track[pos]? = b at h ⊢
  cases a <;> cases b <;> simp_all

theorem trackLen_of_map {t : State} (h : t.tu.track.map Content.core = s.tu.track.map Content.core) :
    t.trackLen = s.trackLen := by
  simpa [State.trackLen] using congrArg List.length h

theorem isCopy_of_core {c d : Content} (h : c.core = d.core) : c.isCopy = d.isCopy := by
  cases c <;> cases d <;> simp_all [Content.core, Content.isCopy]

theorem isGhost_of_core {c d : Content} (h : c.core = d.core) : c.isGhost = d.isGhost := by
  cases c <;> cases d <;> simp_all [Content.core, Content.isGhost]

theorem eq_empty_of_core {c : Content} (h : c.core = none) : c = .empty := by
  cases c <;> simp_all [Content.core]

/-- A position that is emptied holds nothing, on the track or beyond it. -/
theorem contentAt_setContent_empty (g : Nat) : (setContent g .empty s).contentAt g = .empty := by
  by_cases h : g < s.trackLen
  · exact contentAt_setContent_self g _ s h
  · exact contentAt_beyond _ g (by rw [trackLen_setContent]; omega)

/-- Leaving the firing states marks the track, and takes nothing off it. -/
theorem stopLine_cores (l : LineState) : (stopLine l s).tu.track.map Content.core = s.tu.track.map Content.core := by
  have abandon (i : StationNo) (u : State) :
      (abandonMeasurement i u).tu.track.map Content.core = u.tu.track.map Content.core := by
    unfold abandonMeasurement
    split
    · exact map_core_modify _ _ _ (core_mapContext _ fun _ => rfl)
    · rfl
  unfold stopLine
  split
  · simp only [leaveFiring]
    exact (forStations_keeps (fun s => s.tu.track.map Content.core) abandonMeasurement abandon _).trans rfl
  · rfl

/-- Leaving the firing states leaves the gate position and the starved counts. -/
theorem stopLine_tu (l : LineState) : (stopLine l s).tu = { s.tu with track := (stopLine l s).tu.track } := by
  have abandon (i : StationNo) (u : State) :
      ({ (abandonMeasurement i u).tu with track := [] } : TrackUnit) = { u.tu with track := [] } := by
    unfold abandonMeasurement; split <;> rfl
  have key : ({ (stopLine l s).tu with track := [] } : TrackUnit) = { s.tu with track := [] } := by
    unfold stopLine
    split
    · simp only [leaveFiring]
      exact (forStations_keeps (fun s => ({ s.tu with track := [] } : TrackUnit)) abandonMeasurement abandon _).trans rfl
    · rfl
  exact congrArg (fun u : TrackUnit => { u with track := (stopLine l s).tu.track }) key

theorem reportTrackClear_cores : (reportTrackClear s).tu.track.map Content.core = s.tu.track.map Content.core := by
  unfold reportTrackClear; split; exacts [stopLine_cores s _, rfl]

theorem reportTrackClear_gate : (reportTrackClear s).tu.gate = s.tu.gate := by
  unfold reportTrackClear; split; exacts [by rw [stopLine_tu], rfl]

/-! ### The sweep -/

/-- What a sweep for ordinal o makes of a content: a context above it becomes a GHOST with its tag. -/
def Content.swept (o : Word16) : Content → Content
  | .copy c => if ordinalAbove c.copy.ordinal o then .ghost c.tag else .copy c
  | c => c

theorem sweepAt_contentAt (o : Word16) (pitch : PitchIndex) (pos q : Nat) :
    (sweepAt o pitch pos s).contentAt q = if q = pos then (s.contentAt q).swept o else s.contentAt q := by
  unfold sweepAt
  split
  · rename_i c hc
    split
    · rename_i ha
      by_cases h : q = pos
      · subst h
        simp only [hc, Content.swept, ha, if_true]
        exact contentAt_setContent_self q _ s (lt_trackLen_of_occupied s q (by rw [hc]; simp))
      · rw [if_neg h]
        exact contentAt_setContent_other pos q _ s h
    · rename_i ha
      by_cases h : q = pos
      · subst h; simp [hc, Content.swept, ha]
      · rw [if_neg h]
  · rename_i hc
    by_cases h : q = pos
    · subst h
      rw [if_pos rfl]
      cases hs : s.contentAt q with
      | copy c => exact absurd hs (hc c)
      | empty => rfl
      | ghost t => rfl
    · rw [if_neg h]

@[simp] theorem sweepAt_trackLen (o : Word16) (pitch : PitchIndex) (pos : Nat) :
    (sweepAt o pitch pos s).trackLen = s.trackLen := by
  unfold sweepAt
  (repeat' split) <;> simp [State.trackLen]
  exact trackLen_setContent pos _ s

/-- A sweep reaches every position below g and no other (R123, R124). -/
theorem sweep_contentAt (o : Word16) (pitch : PitchIndex) (g q : Nat) :
    (sweep o pitch g s).contentAt q = if q < g then (s.contentAt q).swept o else s.contentAt q := by
  induction g generalizing s with
  | zero => rfl
  | succ g ih =>
    rw [sweep, ih, sweepAt_contentAt]
    by_cases h : q < g
    · rw [if_pos h, if_neg (by omega), if_pos (by omega)]
    · by_cases hq : q = g
      · subst hq; rw [if_neg h, if_pos rfl, if_pos (by omega)]
      · rw [if_neg h, if_neg hq, if_neg (by omega)]

@[simp] theorem sweep_trackLen (o : Word16) (pitch : PitchIndex) (g : Nat) : (sweep o pitch g s).trackLen = s.trackLen := by
  induction g generalizing s with
  | zero => rfl
  | succ g ih => rw [sweep, ih, sweepAt_trackLen]

@[simp] theorem sweepAt_gate (o : Word16) (pitch : PitchIndex) (pos : Nat) : (sweepAt o pitch pos s).tu.gate = s.tu.gate := by
  unfold sweepAt; (repeat' split) <;> rfl

@[simp] theorem sweep_gate (o : Word16) (pitch : PitchIndex) (g : Nat) : (sweep o pitch g s).tu.gate = s.tu.gate := by
  induction g generalizing s with
  | zero => rfl
  | succ g ih => rw [sweep, ih, sweepAt_gate]

@[simp] theorem sweepAt_decided (o : Word16) (pitch : PitchIndex) (pos : Nat) :
    (sweepAt o pitch pos s).gm.decided = s.gm.decided := by
  unfold sweepAt; (repeat' split) <;> rfl

@[simp] theorem sweep_decided (o : Word16) (pitch : PitchIndex) (g : Nat) :
    (sweep o pitch g s).gm.decided = s.gm.decided := by
  induction g generalizing s with
  | zero => rfl
  | succ g ih => rw [sweep, ih, sweepAt_decided]

@[simp] theorem isCopy_swept (o : Word16) (c : Content) (h : c.isCopy = false) : (c.swept o).isCopy = false := by
  cases c <;> simp_all [Content.swept, Content.isCopy]

/-! ### A divert leaves g EMPTY -/

/-- Track length, gate and the decided flag: what a decision leaves. -/
structure GateFrame (s t : State) : Prop where
  gate : t.tu.gate = s.tu.gate
  len : t.trackLen = s.trackLen
  decided : t.gm.decided = s.gm.decided

/-- The position g after a decision at the close-out holds nothing, and no position gains a copy. -/
theorem divert_spec (c : Context) (g : Nat) (pitch : PitchIndex) :
    GateFrame s (divert c g pitch s) ∧ (divert c g pitch s).contentAt g = .empty ∧
    ∀ q, (s.contentAt q).isCopy = false → ((divert c g pitch s).contentAt q).isCopy = false := by
  have cleared (u : State) (hg : u.tu.gate = s.tu.gate) (hl : u.trackLen = s.trackLen) (hd : u.gm.decided = s.gm.decided)
      (he : u.contentAt g = .empty) (hq : ∀ q, (s.contentAt q).isCopy = false → (u.contentAt q).isCopy = false) :
      GateFrame s (reportTrackClear u) ∧ (reportTrackClear u).contentAt g = .empty ∧
      ∀ q, (s.contentAt q).isCopy = false → ((reportTrackClear u).contentAt q).isCopy = false := by
    have core := core_contentAt_of_map u (reportTrackClear_cores u)
    refine ⟨⟨by rw [reportTrackClear_gate, hg], by rw [trackLen_of_map u (reportTrackClear_cores u), hl],
      by rw [reportTrackClear_gm, hd]⟩, ?_, fun q h => ?_⟩
    · exact eq_empty_of_core ((core g).trans (by rw [he]; rfl))
    · rw [isCopy_of_core (core q)]; exact hq q h
  have hempty := contentAt_setContent_empty s g
  have hothers (q : Nat) (h : (s.contentAt q).isCopy = false) : ((setContent g .empty s).contentAt q).isCopy = false := by
    by_cases hq : q = g
    · rw [hq, hempty]; rfl
    · rw [contentAt_setContent_other g q _ s hq]; exact h
  unfold divert
  dsimp only
  split
  · have hu (r : ExceptionReason) : (exceptAtGate c.diverted r pitch (setContent g .empty s)).tu =
        (setContent g .empty s).tu := by simp
    have hcontent (r : ExceptionReason) (q : Nat) :
        (exceptAtGate c.diverted r pitch (setContent g .empty s)).contentAt q = (setContent g .empty s).contentAt q := by
      simp only [State.contentAt, hu]
    refine cleared _ (by rw [hu]; rfl) ?_ (by simp) (by rw [hcontent, hempty]) fun q h => by rw [hcontent]; exact hothers q h
    simp only [State.trackLen, hu]
    exact trackLen_setContent g _ s
  · have hcontent (q : Nat) : (sendToMakeUp c.diverted g pitch (setContent g .empty s)).contentAt q =
        if q < g then ((setContent g .empty s).contentAt q).swept c.copy.ordinal else (setContent g .empty s).contentAt q :=
      sweep_contentAt _ _ pitch g q
    refine cleared _ (sweep_gate _ _ _ _) ((sweep_trackLen _ _ _ _).trans (trackLen_setContent g _ s))
      (sweep_decided _ _ _ _) ?_ fun q h => ?_
    · rw [hcontent, if_neg (Nat.lt_irrefl g), hempty]
    · rw [hcontent]
      split
      · exact isCopy_swept _ _ (hothers q h)
      · exact hothers q h

theorem divertGhost_spec (g : Nat) :
    GateFrame s (divertGhost g s) ∧ (divertGhost g s).contentAt g = .empty ∧
    ∀ q, (s.contentAt q).isCopy = false → ((divertGhost g s).contentAt q).isCopy = false := by
  have core := core_contentAt_of_map _ (reportTrackClear_cores
    { setContent g .empty s with gm := { s.gm with ghostDiverts := bump s.gm.ghostDiverts } })
  have hempty := contentAt_setContent_empty s g
  refine ⟨⟨by rw [divertGhost, reportTrackClear_gate]; rfl, ?_, by rw [divertGhost, reportTrackClear_gm]; rfl⟩, ?_, fun q h => ?_⟩
  · exact (trackLen_of_map _ (reportTrackClear_cores _)).trans (trackLen_setContent g _ s)
  · exact eq_empty_of_core ((core g).trans (congrArg Content.core hempty))
  · refine (isCopy_of_core (core q)).trans ?_
    by_cases hq : q = g
    · subst hq; exact congrArg Content.isCopy hempty
    · exact (congrArg Content.isCopy (contentAt_setContent_other g q _ s hq)).trans h

/-- After the gate's close-out an undecided gate position holds no GHOST, and no position has gained a copy. -/
theorem gateCloseOut_spec (ended : PitchIndex) :
    GateFrame s (gateCloseOut ended s) ∧
    (s.gm.decided = false → ∀ g, s.tu.gate = some g → ((gateCloseOut ended s).contentAt g).isGhost = false) ∧
    ∀ q, (s.contentAt q).isCopy = false → ((gateCloseOut ended s).contentAt q).isCopy = false := by
  have same : GateFrame s s := ⟨rfl, rfl, rfl⟩
  unfold gateCloseOut
  split
  · rename_i h; exact ⟨same, fun _ g hg => (Option.some_ne_none g (hg.symm.trans h)).elim, fun _ h => h⟩
  · rename_i g hg
    split
    · rename_i hd; exact ⟨same, fun h => absurd (hd.symm.trans h) Bool.noConfusion, fun _ h => h⟩
    · have atGate {t : State} (ht : t.contentAt g = .empty) (k : Nat) (hk : s.tu.gate = some k) :
          (t.contentAt k).isGhost = false := by
        obtain rfl : g = k := Option.some.inj (hg.symm.trans hk)
        rw [ht]; rfl
      unfold decideGate
      split
      · rename_i h
        exact ⟨same, fun _ k hk => atGate h k hk, fun _ h => h⟩
      · obtain ⟨hf, he, hq⟩ := divertGhost_spec s g
        exact ⟨hf, fun _ k hk => atGate he k hk, hq⟩
      · rename_i c h
        have hpass (d : Context) : passes false s d = false := rfl
        simp only [hpass, Bool.false_eq_true, if_false]
        obtain ⟨hf, he, hq⟩ := divert_spec s (decisionMarks false g ended s c) g ended
        exact ⟨hf, fun _ k hk => atGate he k hk, hq⟩

/-- After the close-out at T − 1 no copy stands there. -/
theorem stackCloseOut_spec (ended : PitchIndex) :
    ((stackCloseOut ended s).contentAt ((stackCloseOut ended s).trackLen - 1)).isCopy = false := by
  unfold stackCloseOut
  split
  · rename_i c h
    have hlt := lt_trackLen_of_occupied s (s.trackLen - 1) (by rw [h]; simp)
    have cores := reportTrackClear_cores (testComplete c.copy.ordinal (freeText c.copy.blocks
      (countExcepted c.copy.ordinal (place ((c.mark .suspect).attempted.record .exception (some .lost) ended)
        (setContent (s.trackLen - 1) .empty (setContent (s.trackLen - 1) (.copy (c.mark .suspect)) s))))))
    rw [testComplete_tu] at cores
    have hl : (setContent (s.trackLen - 1) .empty (setContent (s.trackLen - 1) (.copy (c.mark .suspect)) s)).trackLen =
        s.trackLen := by rw [trackLen_setContent, trackLen_setContent]
    have hlen : (lose (c.mark .suspect) ended (setContent (s.trackLen - 1) (.copy (c.mark .suspect)) s)).trackLen =
        s.trackLen := by
      unfold lose
      rw [trackLen_setContent]
      exact (trackLen_of_map (setContent (s.trackLen - 1) .empty (setContent (s.trackLen - 1) (.copy (c.mark .suspect)) s))
        cores).trans hl
    rw [hlen]
    unfold lose
    rw [trackLen_setContent]
    refine (isCopy_of_core (core_contentAt_of_map
      (setContent (s.trackLen - 1) .empty (setContent (s.trackLen - 1) (.copy (c.mark .suspect)) s)) cores _)).trans ?_
    rw [contentAt_setContent_self _ _ _ (by rw [trackLen_setContent]; exact hlt)]
    rfl
  · rename_i h
    cases hc : s.contentAt (s.trackLen - 1) with
    | copy c => exact absurd hc (h c)
    | empty => rfl
    | ghost t => rfl

end

end Sys2Proof.Machine
end

section
/-! PROOFS. Every command is a run of acts, continued: the pitch boundary and the counts. -/

namespace Sys2Proof.Machine

open Relation

variable {may : Scope} (s : State)

/-! ## The pitch boundary -/

theorem motionBoundary_act : UnitAct may s (motionBoundary s) := by
  refine .motion _ (fun h => ?_) (Counts.same _) (Counts.same _) fun _ h => h
  obtain ⟨-, -, -, -, hspeed, hw1, hw2, hp1, hp2, hf, hr1, hr2⟩ := h
  unfold nextPitch
  split <;> exact ⟨by dsimp only; omega, by dsimp only; omega, by dsimp only; omega, by dsimp only; omega, hspeed, hw1, hw2,
    hp1, hp2, hf, hr1, hr2⟩

theorem reportDisplacement_acts : Acts may s (reportDisplacement s) := by
  unfold reportDisplacement; split; exacts [.single (.displaced _), .refl]

theorem stackCloseOut_acts (ended : PitchIndex) : Acts may s (stackCloseOut ended s) := by
  unfold stackCloseOut
  split
  · rename_i c h
    have hlt := lt_trackLen_of_occupied s (s.trackLen - 1) (by rw [h]; simp)
    refine (ReflTransGen.single (setContent_act s _ (.copy c) (.copy (c.mark .suspect)) h rfl)).trans
      (lose_acts (setContent (s.trackLen - 1) (.copy (c.mark .suspect)) s) (c.mark .suspect) _ ended ?_ rfl)
    rw [trackLen_setContent]
    exact contentAt_setContent_self _ _ s hlt
  · exact .refl

theorem closeOut_acts (line : LineState) (ended : PitchIndex) : Acts may s (closeOut line ended s) :=
  ((((forStations_acts s _ fun i u => actionCloseOut_acts u i).trans (checkCloseOut_acts _ _)).trans
    (forStations_acts _ _ fun i u => printCloseOut_acts u i)).trans (stackCloseOut_acts _ ended)).trans
    (gateCloseOut_acts _ ended)

/-- What the close-out leaves for the shift: no copy at T − 1, and no GHOST at a gate that has not decided. -/
theorem closeOut_clears (line : LineState) (ended : PitchIndex) :
    ((closeOut line ended s).contentAt ((closeOut line ended s).trackLen - 1)).isCopy = false ∧
    ((closeOut line ended s).gm.decided = false →
      ∀ g, (closeOut line ended s).tu.gate = some g → ((closeOut line ended s).contentAt g).isGhost = false) := by
  unfold closeOut
  generalize hu : stackCloseOut ended _ = u
  have hstack := stackCloseOut_spec (forStations printCloseOut (checkCloseOut line.firing (forStations actionCloseOut s))) ended
  rw [hu] at hstack
  obtain ⟨hframe, hghost, hcopy⟩ := gateCloseOut_spec u ended
  rw [hframe.len, hframe.decided, hframe.gate]
  exact ⟨hcopy _ hstack, hghost⟩

theorem starvedPitch_acts : Acts may s (starvedPitch s) := by
  unfold starvedPitch
  dsimp only
  have flagged : Acts may s _ := .single (.starved true _ (Counts.bump s.tu.starved))
  split
  · exact flagged
  · exact flagged.tail (.notice _)

theorem releaseRunning_acts (h : s.contentAt 0 = .empty) : Acts may s (releaseRunning s) := by
  unfold releaseRunning
  split
  · rename_i c rest hq
    exact (ReflTransGen.single (.remake c rest hq h)).tail (clearStarvedRun_act _)
  · rename_i hq
    split
    · rename_i i c v ho
      exact (ReflTransGen.single (.first i c v hq h ho)).tail (clearStarvedRun_act _)
    · exact starvedPitch_acts s

theorem release_acts (line : LineState) (h : s.contentAt 0 = .empty) : Acts may s (release line s) := by
  unfold release
  split
  · exact releaseRunning_acts s h
  · exact .single (clearStarvedRun_act s)

/-- A notice does not look at the Gate and Make-up Unit. -/
theorem raiseNotice_newPitchGate (n : Notice) : newPitchGate (raiseNotice n s) = raiseNotice n (newPitchGate s) := by
  have hroom : (newPitchGate s).hasRoom = s.hasRoom := rfl
  have hmask : (newPitchGate s).ll = s.ll := rfl
  unfold raiseNotice
  rw [hroom, hmask]
  cases s.ll.mask.getLsbD (noticeCode n) <;> cases s.hasRoom <;> rfl

/-- The release does not look at the gate-decided flag. -/
theorem release_newPitchGate (line : LineState) : newPitchGate (release line s) = release line (newPitchGate s) := by
  have hstarved : newPitchGate (starvedPitch s) = starvedPitch (newPitchGate s) := by
    unfold starvedPitch
    dsimp only
    have hrun : (newPitchGate s).tu.starvedRun = s.tu.starvedRun := rfl
    rw [hrun]
    split
    · rfl
    · exact raiseNotice_newPitchGate _ _
  unfold release
  split
  · unfold releaseRunning
    have hq : (newPitchGate s).gm.queue = s.gm.queue := rfl
    have ho : (newPitchGate s).oldestEntry = s.oldestEntry := rfl
    rw [hq, ho]
    split
    · rfl
    · split
      · rfl
      · exact hstarved
  · rfl

theorem contentAt_shiftTrack (q : Nat) :
    (shiftTrack s).contentAt q = if q = 0 ∨ s.trackLen ≤ q then .empty else s.contentAt (q - 1) := by
  have hlen : s.trackLen = s.tu.track.length := rfl
  unfold shiftTrack
  split
  · rename_i h
    rw [h] at hlen
    have he (k : Nat) : s.contentAt k = .empty := contentAt_beyond s k (by simp [hlen])
    simp [he]
  · rename_i c t h
    rw [h] at hlen
    cases q with
    | zero => rfl
    | succ q =>
      simp only [State.contentAt, List.getD_cons_succ, h, Nat.add_sub_cancel]
      rw [List.getD_eq_getElem?_getD, List.getElem?_dropLast, List.getD_eq_getElem?_getD]
      simp only [List.length_cons, Nat.add_sub_cancel] at hlen ⊢
      by_cases hq : q < t.length
      · simp [hq, hlen, show ¬ t.length + 1 ≤ q + 1 by omega]
      · simp [hq, hlen, show t.length + 1 ≤ q + 1 by omega]

theorem trackLen_shiftTrack : (shiftTrack s).trackLen = s.trackLen := by
  unfold shiftTrack
  split
  · rfl
  · rename_i c t h; simp [State.trackLen, h]

/-- The boundary's work is a run of acts: the close-out clears what the shift would lose. -/
theorem pitchBoundary_acts : Acts may s (pitchBoundary s) := by
  have before : Acts may s _ := ((ReflTransGen.single (motionBoundary_act s)).trans (reportDisplacement_acts _)).trans
    (closeOut_acts _ s.lc.line s.mu.pitch)
  obtain ⟨hcopy, hghost⟩ := closeOut_clears (reportDisplacement (motionBoundary s)) s.lc.line s.mu.pitch
  unfold pitchBoundary
  revert before hcopy hghost
  generalize closeOut s.lc.line s.mu.pitch (reportDisplacement (motionBoundary s)) = u
  intro before hcopy hghost
  have htu := newPitchFiring_tu u
  have hgm := newPitchFiring_gm u
  have shifted : UnitAct may (newPitchFiring u) (newPitchGate (shiftTrack (newPitchFiring u))) := by
    refine .shift ?_ ?_
    · unfold State.contentAt State.trackLen at hcopy ⊢; rw [htu]; exact hcopy
    · unfold State.contentAt at hghost ⊢; rw [htu, hgm]; exact hghost
  rw [release_newPitchGate]
  refine ((((before.trans (newPitchFiring_acts u)).tail shifted).trans (release_acts _ _ ?_)).trans
    (dispatchJob_acts _)).tail (newPitchChecks_act _)
  exact (contentAt_shiftTrack (newPitchFiring u) 0).trans (if_pos (.inl rfl))

/-! ## Counts -/

theorem countForward_act : UnitAct may s (countForward s) := by
  refine .motion _ (fun h => ?_) (Counts.same _) (Counts.same _) fun _ h => h
  obtain ⟨h1, h2, h3, h4, h5, h6, h7, h8⟩ := h
  have hw : windowUp s.mu.windowCount ≤ 32767 ∧ -32768 ≤ windowUp s.mu.windowCount := by unfold windowUp; omega
  exact ⟨h1, h2, h3, h4, h5, hw.2, hw.1, h8⟩

theorem countReverse_act : UnitAct may s (countReverse s) := by
  refine .motion _ (fun h => ?_) (Counts.same _) (Counts.same _) fun _ h => h
  obtain ⟨h1, h2, h3, h4, h5, h6, h7, h8⟩ := h
  have hw : windowDown s.mu.windowCount ≤ 32767 ∧ -32768 ≤ windowDown s.mu.windowCount := by unfold windowDown; omega
  exact ⟨h1, h2, h3, h4, h5, hw.2, hw.1, h8⟩

theorem raisePhase_act (h : s.mu.phase + 1 < s.mu.len) : UnitAct may s (raisePhase s) :=
  .motion _ (fun hs => ⟨h, hs.2⟩) (Counts.same _) (Counts.same _) fun _ h => h

theorem lowerPhase_act : UnitAct may s (lowerPhase s) := by
  refine .motion _ (fun hs => ⟨?_, hs.2⟩) (Counts.same _) ?_ fun _ h => h
  · exact Nat.lt_of_le_of_lt (Nat.sub_le _ _) hs.1
  · dsimp only; split
    · exact Counts.bump _
    · exact Counts.same _

theorem advancePhase_acts : Acts may s (advancePhase s) := by
  unfold advancePhase
  split
  · rename_i h; exact (ReflTransGen.single (raisePhase_act s h)).tail (endDuePulses_act _)
  · exact pitchBoundary_acts s

theorem forwardCount_acts : Acts may s (forwardCount s) :=
  (((ReflTransGen.single (countForward_act s)).trans (advancePhase_acts _)).tail (senseCount_act _)).trans
    (takeTasks_acts _ true)

theorem reverseCount_acts : Acts may s (reverseCount s) :=
  ((ReflTransGen.single (countReverse_act s)).tail (lowerPhase_act _)).trans (takeTasks_acts _ false)

theorem illegalTransition_acts : Acts may s (illegalTransition s) :=
  (ReflTransGen.single (.motion _ id (Counts.bump _) (Counts.same _) fun _ h => h)).tail (stopFault_act _ _ _)

theorem setEncoder_act (a b : Bool) : UnitAct may s (setEncoder a b s) :=
  .motion _ id (Counts.same _) (Counts.same _) fun _ h => h

theorem encoderState_acts (a b : Bool) : Acts may s (encoderState a b s) := by
  have pins : Acts may s _ := .single (setEncoder_act s a b)
  unfold encoderState
  dsimp only
  split
  · exact pins
  · split
    · exact pins
    · exact pins.trans (forwardCount_acts _)
    · exact pins.trans (reverseCount_acts _)
    · exact pins.trans (illegalTransition_acts _)

theorem simulatedTick_acts : Acts may s (simulatedTick s) := by
  unfold simulatedTick
  split
  · exact .refl
  · refine (ReflTransGen.single (.motion _ id (Counts.same _) (Counts.same _) fun _ h => ?_)).trans (forwardCount_acts _)
    rw [h]; rfl

theorem windowExpiry_act : UnitAct may s (windowExpiry s) := by
  refine .motion _ (fun h => ?_) (Counts.same _) (Counts.same _) fun _ h => h
  obtain ⟨h1, h2, h3, h4, -, -, -, h8⟩ := h
  have hspeed : speedOf s.mu.windowCount ≤ 4095 := by unfold speedOf; omega
  exact ⟨h1, h2, h3, h4, hspeed, show (-32768 : Int) ≤ 0 by decide, show (0 : Int) ≤ 32767 by decide, h8⟩

/-! ## The ports -/

theorem readerMessage_acts (kind : Byte) (payload : List Byte) : Acts may s (readerMessage kind payload s) := by
  unfold readerMessage
  split
  · exact readerArrival_acts s _
  · exact readerArrival_acts s _
  · exact .single (countReaderError_act s)

theorem readerOctet_acts (o : Byte) : Acts may s (readerOctet o s) := by
  have received : Acts may s _ := .single (setReader_act s (portOctet o s.cu.reader).1)
  unfold readerOctet
  dsimp only
  split
  · exact received
  · exact received.tail (countReaderError_act _)
  · exact received.trans (readerMessage_acts _ _ _)

theorem readerGap_acts : Acts may s (readerGap s) := by
  unfold readerGap
  split
  · exact .refl
  · exact (ReflTransGen.single (setReader_act s .idle)).tail (countReaderError_act _)

theorem printerMessage_acts (kind : Byte) (payload : List Byte) : Acts may s (printerMessage kind payload s) := by
  unfold printerMessage
  split
  · exact .single (printerCleared_act s)
  · split
    · exact .single (printerTaken_act s _)
    · exact .single (countPrinterError_act s)
  · split
    · exact printerDone_acts s _ _
    · split
      · exact printerDone_acts s _ _
      · exact .single (countPrinterError_act s)
  · exact .single (countPrinterError_act s)

theorem printerOctet_acts (o : Byte) : Acts may s (printerOctet o s) := by
  have received : Acts may s _ := .single (setPrinterReceive_act s (portOctet o s.pp.receive).1)
  unfold printerOctet
  dsimp only
  split
  · exact received
  · exact received.tail (countPrinterError_act _)
  · exact received.trans (printerMessage_acts _ _ _)

theorem printerGap_acts : Acts may s (printerGap s) := by
  unfold printerGap
  split
  · exact .refl
  · exact (ReflTransGen.single (setPrinterReceive_act s .idle)).tail (countPrinterError_act _)

end Sys2Proof.Machine
end

section
/-! PROOFS. Every command is a run of acts, continued: the records of the line link, the frames, and the step. -/

namespace Sys2Proof.Machine

open Relation

/-- A run of changes of the part, the line link's own among them. -/
abbrev Runs (may : Scope) : State → State → Prop := ReflTransGen (Act may)

theorem Acts.runs {may : Scope} {s t : State} (h : Acts may s t) : Runs may s t := by
  induction h with
  | refl => exact .refl
  | tail _ ha ih => exact ih.tail (.unit _ ha)

theorem UnitAct.runs {may : Scope} {s t : State} (h : UnitAct may s t) : Runs may s t := .single (.unit _ h)

/-- A predicate that every change keeps is kept by a run of changes. -/
theorem Runs.keeps {may : Scope} {P : State → Prop} (h : ∀ s t, Act may s t → P s → P t) {s t : State} (hr : Runs may s t) (hs : P s) : P t := by
  induction hr with
  | refl => exact hs
  | tail _ ha ih => exact h _ _ ha ih

theorem vector_get_set {α : Type} {n : Nat} (v : Vector α n) (i j : Fin n) (e : α) :
    (v.set i.val e i.isLt)[j] = if j = i then e else v[j] := by
  by_cases h : j = i
  · subst h; simp
  · have : i.val ≠ j.val := fun e => h (Fin.ext e.symm)
    simp [this, h]

variable {may : Scope} (s : State)

/-! ## Admission -/

theorem receiving_of_receivingEntry {i : Fin 16} (h : s.receivingEntry = some i) : s.au.staging[i] = .receiving := by
  simpa using List.find?_some h

theorem mem_entryNos (i : Fin 16) : i ∈ entryNos := by revert i; decide

theorem receivingEntry_eq_none : s.receivingEntry = none ↔ ∀ i : Fin 16, s.au.staging[i] ≠ .receiving := by
  simp [State.receivingEntry, List.find?_eq_none, mem_entryNos]

theorem holdEntry_acts (hm : may.Full) : Acts may s (holdEntry s) := by
  unfold holdEntry
  split
  · exact .refl
  · rename_i h; exact .single (.reserve (hm.reserve s (by simpa using h)))

theorem noticeGap_acts (last : Option Seq) (seq : Seq) : Acts may s (noticeGap last seq s) := by
  unfold noticeGap
  split
  · exact .refl
  · split; exacts [.single (.notice _), .refl]

theorem noticeSubst_acts (seq : Seq) (n : Nat) : Acts may s (noticeSubst seq n s) := by
  unfold noticeSubst; split; exacts [.single (.notice _), .refl]

/-- One staging entry changes, its copy staying, and the resolver with it. -/
theorem setEntry_act (hr : may.resolve) (i : Fin 16) (e : StagingEntry) (r : Option Resolution)
    (hord : e.ordinal = s.au.staging[i].ordinal) (hrec : e = .receiving ↔ s.au.staging[i] = .receiving) :
    UnitAct may s { s with au := { s.au with staging := s.au.staging.set i.val e i.isLt, resolver := r } } := by
  refine .restage _ hr rfl (fun j => ?_) fun j => ?_
  · rw [vector_get_set]; split
    · rename_i h; rw [h, hord]
    · rfl
  · rw [vector_get_set]; split
    · rename_i h; rw [h, hrec]
    · rfl

theorem startResolver_acts (hr : may.resolve) : Acts may s (startResolver s) := by
  unfold startResolver
  split
  · rename_i i _ _
    split
    · rename_i c hc
      exact .single (setEntry_act s hr i _ _ (by rw [hc]; rfl) (by rw [hc]; simp))
    · exact .refl
  · exact .refl

theorem resolver_act (hr : may.resolve) (r : Option Resolution) : UnitAct may s { s with au := { s.au with resolver := r } } :=
  .restage _ hr rfl (fun _ => rfl) fun _ => Iff.rfl

theorem freeText_freeEntry (i : Fin 16) (blocks : List Nat) :
    freeEntry i (freeText blocks s) = freeText blocks (freeEntry i s) := rfl

/-- The Bundle Unit's test for completion does not look at staging. -/
theorem testComplete_freeEntry (i : Fin 16) (o : Word16) :
    freeEntry i (testComplete o s) = testComplete o (freeEntry i s) := by
  have hb : (freeEntry i s).bundle o = s.bundle o := rfl
  unfold testComplete
  rw [hb]
  (repeat' split) <;> rfl

theorem planVacant_acts (hr : may.resolve) (i : Fin 16) (c : StagedCopy) (h : s.au.staging[i].ordinal = some c.ordinal) :
    Acts may s (planVacant i c s) := by
  unfold planVacant
  rw [freeText_freeEntry, testComplete_freeEntry]
  exact (((ReflTransGen.single (place_act s _)).tail (.vacant i c hr h)).tail (.complete _)).tail (freeText_act _ _)

theorem completeResolution_acts (hr : may.resolve) : Acts may s (completeResolution s) := by
  unfold completeResolution
  split
  · exact .refl
  · rename_i r _
    dsimp only
    have idle : Acts may s _ := .single (resolver_act s hr none)
    split
    · rename_i c again hc
      refine ReflTransGen.trans ?_ (startResolver_acts _ hr)
      split
      · exact .single (setEntry_act s hr r.entry _ _ (by rw [hc]; rfl) (by rw [hc]; simp))
      · split
        · exact .single (setEntry_act s hr r.entry _ _ (by rw [hc]; rfl) (by rw [hc]; simp))
        · exact idle.trans (planVacant_acts _ hr r.entry c (congrArg StagingEntry.ordinal hc))
    · exact idle.trans (startResolver_acts _ hr)

theorem bundleRefusal_eq_none {number : Word16} {b : Option Bundle} (h : bundleRefusal number b = none) :
    ∃ c, b = some c ∧ c.number = number ∧ c.receiving = true := by
  unfold bundleRefusal at h
  split at h
  · cases h
  · rename_i c
    split at h
    · cases h
    · rename_i hn
      split at h
      · rename_i hr; exact ⟨c, rfl, by simpa using hn, hr⟩
      · cases h

/-- What an accepted COPY record has passed. -/
theorem copyRefusal_eq_none {payload : List Byte} (h : copyRefusal payload s = none) :
    copyFormat payload = none ∧ octetAt payload 6 ≤ 63 ∧ seqPasses s.au.lastSeq (copySeq payload) = true ∧
    bundleRefusal (copyBundle payload) s.receivingBundle = none := by
  unfold copyRefusal at h
  split at h
  · cases h
  · rename_i hf
    split at h
    · cases h
    · rename_i hp
      split at h
      · cases h
      · rename_i hs; exact ⟨hf, by omega, by simpa using hs, h⟩

theorem ownCopy_acts (hm : may.Full) (payload : List Byte) : Acts may s (ownCopy payload s).1 := by
  unfold ownCopy
  split
  · exact .single .unreserve
  · rename_i hnone
    obtain ⟨-, -, -, hbundle⟩ := copyRefusal_eq_none s hnone
    split
    · rename_i i b hi hb
      obtain ⟨b', hb', -, hrec⟩ := bundleRefusal_eq_none hbundle
      obtain rfl : b = b' := Option.some.inj (hb.symm.trans hb')
      have hb1 : (holdEntry s).receivingBundle = some b := by
        unfold State.receivingBundle State.bundle at hb ⊢; rw [holdEntry_bu]; exact hb
      exact (((((holdEntry_acts s hm).tail (.accept i payload b hm.resolve (receiving_of_receivingEntry _ hi) hb1 hrec)).trans
        (noticeGap_acts _ _ _)).trans (noticeSubst_acts _ _ _)).trans (startResolver_acts _ hm.resolve))
    · exact .refl

/-! ## Bundles -/

/-- No bundle that the receiving bundle's ordinal names receives. -/
def State.ReceiptEnded (s : State) : Prop := ∀ b ∈ s.bu.table, s.bu.receiving = some b.ordinal → b.receiving = false

theorem receiptEnded_testComplete (o : Word16) (h : s.ReceiptEnded) : (testComplete o s).ReceiptEnded := by
  unfold testComplete
  split
  · exact h
  · split
    · intro b hb hr
      have hb := (List.dropWhile_sublist _).subset hb
      obtain ⟨b', hb', rfl⟩ := List.mem_map.mp hb
      have hr : (if _ then none else s.bu.receiving) = some _ := hr
      split at hr
      · cases hr
      · have hsame : (if b'.ordinal = o then { b' with complete := true } else b').ordinal = b'.ordinal := by split <;> rfl
        rw [hsame] at hr
        have := h b' hb' hr
        split <;> exact this
    · exact h

theorem receiptEnded_modifyBundle (b : Bundle) (f : Bundle → Bundle) (hb : s.receivingBundle = some b)
    (hf : ∀ b, (f b).receiving = false) :
    (modifyBundle b.ordinal f s).ReceiptEnded := by
  intro c hc hr
  obtain ⟨d, -, rfl⟩ := List.mem_map.mp hc
  have hr : s.bu.receiving = some _ := hr
  obtain ⟨o, hro, hbo⟩ := Option.bind_eq_some_iff.mp hb
  have hord : b.ordinal = o := by simpa using List.find?_some hbo
  split at hr
  · rename_i h; rw [if_pos h, hf]
  · rename_i h
    exact absurd ((Option.some.inj (hr.symm.trans hro)).trans hord.symm) h

theorem receiptEnded_of_bu {s t : State} (h : s.bu = t.bu) (hs : s.ReceiptEnded) : t.ReceiptEnded := by
  unfold State.ReceiptEnded at hs ⊢; rwa [← h]

theorem endReceipt_acts : Acts may s (endReceipt s) := by
  unfold endReceipt
  split
  · exact .refl
  · rename_i b hb
    split
    · rename_i hr
      split
      · rename_i hlt
        exact ((ReflTransGen.single (.truncate b hb hr hlt)).tail (.notice _)).tail (.complete _)
      · rename_i hlt; exact .single (.endReceipt b hb hr hlt)
    · exact .refl

/-- After the receipt has ended, no bundle of the receiving ordinal receives, where the ordinals are all different. -/
theorem endReceipt_ended (hn : ((endReceipt s).bu.table.map Bundle.ordinal).Nodup) : (endReceipt s).ReceiptEnded := by
  unfold endReceipt at hn ⊢
  split
  · rename_i h
    intro b hb hr
    rw [hr] at h
    exact absurd (List.find?_eq_none.mp h b hb) (by simp)
  · rename_i b hb
    rw [hb] at hn
    split
    · split
      · refine receiptEnded_testComplete _ _ ?_
        exact receiptEnded_of_bu (raiseNotice_bu _ _).symm (receiptEnded_modifyBundle s b _ hb fun _ => rfl)
      · exact receiptEnded_modifyBundle s b _ hb fun _ => rfl
    · rename_i hrec
      simp only [hrec, if_false, Bool.false_eq_true] at hn
      intro c hc hr
      obtain ⟨o, hro, hbo⟩ := Option.bind_eq_some_iff.mp hb
      have hord : b.ordinal = o := by simpa using List.find?_some hbo
      have : c = b := List.inj_on_of_nodup_map hn hc (List.mem_of_find?_eq_some hbo)
        ((Option.some.inj (hr.symm.trans hro)).trans hord.symm)
      rw [this]; exact Bool.eq_false_iff.mpr hrec

/-- What an accepted BUNDLE-OPEN record has passed. -/
theorem bundleOpenRefusal_eq_none {payload : List Byte} (h : bundleOpenRefusal payload s = none) :
    payload.length = 8 ∧ rangeAnswer (bundleChecks payload) = none ∧
    s.bundleNamed (BitVec.ofNat 16 (fieldAt2 payload 1)) = none ∧ s.bu.table.length < 8 := by
  unfold bundleOpenRefusal at h
  split at h
  · cases h
  · rename_i hl
    split at h
    · cases h
    · rename_i hr
      split at h
      · cases h
      · rename_i hn
        split at h
        · cases h
        · exact ⟨by simpa using hl, hr, hn, by omega⟩

/-- Checks that no field fails are all true. -/
theorem rangeAnswer_eq_none (checks : List (Nat × Bool)) : rangeAnswer checks = none ↔ ∀ c ∈ checks, c.2 = true := by
  simp [rangeAnswer, firstFailing]

theorem testComplete_length (o : Word16) : (testComplete o s).bu.table.length ≤ s.bu.table.length := by
  unfold testComplete
  split
  · exact Nat.le_refl _
  · split
    · exact (List.dropWhile_sublist _).length_le.trans (by simp [modifyBundle])
    · exact Nat.le_refl _

theorem endReceipt_length : (endReceipt s).bu.table.length ≤ s.bu.table.length := by
  unfold endReceipt
  split
  · exact Nat.le_refl _
  · split
    · split
      · exact (testComplete_length _ _).trans (by simp [modifyBundle])
      · simp [modifyBundle]
    · exact Nat.le_refl _

theorem ownBundleOpen_acts (payload : List Byte) : Acts may s (ownBundleOpen payload s).1 := by
  unfold ownBundleOpen
  split
  · exact .refl
  · rename_i h
    obtain ⟨-, hrange, -, hlen⟩ := bundleOpenRefusal_eq_none s h
    rw [rangeAnswer_eq_none] at hrange
    simp only [bundleChecks, List.forall_mem_cons, decide_eq_true_eq] at hrange
    obtain ⟨⟨hexpected, -⟩, -⟩ := hrange
    exact (endReceipt_acts s).tail (.addBundle payload hexpected
      (Nat.lt_of_le_of_lt (endReceipt_length s) hlen) (endReceipt_ended s))

/-! ## Tables -/

theorem checkedWrite_acts (checks : List (Nat × Bool)) (effect : State → State)
    (h : (∀ c ∈ checks, c.2 = true) → Acts may s (effect s)) : Acts may s (checkedWrite checks effect s).1 := by
  unfold checkedWrite
  split
  · exact .refl
  · rename_i hr; exact h ((rangeAnswer_eq_none _).mp hr)

theorem stoppedWrite_acts (checks : List (Nat × Bool)) (effect : State → State)
    (h : (∀ c ∈ checks, c.2 = true) → Acts may s (effect s)) : Acts may s (stoppedWrite checks effect s).1 := by
  unfold stoppedWrite
  split
  · exact checkedWrite_acts s checks effect h
  · exact .refl

theorem writeProfile_acts (index : Nat) (entry : List Byte) : Acts may s (writeProfile index entry s).1 := by
  refine stoppedWrite_acts s _ _ fun h => .single (.motion _ (fun hs => ?_) (Counts.same _) (Counts.same _) fun _ h => h)
  obtain ⟨h1, h2, h3, -, h5, h6, h7, -⟩ := hs
  simp only [profileChecks, List.forall_mem_cons, decide_eq_true_eq] at h
  obtain ⟨-, hp, hf, -, hr, -⟩ := h
  have hr' : octetAt entry 4 ≤ 255 := Nat.le_of_lt_succ (entry.getD 4 0).isLt
  exact ⟨h1, h2, h3, Nat.zero_le _, h5, h6, h7, hp.1, hp.2, hf, hr, hr'⟩

theorem setStation_acts (i : StationNo) (e : StationEntry) (h : e.offset ≤ 63) : Acts may s (setStation i e s) :=
  ((ReflTransGen.single (.station i e h)).trans (recomputeStation_acts _ i)).tail (setCheckWork_act _ i _)

theorem writeStation_acts (index : Nat) (entry : List Byte) : Acts may s (writeStation index entry s).1 :=
  stoppedWrite_acts s _ _ fun h => setStation_acts s _ _ (by
    simp only [stationChecks, List.forall_mem_cons, decide_eq_true_eq] at h
    obtain ⟨-, -, hoffset, -⟩ := h
    exact hoffset)

theorem recomputeCurve_acts (k : Fin 4) : Acts may s (recomputeCurve k s) :=
  forStations_acts s _ fun i u => by split; exacts [recomputeStation_acts u i, .refl]

theorem putCurve_act (k : Fin 4) (f : CurveSlot → CurveSlot) : UnitAct may s (putCurve k f s) :=
  fire_act_of_work s _ rfl rfl rfl rfl

theorem setCurve_acts (k : Fin 4) (c : Curve) : Acts may s (setCurve k c s) := by
  unfold setCurve
  split
  · exact (ReflTransGen.single (putCurve_act s k _)).trans (recomputeCurve_acts _ k)
  · exact .single (putCurve_act s k _)

theorem ordinal_replanEntry (code : PlanCode) (e : StagingEntry) : (replanEntry code e).ordinal = e.ordinal := by
  cases e with
  | resolved c v => simp only [replanEntry]; split <;> rfl
  | _ => rfl

theorem replanEntry_eq_receiving (code : PlanCode) (e : StagingEntry) : replanEntry code e = .receiving ↔ e = .receiving := by
  cases e with
  | resolved c v => simp only [replanEntry]; split <;> simp
  | _ => simp [replanEntry]

theorem putPlan_act (hr : may.resolve) (code : PlanCode) (p : PlanEntry) : UnitAct may s (putPlan code p s) := by
  refine .restage _ hr rfl (fun i => ?_) fun i => ?_
  · dsimp only; rw [mapAll_get, ordinal_replanEntry]
  · dsimp only; rw [mapAll_get, replanEntry_eq_receiving]

theorem setPlan_acts (hr : may.resolve) (code : PlanCode) (p : PlanEntry) : Acts may s (setPlan code p s) :=
  (ReflTransGen.single (putPlan_act s hr code p)).trans (startResolver_acts _ hr)

theorem ownerWrite_acts (hr : may.resolve) (t : Table) (index : Nat) (entry : List Byte) : Acts may s (ownerWrite t index entry s).1 := by
  cases t with
  | station => exact writeStation_acts s index entry
  | curve => exact checkedWrite_acts s _ _ fun _ => setCurve_acts s _ _
  | plan => exact checkedWrite_acts s _ _ fun _ => setPlan_acts s hr _ _
  | outputMap => exact stoppedWrite_acts s _ _ fun _ => .single (fire_act_of_work s _ rfl rfl rfl rfl)
  | lineProfile => exact writeProfile_acts s index entry

/-- A change of the line link that no counter shows. -/
theorem link_run (l : LinkController) (h : (l.crcErrors, l.frameTimeouts, l.lengthErrors, l.receiveOverruns, l.noticesDropped) =
    (s.ll.crcErrors, s.ll.frameTimeouts, s.ll.lengthErrors, s.ll.receiveOverruns, s.ll.noticesDropped)) :
    Act may s { s with ll := l } := by
  simp only [Prod.mk.injEq] at h
  obtain ⟨h1, h2, h3, h4, h5⟩ := h
  refine .link l ?_ ?_ ?_ ?_ ?_
  · rw [h1]; exact Counts.same _
  · rw [h2]; exact Counts.same _
  · rw [h3]; exact Counts.same _
  · rw [h4]; exact Counts.same _
  · rw [h5]; exact Counts.same _

theorem ownTableWrite_runs (hm : may.Full) (payload : List Byte) : Runs may s (ownTableWrite payload s).1 := by
  unfold ownTableWrite
  split
  · exact .refl
  · split
    · exact .refl
    · split
      · exact .refl
      · split
        · exact .refl
        · split
          · exact (ownerWrite_acts s hm.resolve _ _ _).runs
          · exact .single (link_run s _ rfl)

/-! ## Line commands -/

theorem lineStart_acts : Acts may s (lineStart s).1 := by
  unfold lineStart
  split
  · exact .refl
  · rename_i hl
    split
    · exact .refl
    · rename_i hc
      split
      · rename_i hg; exact .single (.start (by simpa using hl) hc hg)
      · exact .refl

theorem lineResume_acts : Acts may s (lineResume s).1 :=
  .single (.unhold _ fun h => by revert h; simp [HoldSet.isEmpty, HoldSet.resumed])

theorem lineRunOut_acts : Acts may s (lineRunOut s).1 := by
  unfold lineRunOut
  split
  · rename_i h
    split
    · exact .single (.runOut h)
    · exact .single (.stop (by rcases h with h | h <;> rw [State.firing, h] <;> rfl))
  · exact .refl

theorem lineStopNow_acts : Acts may s (lineStopNow s).1 := by
  unfold lineStopNow
  split
  · rename_i h; exact .single (.stop h)
  · exact .refl

theorem lineSetOverride_acts (payload : List Byte) : Acts may s (lineSetOverride payload s).1 := by
  unfold lineSetOverride
  split
  · exact .refl
  · exact .single (fire_act_of_work s _ rfl rfl rfl rfl)

theorem lineClearFault_acts : Acts may s (lineClearFault s).1 := by
  unfold lineClearFault
  split
  · exact .refl
  · rename_i hl
    split
    · exact .refl
    · split
      · exact .refl
      · refine (ReflTransGen.single (.marks _ ?_)).tail (.endEpisode (by simpa using hl))
        rw [List.map_map]
        exact List.map_congr_left fun c _ => core_mapContext (Context.mark .suspect) (fun _ => rfl) c

theorem lineRunReset_acts : Acts may s (lineRunReset s).1 := by
  unfold lineRunReset
  split
  · rename_i h; exact .single (.runReset h)
  · exact .refl

theorem ownLineCommand_acts (payload : List Byte) : Acts may s (ownLineCommand payload s).1 := by
  unfold ownLineCommand
  split
  · exact .refl
  · split
    · exact lineStart_acts s
    · exact .single (.hold _)
    · exact lineResume_acts s
    · exact lineRunOut_acts s
    · exact lineStopNow_acts s
    · exact lineClearFault_acts s
    · exact lineSetOverride_acts s payload
    · exact lineRunReset_acts s
    · exact .refl

/-! ## Frames -/

theorem ownFrame_runs (hm : may.Full) (kind : Byte) (payload : List Byte) : Runs may s (ownFrame kind payload s).1 := by
  unfold ownFrame
  split
  · exact (ownCopy_acts s hm payload).runs
  · exact (ownBundleOpen_acts s payload).runs
  · exact ownTableWrite_runs s hm payload
  · exact .refl
  · exact (ownLineCommand_acts s payload).runs
  · exact .refl
  · unfold ownFlagClear; (repeat' split); exacts [.refl, .single (link_run s _ rfl), .refl]
  · unfold ownNoticeMask; (repeat' split); exacts [.refl, .single (link_run s _ rfl), .refl]
  · unfold ownProtect; (repeat' split); exacts [.refl, .single (link_run s _ rfl), .refl]
  · exact .refl

theorem takeFrame_runs (hm : may.Full) (kind : Byte) (payload : List Byte) :
    Runs may s (takeFrame kind payload s) :=
  (ownFrame_runs s hm kind payload).trans (place_act _ _).runs

theorem setReceive_act (r : ReceiveState) : Act may s (setReceive r s) := link_run s _ rfl

theorem setBuffer_act (f : FrameBuffer → FrameBuffer) : Act may s (setBuffer f s) := link_run s _ rfl

theorem takeHeld_runs (hm : may.Full) : Runs may s (takeHeld s) := by
  unfold takeHeld
  split
  · exact (ReflTransGen.single (setReceive_act s .search)).trans (takeFrame_runs _ hm _ _)
  · exact .refl

theorem takeOrHold_runs (hm : may.Full) : Runs may s (takeOrHold s) := by
  unfold takeOrHold
  split
  · exact (ReflTransGen.single (setReceive_act s .search)).trans (takeFrame_runs _ hm _ _)
  · exact .single (setReceive_act s .held)

theorem freeReceiving_run : Runs may s (freeReceiving s) := UnitAct.runs .unreserve

theorem freeCopyEntry_runs : Runs may s (freeCopyEntry s) := by
  unfold freeCopyEntry; split; exacts [freeReceiving_run s, .refl]

theorem discardCrc_runs : Runs may s (discardCrc s) :=
  (((ReflTransGen.single (.link _ (Counts.bump _) (Counts.same _) (Counts.same _) (Counts.same _) (Counts.same _))).trans
    (UnitAct.runs (.notice _))).trans (freeCopyEntry_runs _)).tail (setReceive_act _ _)

theorem checkFrame_runs (hm : may.Full) : Runs may s (checkFrame s) := by
  unfold checkFrame; split; exacts [takeOrHold_runs s hm, discardCrc_runs s]

end Sys2Proof.Machine
end

section
/-! PROOFS. Every step is a run of changes from the state before it, or from the state after reset. -/

namespace Sys2Proof.Machine

open Relation

variable {may : Scope} (s : State)

/-! ## The receive state -/

theorem overrun_act (n : Nat) (h : Counts s.ll.receiveOverruns n) :
    Act may s { s with ll := { s.ll with receiveOverruns := n } } :=
  .link _ (Counts.same _) (Counts.same _) (Counts.same _) h (Counts.same _)

theorem frameGap_runs : Runs may s (frameGap s) := by
  have timeout : Runs may s (setReceive .search (freeCopyEntry
      { s with ll := { s.ll with frameTimeouts := bump s.ll.frameTimeouts } })) :=
    ((ReflTransGen.single (.link _ (Counts.same _) (Counts.bump _) (Counts.same _) (Counts.same _) (Counts.same _))).trans
      (freeCopyEntry_runs _)).tail (setReceive_act _ _)
  unfold frameGap
  split
  · exact .refl
  · exact .refl
  · exact timeout

theorem holdFrame_runs (kind : Byte) (payload : List Byte) : Runs may s (holdFrame kind payload s) := by
  unfold holdFrame
  refine ReflTransGen.tail (ReflTransGen.tail ?_ (setBuffer_act _ _)) (setReceive_act _ _)
  split; exacts [freeReceiving_run s, .refl]

theorem arriveFrame_runs (hm : may.Full) (kind : Byte) (payload : List Byte) : Runs may s (arriveFrame kind payload s) := by
  have held : Runs may s (if kind = 0x01 then holdEntry s else s) := by
    split; exacts [(holdEntry_acts s hm).runs, .refl]
  unfold arriveFrame
  dsimp only
  split
  · exact .single (overrun_act s _ (by unfold Counts; omega))
  · split
    · refine ReflTransGen.trans ?_ (takeFrame_runs _ hm kind payload)
      split; exacts [held.tail (setReceive_act _ _), held]
    · exact held.trans (holdFrame_runs _ kind payload)

/-! ## The end of an event -/

theorem reportBacklog_acts : Acts may s (reportBacklog s) := by
  unfold reportBacklog
  split
  · exact .single (.hold _)
  · split
    · exact .single (.unhold _ fun h => by revert h; simp [HoldSet.isEmpty, HoldSet.drained]; tauto)
    · exact .refl

theorem beginSending_runs : Runs may s (beginSending s) := by
  unfold beginSending; split; exacts [.single (link_run s _ rfl), .refl]

theorem finish_runs (hm : may.Full) : Runs may s (finish s) :=
  ((takeHeld_runs s hm).trans (reportBacklog_acts _).runs).trans (beginSending_runs _)

/-! ## The receive state and the COPY entry that it reserves -/

/-- A COPY frame whose kind octet has been taken stands in the buffer: it is arriving or held. -/
def LinkController.copyIn (l : LinkController) : Prop :=
  l.buffer.kind = 0x01 ∧ (l.receive = .payload ∨ l.receive = .crcHigh ∨ l.receive = .crcLow ∨ l.receive = .held)

/-- An entry is RECEIVING only while a COPY frame arrives or is held (R38). -/
def State.ReceivingSound (s : State) : Prop := s.receivingEntry ≠ none → s.ll.copyIn

/-- An octet is a run of changes; the kind octet of a COPY reserves an entry. -/
theorem receiveOctet_runs (hm : may.Full) (o : Byte)
    (h : ∀ u : State, u.au = s.au → s.ll.receive = .kind → may.reserve u) : Runs may s (receiveOctet o s) := by
  unfold receiveOctet
  split
  · split
    · exact (ReflTransGen.single (setBuffer_act s _)).tail (setReceive_act _ _)
    · exact .refl
  · split
    · exact (ReflTransGen.single (setBuffer_act s _)).tail (setReceive_act _ _)
    · exact (ReflTransGen.single (.link _ (Counts.same _) (Counts.same _) (Counts.bump _) (Counts.same _)
        (Counts.same _))).tail (setReceive_act _ _)
  · rename_i hk
    have kind : Runs may s _ := (ReflTransGen.single (setBuffer_act s (fun b => { b with kind := o }))).tail (setReceive_act _ .payload)
    dsimp only
    split
    · exact kind.trans (UnitAct.runs (.reserve (h _ rfl hk)))
    · exact kind
  · dsimp only
    have payload : Runs may s _ := .single (setBuffer_act s (fun b => { b with payload := b.payload ++ [o] }))
    split
    · exact payload
    · exact payload.tail (setReceive_act _ _)
  · exact (ReflTransGen.single (setBuffer_act s _)).tail (setReceive_act _ _)
  · exact (ReflTransGen.single (setBuffer_act s _)).trans (checkFrame_runs _ hm)
  · exact .single (overrun_act s _ (Counts.bump _))

end Sys2Proof.Machine
end

section
/-! PROOFS. Every step is a run of changes from the state before it, or from the state after reset, continued: the work of each
event, and the step. -/

namespace Sys2Proof.Machine

open Relation

variable {may : Scope} (s : State)

/-- Copies are taken in, and an entry may be reserved in every state. -/
abbrev Anyhow : Scope := ⟨fun _ => True, True⟩

/-- Copies are taken in, and an entry may be reserved while none is RECEIVING. -/
abbrev NoneReceiving : Scope := ⟨fun s => s.receivingEntry = none, True⟩

/-- Copies are taken in, and no entry is reserved. -/
abbrev NoReserve : Scope := ⟨fun _ => False, True⟩

/-- No copy is taken in. -/
abbrev NoAdmission : Scope := ⟨fun _ => False, False⟩

theorem frameSent_runs : Runs may s (frameSent s) := by
  unfold frameSent; split; exacts [.single (link_run s _ rfl), .refl]

/-- The work of an event is the line link's or the resolver's, or a run of acts that takes no copy in. -/
theorem acts_or_link {work : State → State} (h : EventWork work) :
    (∀ (may : Scope) (s : State), Acts may s (work s)) ∨ (∃ o, work = receiveOctet o) ∨ work = frameGap ∨
    work = takeHeld ∨ (∃ kind payload, work = arriveFrame kind payload) ∨ work = frameSent ∨ work = completeResolution := by
  cases h with
  | linkOctet o => exact .inr (.inl ⟨o, rfl⟩)
  | frameGap => exact .inr (.inr (.inl rfl))
  | held => exact .inr (.inr (.inr (.inl rfl)))
  | frame kind payload => exact .inr (.inr (.inr (.inr (.inl ⟨kind, payload, rfl⟩))))
  | sent => exact .inr (.inr (.inr (.inr (.inr (.inl rfl)))))
  | resolution => exact .inr (.inr (.inr (.inr (.inr (.inr rfl)))))
  | encoder a b => exact .inl fun _ s => encoderState_acts s a b
  | simulated => exact .inl fun _ s => simulatedTick_acts s
  | windowEnd => exact .inl fun _ s => .single (windowExpiry_act s)
  | reader v => exact .inl fun _ s => (ReflTransGen.single (setReader_act s .idle)).trans (readerArrival_acts _ v)
  | readerDiscard => exact .inl fun _ s => (ReflTransGen.single (setReader_act s .idle)).tail (countReaderError_act _)
  | readerGap => exact .inl fun _ s => readerGap_acts s
  | readerOctet o => exact .inl fun _ s => readerOctet_acts s o
  | cleared => exact .inl fun _ s => (ReflTransGen.single (setPrinterReceive_act s .idle)).tail (printerCleared_act _)
  | taken t => exact .inl fun _ s => (ReflTransGen.single (setPrinterReceive_act s .idle)).tail (printerTaken_act _ t)
  | done t r => exact .inl fun _ s => (ReflTransGen.single (setPrinterReceive_act s .idle)).trans (printerDone_acts _ t r)
  | printerDiscard =>
    exact .inl fun _ s => (ReflTransGen.single (setPrinterReceive_act s .idle)).tail (countPrinterError_act _)
  | printerGap => exact .inl fun _ s => printerGap_acts s
  | printerOctet o => exact .inl fun _ s => printerOctet_acts s o
  | printerSent => exact .inl fun _ s => .single (printerSent_act s)
  | estop => exact .inl fun _ s => .single (stopFault_act s .estop none)
  | ready => exact .inl fun _ s => .refl

/-- The work of an event is a run of changes, where an entry may be reserved while none is RECEIVING, and at a kind octet. -/
theorem EventWork.runs {work : State → State} (h : EventWork work) (hm : may.Full)
    (hk : ∀ u : State, u.au = s.au → s.ll.receive = .kind → may.reserve u) : Runs may s (work s) := by
  rcases acts_or_link h with h | ⟨o, rfl⟩ | rfl | rfl | ⟨kind, payload, rfl⟩ | rfl | rfl
  · exact (h may s).runs
  · exact receiveOctet_runs s hm o hk
  · exact frameGap_runs s
  · exact takeHeld_runs s hm
  · exact arriveFrame_runs s hm kind payload
  · exact frameSent_runs s
  · exact (completeResolution_acts s hm.resolve).runs

/-- The state at the end of power-on reset is reached from the one after reset by the pins and the encoder's last state. -/
theorem afterPor_acts (p : Pins) (a b : Bool) : Acts may State.reset (s.afterPor p a b) :=
  (ReflTransGen.single (.motion { MotionUnit.por with encA := a, encB := b } id (Counts.same _) (Counts.same _)
    fun _ h => h)).tail (.input p false s.countIndex s.pending)

theorem powerOn_acts (p : Pins) (a b : Bool) : Acts may State.reset (powerOn p a b s) := by
  unfold powerOn
  split
  · exact (afterPor_acts s p a b).tail (stopFault_act _ _ _)
  · exact afterPor_acts s p a b

theorem withPending_act (q : List Instr) : UnitAct may s (s.withPending q) := .input s.pins s.inReset s.countIndex q

theorem enterReset_acts : Acts may s (enterReset s) :=
  (ReflTransGen.single (endPulses_act s)).tail (.input s.pins true s.countIndex s.pending)

/-- A step is a run of changes from the state before it, or from the state after reset. -/
theorem step_runs {s t : State} (h : step s = .next t) (hm : may.Full)
    (hk : ∀ u : State, u.au = s.au → s.ll.receive = .kind → may.reserve u) : Runs may s t ∨ Runs may State.reset t := by
  rcases step_cases s t h with rfl | ⟨q, ⟨p, a, b, rfl⟩ | rfl | rfl | ⟨p, work, hw, -, rfl⟩⟩
  · exact .inl .refl
  · exact .inr ((powerOn_acts _ p a b).runs.trans (finish_runs _ hm))
  · exact .inl (Acts.runs ((ReflTransGen.single (withPending_act s q)).trans (enterReset_acts _)))
  · exact .inl (withPending_act s q).runs
  · have pins : Acts may s (setPins p (s.withPending q)) := (ReflTransGen.single (withPending_act s q)).tail (setPins_act _ p)
    exact .inl ((pins.runs.trans (hw.runs (setPins p (s.withPending q)) hm hk)).trans (finish_runs _ hm))

/-- What holds after reset and every change keeps, every step keeps. -/
theorem step_keeps_of_act {P : State → Prop} (hreset : P State.reset) (hact : ∀ s t, Act Anyhow s t → P s → P t) {s t : State}
    (h : step s = .next t) (hs : P s) : P t := by
  rcases step_runs (may := Anyhow) h ⟨fun _ _ => trivial, trivial⟩ (fun _ _ _ => trivial) with hr | hr
  · exact Runs.keeps hact hr hs
  · exact Runs.keeps hact hr hreset

/-- What holds after reset and every act and every change of the line link keeps, every step keeps. -/
theorem step_keeps {P : State → Prop} (hreset : P State.reset) (hunit : ∀ s t, UnitAct Anyhow s t → P s → P t)
    (hlink : ∀ s l, P s → P { s with ll := l }) {s t : State} (h : step s = .next t) (hs : P s) : P t :=
  step_keeps_of_act hreset (fun s _ ha => by
    cases ha with
    | unit _ hu => exact hunit s _ hu
    | link l => exact hlink s l) h hs

end Sys2Proof.Machine
end

section
/-! PROOFS. The invariants of the Line Control Unit, of the outputs, of the Motion Unit and of the printer port: every act keeps them. -/

namespace Sys2Proof.Machine

open Relation

variable {may : Scope}

/-! ## Faults and holds -/

theorem FaultSet.isEmpty_add (f : FaultSet) (c : FaultCause) : (f.add c).isEmpty = false := by
  cases c <;> simp [FaultSet.add, FaultSet.isEmpty]

theorem HoldSet.isEmpty_add (h : HoldSet) (c : HoldCause) : (h.add c).isEmpty = false := by
  cases c <;> simp [HoldSet.add, HoldSet.isEmpty]

theorem HoldSet.isEmpty_iff (h : HoldSet) : h.isEmpty = true ↔ h = HoldSet.empty := by
  cases h; simp [HoldSet.isEmpty, HoldSet.empty, and_assoc]

theorem faultsSound_of_lc {s t : State} (h : t.lc = s.lc) (hs : s.FaultsSound) : t.FaultsSound := by
  unfold State.FaultsSound; rw [h]; exact hs

theorem holdsSound_of_lc {s t : State} (h : t.lc = s.lc) (hs : s.HoldsSound) : t.HoldsSound := by
  unfold State.HoldsSound; rw [h]; exact hs

/-- A passage between two states other than FAULTED keeps what stands of the fault causes. -/
theorem faultsSound_of_line {s t : State} (l : LineState) (h : t.lc.line = l) (hl : l ≠ .faulted) (hs' : s.lc.line ≠ .faulted)
    (hf : t.lc.faults = s.lc.faults) (ha : t.lc.armed = s.lc.armed) (hn : t.lc.further = s.lc.further)
    (hs : s.FaultsSound) : t.FaultsSound := by
  obtain ⟨h1, h2, h3⟩ := hs
  subst h
  exact ⟨⟨fun _ => hl, fun _ => hf ▸ h1.mpr hs'⟩, ⟨fun _ => hl, fun _ => ha ▸ h2.mpr hs'⟩, hn ▸ h3⟩

theorem stopFault_faultsSound (c : FaultCause) (st : Option StationNo) (s : State) (hs : s.FaultsSound) :
    (stopFault c st s).FaultsSound := by
  unfold State.FaultsSound stopFault
  split
  · rename_i hl
    obtain ⟨-, h2, h3⟩ := hs
    rw [furtherFault_lc]
    refine ⟨?_, h2, by unfold bump255; dsimp only; omega⟩
    simp [FaultSet.isEmpty_add, hl]
  · rw [beginEpisode_lc]
    simp [FaultSet.isEmpty_add]

theorem UnitAct.faultsSound {s t : State} (h : UnitAct may s t) (hs : s.FaultsSound) : t.FaultsSound := by
  cases h with
  | hold c =>
    by_cases hl : s.lc.line = .faulted
    · exact faultsSound_of_lc (s := { s with lc := { s.lc with holds := s.lc.holds.add c } })
        (by rw [addHold_lc]; simp [hl]) hs
    · refine faultsSound_of_line _ rfl ?_ hl ?_ ?_ ?_ hs <;> rw [addHold_lc]
      dsimp only; split
      · decide
      · exact hl
  | unhold h _ =>
    by_cases hl : s.lc.line = .faulted
    · exact faultsSound_of_lc (s := { s with lc := { s.lc with holds := h } }) (by rw [reduceHolds_lc]; simp [hl]) hs
    · refine faultsSound_of_line _ rfl ?_ hl ?_ ?_ ?_ hs <;> rw [reduceHolds_lc]
      dsimp only; split
      · decide
      · exact hl
  | stop hf =>
    refine faultsSound_of_line .stopped ?_ (by decide) (fun h => ?_) ?_ ?_ ?_ hs
    · rw [stopLine_lc]
    · rw [State.firing, h] at hf; cases hf
    all_goals rw [stopLine_lc]
  | fault c st => exact stopFault_faultsSound c st s hs
  | runOut hl =>
    exact faultsSound_of_line (s := s) .runOut rfl (by decide) (by rcases hl with h | h <;> rw [h] <;> decide) rfl rfl rfl hs
  | start hl =>
    have hlc : (enterLine (latchTrack s)).lc = { s.lc with line := (enterLine (latchTrack s)).lc.line } ∧
        (enterLine (latchTrack s)).lc.line ≠ .faulted := by
      unfold enterLine; split <;> simp [setLine]
    have hstart : (acceptStart s).lc = { (enterLine (latchTrack s)).lc with displaced := false } := by
      simp [acceptStart, clearDisplaced]
    refine faultsSound_of_line _ rfl ?_ (by rw [hl]; decide) ?_ ?_ ?_ hs <;> rw [hstart]
    · exact hlc.2
    all_goals rw [hlc.1]
  | endEpisode => exact ⟨⟨fun _ => LineState.noConfusion, fun _ => rfl⟩, ⟨fun _ => LineState.noConfusion, fun _ => rfl⟩, Nat.zero_le _⟩
  | displaced b => exact hs
  | runReset hl =>
    have hlc : (runResetAll s).lc = (resetLine s).lc := by simp [runResetAll, resetLine]
    rw [State.FaultsSound, hlc]
    simp [resetLine, hl, FaultSet.isEmpty, FaultSet.empty]
  | _ => exact faultsSound_of_lc (by simp) hs

theorem UnitAct.holdsSound {s t : State} (h : UnitAct may s t) (hs : s.HoldsSound) : t.HoldsSound := by
  have ofLine (t : State) (h1 : t.lc.line ≠ .running) (h2 : t.lc.line ≠ .holding) : t.HoldsSound :=
    ⟨fun h => absurd h h1, fun h => absurd h h2⟩
  obtain ⟨hrun, hhold⟩ := hs
  simp only [ne_eq, ← HoldSet.isEmpty_iff] at hrun hhold
  cases h with
  | hold c =>
    unfold State.HoldsSound
    rw [addHold_lc]
    simp only [ne_eq, ← HoldSet.isEmpty_iff, HoldSet.isEmpty_add]
    exact ⟨fun hl => by
      split at hl
      · cases hl
      · rename_i h; exact absurd ⟨hrun hl, hl⟩ h, fun _ => Bool.false_ne_true⟩
  | unhold h hh =>
    unfold State.HoldsSound
    rw [reduceHolds_lc]
    simp only [ne_eq, ← HoldSet.isEmpty_iff]
    refine ⟨fun hl => ?_, fun hl => ?_⟩
    · split at hl
      · rename_i h; exact h.1
      · exact hh (hrun hl)
    · split at hl
      · cases hl
      · rename_i h
        exact fun he => h ⟨he, Bool.eq_false_iff.mpr (hhold hl), hl⟩
  | stop => exact ofLine _ (by rw [stopLine_lc]; exact LineState.noConfusion) (by rw [stopLine_lc]; exact LineState.noConfusion)
  | fault c st =>
    have hlc : (stopFault c st s).lc.line = .faulted := by
      unfold stopFault
      split
      · rename_i hl; rw [furtherFault_lc]; exact hl
      · rw [beginEpisode_lc]
    exact ofLine _ (by rw [hlc]; decide) (by rw [hlc]; decide)
  | runOut => exact ofLine _ (by simp [setLine]) (by simp [setLine])
  | start =>
    have hstart : (acceptStart s).lc = { (enterLine (latchTrack s)).lc with displaced := false } := by
      simp [acceptStart, clearDisplaced]
    unfold State.HoldsSound
    rw [hstart]
    simp only [ne_eq, ← HoldSet.isEmpty_iff]
    unfold enterLine
    split
    · rename_i he
      exact ⟨fun _ => he, fun h => by cases h⟩
    · rename_i he
      rw [raiseNotice_lc]
      exact ⟨fun h => (LineState.noConfusion h), fun _ => he⟩
  | endEpisode => exact ofLine _ LineState.noConfusion LineState.noConfusion
  | displaced b => exact ⟨fun h => (HoldSet.isEmpty_iff _).mp (hrun h), fun h he => hhold h ((HoldSet.isEmpty_iff _).mpr he)⟩
  | runReset hl =>
    have hlc : (runResetAll s).lc.line = .stopped := by simp [runResetAll, resetLine, hl]
    exact ofLine _ (by rw [hlc]; decide) (by rw [hlc]; decide)
  | _ =>
    refine holdsSound_of_lc (s := s) (by simp) ⟨fun h => (HoldSet.isEmpty_iff _).mp (hrun h), fun h he => ?_⟩
    exact hhold h ((HoldSet.isEmpty_iff _).mpr he)

/-- Settles O8: every act keeps the fault causes and the hold causes with the line state. -/
theorem everyStepKeepsFaults : Obligations.EveryStepKeepsFaults := by
  obtain ⟨-, -, -, hfaults, hholds, -⟩ := resetMeetsTheInvariants
  exact ⟨fun s t hs h => step_keeps hfaults (fun _ _ ha => ha.faultsSound) (fun _ _ h => h) h hs,
    fun s t hs h => step_keeps hholds (fun _ _ ha => ha.holdsSound) (fun _ _ h => h) h hs⟩

/-! ## Outputs -/

/-- No pulse is active and the simulated source is stopped. -/
def State.Quiet (s : State) : Prop :=
  (∀ i : StationNo, (s.fireWork i).pulse = false) ∧ s.fu.bundleKick = false ∧ s.fu.trayKick = false ∧ s.mu.sim = .stopped

theorem quiet_of_units {s t : State} (hfu : t.fu = s.fu) (hmu : t.mu = s.mu) (hs : s.Quiet) : t.Quiet := by
  unfold State.Quiet State.fireWork at hs ⊢; rw [hfu, hmu]; exact hs

theorem outputsSound_of_units {s t : State} (hl : t.firing = s.firing) (hfu : t.fu = s.fu) (hmu : t.mu = s.mu)
    (hs : s.OutputsSound) : t.OutputsSound := fun hf => quiet_of_units hfu hmu (hs (hl ▸ hf))

/-- A passage out of the firing states, or between two states outside them, leaves no pulse active. -/
theorem stopLine_quiet (l : LineState) (s : State) (hs : s.OutputsSound) : (stopLine l s).Quiet := by
  unfold stopLine
  split
  · obtain ⟨h1, h2, h3, h4⟩ := leaveFiring_outputs (setLine l s)
    exact ⟨h1, h2, h3, by rw [h4]⟩
  · rename_i hf
    exact quiet_of_units (s := s) rfl rfl (hs (by simpa using hf))

theorem addHold_firing (c : HoldCause) (s : State) : (addHold c s).firing = s.firing := by
  unfold State.firing
  rw [addHold_lc]
  dsimp only
  split
  · rename_i h; rw [h.2]; rfl
  · rfl

theorem reduceHolds_firing (h : HoldSet) (s : State) : (reduceHolds h s).firing = s.firing := by
  unfold State.firing
  rw [reduceHolds_lc]
  dsimp only
  split
  · rename_i h; rw [h.2.2]; rfl
  · rfl

theorem enterLine_firing (s : State) : (enterLine s).firing = true := by
  unfold enterLine State.firing
  split
  · rfl
  · rw [raiseNotice_lc]; rfl

theorem acceptStart_firing (s : State) : (acceptStart s).firing = true := by
  have h : (acceptStart s).firing = (enterLine (latchTrack s)).firing := by simp [State.firing, acceptStart, clearDisplaced]
  rw [h]; exact enterLine_firing _

theorem fireWork_resetFiring (i : StationNo) (s : State) :
    (resetFiring s).fireWork i = { s.fireWork i with pulse := false, pulseEnd := 0 } := by
  simp only [resetFiring, State.fireWork]
  exact mapAll_get _ _ i

theorem UnitAct.outputsSound {s t : State} (h : UnitAct may s t) (hs : s.OutputsSound) : t.OutputsSound := by
  have firingStays (t : State) (h : t.firing = true) : t.OutputsSound := fun hf => absurd (h.symm.trans hf) Bool.noConfusion
  cases h with
  | motion m _ _ _ hsim =>
    intro hf
    obtain ⟨h1, h2, h3, h4⟩ := hs hf
    exact ⟨h1, h2, h3, hsim hf h4⟩
  | fire f _ hp hb ht =>
    intro hf
    obtain ⟨h1, h2, h3, h4⟩ := hs hf
    exact ⟨fun i => Bool.eq_false_iff.mpr fun h => Bool.false_ne_true ((h1 i).symm.trans (hp i h)),
      Bool.eq_false_iff.mpr fun h => Bool.false_ne_true (h2.symm.trans (hb h)),
      Bool.eq_false_iff.mpr fun h => Bool.false_ne_true (h3.symm.trans (ht h)), h4⟩
  | pulse i h => exact firingStays _ h
  | kick i =>
    rcases takeKick_cases i s with ⟨h, -⟩ | ⟨tray, rest, -, hf, -, h⟩
    · rw [h]; exact hs
    · rw [h]; exact firingStays _ hf
  | station i e _ => exact hs
  | hold c => exact outputsSound_of_units (addHold_firing c s) (by simp) (by simp) hs
  | unhold h _ => exact outputsSound_of_units (reduceHolds_firing h s) (by simp) (by simp) hs
  | stop h => exact fun _ => stopLine_quiet .stopped s hs
  | fault c st =>
    unfold stopFault
    split
    · exact outputsSound_of_units (by rw [State.firing, furtherFault_lc]; rfl) (by simp) (by simp) hs
    · exact fun _ => quiet_of_units (s := stopLine .faulted s) (by simp [beginEpisode]) (by simp [beginEpisode])
        (stopLine_quiet .faulted s hs)
  | runOut => exact firingStays _ rfl
  | start => exact firingStays _ (acceptStart_firing s)
  | endEpisode hl => exact fun _ => hs (by rw [State.firing, hl]; rfl)
  | runReset hl =>
    have hline : (runResetAll s).firing = s.firing := by simp [State.firing, runResetAll, resetLine]
    intro hf
    obtain ⟨-, h2, h3, h4⟩ := hs (hline ▸ hf)
    refine quiet_of_units (s := resetFiring (resetMotion s)) (by simp [runResetAll]) (by simp [runResetAll]) ⟨fun i => ?_, h2, h3, h4⟩
    rw [fireWork_resetFiring]
  | _ => exact outputsSound_of_units (by simp [State.firing]) (by simp) (by simp) hs

/-- Settles O9: every act keeps the outputs inactive outside the firing states. -/
theorem everyStepKeepsOutputs : Obligations.EveryStepKeepsOutputs := by
  obtain ⟨-, -, -, -, -, houtputs, -⟩ := resetMeetsTheInvariants
  exact fun s t hs h => step_keeps houtputs (fun _ _ ha => ha.outputsSound) (fun _ _ h => h) h hs

end Sys2Proof.Machine
end

section
/-! PROOFS. The Motion Unit's ranges, the counters and the printer port: every act keeps them. -/

namespace Sys2Proof.Machine

open Relation

variable {may : Scope}

/-! ## The printer port -/

theorem resetPrinter_sound (s : State) (h : s.pp.Sound) : (resetPrinter s).pp.Sound := by
  obtain ⟨q, n, hpp, hle, hone, -⟩ := sendClear_pp { s with pp := { s.pp with
      transmit := dropJobs s.pp.transmit, jobs := [], nextTag := 0, errors := 0, stray := 0, synchronised := false } }
  unfold resetPrinter
  rw [hpp]
  refine PrinterPort.sound_of_empty ?_ (hle h.2.1) rfl rfl
  exact ⟨fun h => absurd h Bool.false_ne_true, fun h => absurd h (by dsimp only; omega)⟩

theorem runResetAll_pp (s : State) : (runResetAll s).pp = (resetPrinter s).pp := by
  simp [runResetAll, resetPrinter, sendClear]
  (repeat' split) <;> simp_all

theorem UnitAct.printerSound {s t : State} (h : UnitAct may s t) (hs : s.PrinterSound) : t.PrinterSound := by
  change t.pp.Sound
  have hs : s.pp.Sound := hs
  cases h with
  | printer p hp _ _ => exact hp hs
  | runReset => rw [runResetAll_pp]; exact resetPrinter_sound s hs
  | _ => exact (congrArg PrinterPort.Sound (by simp)).mpr hs

/-- Settles O10: every act keeps the printer port's count, jobs and tags in step. -/
theorem everyStepKeepsThePrinterPort : Obligations.EveryStepKeepsThePrinterPort := by
  obtain ⟨-, -, -, -, -, -, hprinter, -⟩ := resetMeetsTheInvariants
  exact fun s t hs h => step_keeps hprinter (fun _ _ ha => ha.printerSound) (fun _ _ h => h) h hs

/-! ## The Motion Unit -/

/-- A passage out of the firing states stops the simulated source, and leaves the rest of the Motion Unit. -/
theorem stopLine_mu (l : LineState) (s : State) : ∃ sim, (stopLine l s).mu = { s.mu with sim := sim } := by
  unfold stopLine
  split
  · exact ⟨.stopped, (leaveFiring_outputs (setLine l s)).2.2.2⟩
  · exact ⟨s.mu.sim, rfl⟩

theorem stopFault_mu (c : FaultCause) (st : Option StationNo) (s : State) :
    ∃ sim, (stopFault c st s).mu = { s.mu with sim := sim } := by
  unfold stopFault
  split
  · exact ⟨s.mu.sim, by simp⟩
  · obtain ⟨sim, h⟩ := stopLine_mu .faulted s
    exact ⟨sim, by simp only [beginEpisode, raiseNotice_mu, h]⟩

theorem acceptStart_mu (s : State) : ∃ sim, (acceptStart s).mu = { s.mu with sim := sim } := by
  have h : (acceptStart s).mu = (startSource (enterLine (latchTrack s))).mu := rfl
  have hm : (enterLine (latchTrack s)).mu = s.mu := by simp
  rw [h]
  unfold startSource
  rw [hm]
  split
  · exact ⟨_, rfl⟩
  · exact ⟨s.mu.sim, hm⟩

theorem UnitAct.motionSound {s t : State} (h : UnitAct may s t) (hs : s.MotionSound) : t.MotionSound := by
  change t.mu.Sound
  have hs : s.mu.Sound := hs
  cases h with
  | motion m hm _ _ _ => exact hm hs
  | stop =>
    obtain ⟨sim, h⟩ := stopLine_mu .stopped s
    rw [h]; exact hs
  | fault c st =>
    obtain ⟨sim, h⟩ := stopFault_mu c st s
    rw [h]; exact hs
  | start =>
    obtain ⟨sim, h⟩ := acceptStart_mu s
    rw [h]; exact hs
  | runReset =>
    have hmu : (runResetAll s).mu = (resetMotion s).mu := by simp [runResetAll, resetMotion]
    rw [hmu]
    obtain ⟨h1, h2, h3, -, h5⟩ := hs
    exact ⟨h1, h2, h3, Nat.zero_le _, h5⟩
  | _ => exact (congrArg MotionUnit.Sound (by simp)).mpr hs

/-! ## The counters -/

/-- Every counter stays, or takes a value of 16 bits. -/
def State.CountsTo (s t : State) : Prop := List.Forall₂ Counts s.counters t.counters

theorem CountsTo.sound {s t : State} (h : s.CountsTo t) (hs : s.CountersSound) : t.CountersSound := by
  unfold State.CountsTo at h
  unfold State.CountersSound at hs ⊢
  generalize s.counters = as at h hs
  generalize t.counters = bs at h
  induction h with
  | nil => exact fun n hn => absurd hn List.not_mem_nil
  | cons hc _ ih =>
    rw [List.forall_mem_cons] at hs ⊢
    exact ⟨by unfold Counts at hc; omega, ih hs.2⟩

theorem countsTo_of_eq {s t : State} (h : t.counters = s.counters) : s.CountsTo t := by
  unfold State.CountsTo; rw [h]; exact List.forall₂_same.mpr fun n _ => Counts.same n

theorem countsTo_of_notices {s t : State} (h : t.counters = { s with ll := { s.ll with noticesDropped := t.ll.noticesDropped } }.counters)
    (hn : Counts s.ll.noticesDropped t.ll.noticesDropped) : s.CountsTo t := by
  unfold State.CountsTo
  rw [h]
  simp [State.counters, hn]

theorem raiseNotice_dropped (n : Notice) (s : State) : Counts s.ll.noticesDropped (raiseNotice n s).ll.noticesDropped := by
  rw [raiseNotice_ll]
  dsimp only
  split
  · exact Counts.bump _
  · exact Counts.same _

/-- A notice counts NOTICES_DROPPED at most, whatever the operation before it left of the counters. -/
theorem raiseNotice_countsTo (n : Notice) (s u : State) (h : u.counters = s.counters) : s.CountsTo (raiseNotice n u) := by
  have hd : u.ll.noticesDropped = s.ll.noticesDropped := by simp [State.counters] at h; exact h.2.2.2.2.2.2.2.2.2.2.2.2.2
  refine countsTo_of_notices ?_ (hd ▸ raiseNotice_dropped n u)
  have hll := raiseNotice_ll n u
  simp only [State.counters, List.cons.injEq] at h ⊢
  simp [hll, h]

theorem abandonMeasurement_counters (i : StationNo) (s : State) : (abandonMeasurement i s).counters = s.counters := by
  unfold abandonMeasurement; split <;> rfl

theorem stopLine_counters (l : LineState) (s : State) : (stopLine l s).counters = s.counters := by
  have source (u : State) : ({ u with mu := { u.mu with sim := .stopped } } : State).counters = u.counters := rfl
  have pulses : (endPulses (setLine l s)).counters = s.counters := rfl
  unfold stopLine
  split
  · rw [leaveFiring, source, forStations_keeps State.counters abandonMeasurement abandonMeasurement_counters, pulses]
  · rfl

theorem stopFault_countsTo (c : FaultCause) (st : Option StationNo) (s : State) : s.CountsTo (stopFault c st s) := by
  unfold stopFault
  split
  · exact raiseNotice_countsTo _ s _ rfl
  · exact raiseNotice_countsTo _ s _ (stopLine_counters .faulted s)

theorem addHold_countsTo (c : HoldCause) (s : State) : s.CountsTo (addHold c s) := by
  unfold addHold
  dsimp only
  split
  · exact raiseNotice_countsTo _ s _ rfl
  · exact countsTo_of_eq rfl

theorem reduceHolds_countsTo (h : HoldSet) (s : State) : s.CountsTo (reduceHolds h s) := by
  unfold reduceHolds
  dsimp only
  split
  · exact raiseNotice_countsTo _ s _ rfl
  · exact countsTo_of_eq rfl

theorem startSource_counters (s : State) : (startSource s).counters = s.counters := by
  unfold startSource; split <;> rfl

theorem acceptStart_countsTo (s : State) : s.CountsTo (acceptStart s) := by
  have henter : s.CountsTo (enterLine (latchTrack s)) := by
    unfold enterLine
    split
    · exact countsTo_of_eq rfl
    · exact raiseNotice_countsTo _ s _ rfl
  have hcount : (acceptStart s).counters = (enterLine (latchTrack s)).counters := startSource_counters _
  unfold State.CountsTo
  rw [hcount]; exact henter

theorem testComplete_counters (o : Word16) (s : State) : (testComplete o s).counters = s.counters := by
  unfold testComplete; (repeat' split) <;> rfl

theorem sweep_counters (o : Word16) (pitch : PitchIndex) (g : Nat) (s : State) : (sweep o pitch g s).counters = s.counters := by
  induction g generalizing s with
  | zero => rfl
  | succ g ih =>
    rw [sweep, ih]
    unfold sweepAt
    (repeat' split) <;> rfl

theorem shiftTrack_counters (s : State) : (shiftTrack s).counters = s.counters := by
  unfold shiftTrack; split <;> rfl

theorem reserveEntry_counters (s : State) : (reserveEntry s).counters = s.counters := by
  unfold reserveEntry; split <;> rfl

theorem freeReceiving_counters (s : State) : (freeReceiving s).counters = s.counters := by
  unfold freeReceiving; split <;> rfl

theorem takeKick_counters (i : StationNo) (s : State) : (takeKick i s).counters = s.counters := by
  rcases takeKick_cases i s with ⟨h, -⟩ | ⟨_, _, -, -, -, h⟩ <;> rw [h]
  rfl

/-- A run reset leaves every counter 0. -/
theorem runResetAll_counters (s : State) : (runResetAll s).counters = List.replicate 14 0 := by
  have hpp := runResetAll_pp s
  obtain ⟨q, n, hq, -⟩ := sendClear_pp { s with pp := { s.pp with
      transmit := dropJobs s.pp.transmit, jobs := [], nextTag := 0, errors := 0, stray := 0, synchronised := false } }
  unfold resetPrinter at hpp
  rw [hq] at hpp
  have hmu : (runResetAll s).mu = (resetMotion s).mu := by simp [runResetAll, resetMotion]
  have htu : (runResetAll s).tu = (resetTrack s).tu := by simp [runResetAll, resetTrack]
  have hcu : (runResetAll s).cu = (resetChecks s).cu := by simp [runResetAll, resetChecks]
  have hgm : (runResetAll s).gm = (resetGate s).gm := by simp [runResetAll, resetGate]
  have hll : (runResetAll s).ll = (resetLink s).ll := by simp [runResetAll, resetLink]
  unfold State.counters
  rw [hpp, hmu, htu, hcu, hgm, hll]
  rfl

/-- Every act leaves each counter, or leaves it a value of 16 bits. -/
theorem UnitAct.countsTo {s t : State} (h : UnitAct may s t) : s.CountsTo t := by
  cases h with
  | motion m _ h1 h2 _ => simp [State.CountsTo, State.counters, h1, h2]
  | kick i => exact countsTo_of_eq (takeKick_counters i s)
  | check c h1 h2 h3 => simp [State.CountsTo, State.counters, h1, h2, h3]
  | printer p _ h1 h2 => simp [State.CountsTo, State.counters, h1, h2]
  | starved b n h => simp [State.CountsTo, State.counters, h]
  | ghostCount n h => simp [State.CountsTo, State.counters, h]
  | complete o => exact countsTo_of_eq (testComplete_counters o s)
  | makeUp => exact countsTo_of_eq (sweep_counters _ _ _ _)
  | shift => exact countsTo_of_eq (shiftTrack_counters s)
  | reserve => exact countsTo_of_eq (reserveEntry_counters s)
  | unreserve => exact countsTo_of_eq (freeReceiving_counters s)
  | notice n => exact raiseNotice_countsTo n s s rfl
  | hold c => exact addHold_countsTo c s
  | unhold h _ => exact reduceHolds_countsTo h s
  | stop => exact countsTo_of_eq (stopLine_counters .stopped s)
  | fault c st => exact stopFault_countsTo c st s
  | start => exact acceptStart_countsTo s
  | runReset =>
    unfold State.CountsTo
    rw [runResetAll_counters]
    simp [State.counters]
  | _ => exact countsTo_of_eq rfl

theorem Act.countersSound {s t : State} (h : Act may s t) (hs : s.CountersSound) : t.CountersSound := by
  cases h with
  | unit _ hu => exact CountsTo.sound hu.countsTo hs
  | link l h1 h2 h3 h4 h5 =>
    refine CountsTo.sound (s := s) ?_ hs
    simp [State.CountsTo, State.counters, h1, h2, h3, h4, h5]

/-- Settles O6: every act keeps the motion values and the counters in range. -/
theorem everyStepKeepsMotionAndCounters : Obligations.EveryStepKeepsMotionAndCounters := by
  obtain ⟨-, hmotion, -, -, -, -, -, -, -, -, -, hcounters, -⟩ := resetMeetsTheInvariants
  exact ⟨fun s t hs h => step_keeps hmotion (fun _ _ ha => ha.motionSound) (fun _ _ h => h) h hs,
    fun s t hs h => step_keeps_of_act hcounters (fun _ _ ha => ha.countersSound) h hs⟩

end Sys2Proof.Machine
end

section
/-! PROOFS. The ghosts before the gate and the capacity law: every act keeps them. -/

namespace Sys2Proof.Machine

open Relation

variable {may : Scope}

/-! ## Cores of the track -/

theorem stopFault_cores (c : FaultCause) (st : Option StationNo) (s : State) :
    (stopFault c st s).tu.track.map Content.core = s.tu.track.map Content.core := by
  unfold stopFault
  split
  · simp
  · simp only [beginEpisode, raiseNotice_tu]
    exact stopLine_cores s .faulted

theorem stopFault_gate (c : FaultCause) (st : Option StationNo) (s : State) : (stopFault c st s).tu.gate = s.tu.gate := by
  unfold stopFault
  split
  · simp
  · simp only [beginEpisode, raiseNotice_tu]
    rw [stopLine_tu]

theorem acceptStart_tu (s : State) : (acceptStart s).tu = (latchTrack s).tu := by
  simp [acceptStart]

theorem contentAt_acceptStart (s : State) (pos : Nat) : (acceptStart s).contentAt pos = (latchTrack s).contentAt pos := by
  unfold State.contentAt; rw [acceptStart_tu]

theorem contentAt_of_tu {s t : State} (h : t.tu = s.tu) (pos : Nat) : t.contentAt pos = s.contentAt pos := by
  unfold State.contentAt; rw [h]

theorem getD_replicate_empty (n pos : Nat) : (List.replicate n Content.empty).getD pos .empty = .empty := by
  rw [List.getD_eq_getElem?_getD, List.getElem?_replicate]; split <;> rfl

theorem runResetAll_tu (s : State) : (runResetAll s).tu = (resetTrack s).tu := by simp [runResetAll, resetTrack]

theorem runResetAll_gm (s : State) : (runResetAll s).gm = (resetGate s).gm := by simp [runResetAll, resetGate]

/-! ## Ghosts -/

/-- Ghosts stand before the gate where no ghost appears, the gate stays and it has not decided meanwhile. -/
theorem ghostsSound_of_fewer {s t : State} (hgate : t.tu.gate = s.tu.gate) (hdecided : t.gm.decided = s.gm.decided)
    (hfewer : ∀ pos, (t.contentAt pos).isGhost = true → (s.contentAt pos).isGhost = true) (hs : s.GhostsSound) :
    t.GhostsSound := by
  intro pos h
  obtain ⟨g, hg, hle, hd⟩ := hs pos (hfewer pos h)
  exact ⟨g, hgate.trans hg, hle, fun e => hdecided.trans (hd e)⟩

theorem ghostsSound_of_cores {s t : State} (hgate : t.tu.gate = s.tu.gate) (hdecided : t.gm.decided = s.gm.decided)
    (hcores : t.tu.track.map Content.core = s.tu.track.map Content.core) (hs : s.GhostsSound) : t.GhostsSound :=
  ghostsSound_of_fewer hgate hdecided
    (fun pos h => (isGhost_of_core (core_contentAt_of_map s hcores pos)).symm.trans h) hs

/-- A content that is no GHOST put on a position. -/
theorem ghostsSound_setContent {s t : State} (pos : Nat) (c : Content) (hc : c.isGhost = false)
    (htu : t.tu = (setContent pos c s).tu) (hdecided : t.gm.decided = s.gm.decided) (hs : s.GhostsSound) : t.GhostsSound := by
  refine ghostsSound_of_fewer (s := s) (by rw [htu]; rfl) hdecided (fun q h => ?_) hs
  rw [contentAt_of_tu htu] at h
  by_cases hq : q = pos
  · subst hq
    by_cases hl : q < s.trackLen
    · rw [contentAt_setContent_self q c s hl, hc] at h; cases h
    · rw [contentAt_beyond _ q (by rw [trackLen_setContent]; omega)] at h; cases h
  · rw [contentAt_setContent_other pos q c s hq] at h; exact h

theorem sendToMakeUp_contentAt (d : Context) (g : Nat) (pitch : PitchIndex) (u : State) (q : Nat) :
    (sendToMakeUp d g pitch u).contentAt q = if q < g then (u.contentAt q).swept d.copy.ordinal else u.contentAt q :=
  sweep_contentAt _ _ pitch g q

theorem UnitAct.ghostsSound {s t : State} (h : UnitAct may s t) (hs : s.GhostsSound) : t.GhostsSound := by
  cases h with
  | marks tr htr => exact ghostsSound_of_cores (s := s) rfl rfl htr hs
  | delivered pos c _ => exact ghostsSound_setContent (s := s) pos .empty rfl rfl rfl hs
  | excepted pos c d _ _ => exact ghostsSound_setContent (s := s) pos .empty rfl rfl rfl hs
  | makeUp g c d pitch hc hd hg =>
    have hgate : (sendToMakeUp d g pitch (setContent g .empty s)).tu.gate = s.tu.gate := sweep_gate _ _ _ _
    have hdecided : (sendToMakeUp d g pitch (setContent g .empty s)).gm.decided = s.gm.decided := sweep_decided _ _ _ _
    intro pos h
    rw [sendToMakeUp_contentAt] at h
    by_cases hpos : pos < g
    · exact ⟨g, hgate.trans hg, Nat.le_of_lt hpos, fun e => absurd e (by omega)⟩
    · rw [if_neg hpos] at h
      obtain ⟨k, hk, hle, hd⟩ := ghostsSound_setContent (s := s) g .empty rfl rfl rfl hs pos h
      exact ⟨k, hgate.trans hk, hle, fun e => hdecided.trans (hd e)⟩
  | ghostOff g _ => exact ghostsSound_setContent (s := s) g .empty rfl rfl rfl hs
  | decided hnone =>
    intro pos h
    obtain ⟨g, hg, hle, -⟩ := hs pos h
    refine ⟨g, hg, hle, fun e => ?_⟩
    subst e
    exact absurd (h.symm.trans (hnone pos hg)) Bool.noConfusion
  | shift hcopy hundecided =>
    intro pos h
    have hpos : ¬ (pos = 0 ∨ s.trackLen ≤ pos) := fun hp => by
      rw [show (newPitchGate (shiftTrack s)).contentAt pos = (shiftTrack s).contentAt pos from rfl, contentAt_shiftTrack,
        if_pos hp] at h
      cases h
    have h : (s.contentAt (pos - 1)).isGhost = true := by
      rw [show (newPitchGate (shiftTrack s)).contentAt pos = (shiftTrack s).contentAt pos from rfl, contentAt_shiftTrack,
        if_neg hpos] at h
      exact h
    obtain ⟨g, hg, hle, hd⟩ := hs (pos - 1) h
    have hgate : (newPitchGate (shiftTrack s)).tu.gate = s.tu.gate := by
      change (shiftTrack s).tu.gate = _
      unfold shiftTrack; split <;> rfl
    refine ⟨g, hgate.trans hg, ?_, fun _ => rfl⟩
    have hne : pos - 1 ≠ g := fun e => by
      rw [e] at h
      exact absurd (h.symm.trans (hundecided (hd e) g hg)) Bool.noConfusion
    omega
  | remake c rest _ _ => exact ghostsSound_setContent (s := s) 0 _ rfl rfl rfl hs
  | first i c v _ _ _ => exact ghostsSound_setContent (s := s) 0 _ rfl rfl rfl hs
  | stop => exact ghostsSound_of_cores (s := s) (by rw [stopLine_tu]) (by simp) (stopLine_cores s .stopped) hs
  | fault c st => exact ghostsSound_of_cores (s := s) (stopFault_gate c st s) (by simp) (stopFault_cores c st s) hs
  | start _ _ hgeo =>
    intro pos h
    rw [contentAt_acceptStart] at h
    have hgm : (acceptStart s).gm = s.gm := by simp
    rw [acceptStart_tu, hgm]
    unfold latchTrack State.contentAt at h
    unfold State.geometryFits at hgeo
    by_cases hocc : s.trackOccupied = true
    · rw [if_pos hocc] at hgeo
      simp only [hocc, if_true] at h
      obtain ⟨g, hg, hle, hd⟩ := hs pos h
      have hsame : s.tu.gate = some (s.offsetOf .gate) := of_decide_eq_true (Bool.and_eq_true_iff.mp hgeo).2
      exact ⟨g, hsame.symm.trans hg, hle, hd⟩
    · simp only [hocc, if_false, Bool.false_eq_true] at h
      rw [getD_replicate_empty] at h
      cases h
  | runReset =>
    intro pos h
    rw [State.contentAt, runResetAll_tu] at h
    exact absurd ((congrArg Content.isGhost (getD_replicate_empty _ pos)).symm.trans h) Bool.noConfusion
  | _ => exact ghostsSound_of_cores (s := s) (by simp) (by simp) (by simp) hs

/-- Settles O11: every act keeps the ghosts before the gate. -/
theorem everyStepKeepsGhostsBeforeTheGate : Obligations.EveryStepKeepsGhostsBeforeTheGate := by
  obtain ⟨-, -, -, -, -, -, -, -, -, -, hghosts, -⟩ := resetMeetsTheInvariants
  exact fun s t hs h => step_keeps hghosts (fun _ _ ha => ha.ghostsSound) (fun _ _ h => h) h hs

end Sys2Proof.Machine
end

section
/-! PROOFS. The contexts on the track and in the make-up queue: what moves them, and the capacity law. -/

namespace Sys2Proof.Machine

open Relation

variable {may : Scope}

/-! ## Lists -/

/-- A list with one entry exchanged: what a filtering map takes from it. -/
theorem perm_filterMap_set {α β : Type} (f : α → Option β) (l : List α) (i : Nat) (a b : α) (h : l[i]? = some a) :
    ((f a).toList ++ (l.set i b).filterMap f).Perm ((f b).toList ++ l.filterMap f) := by
  induction l generalizing i with
  | nil => simp at h
  | cons x l ih =>
    cases i with
    | zero =>
      obtain rfl : x = a := by simpa using h
      simp only [List.set_cons_zero, List.filterMap_cons]
      cases f x <;> cases f b <;> simp [List.Perm.swap]
    | succ i =>
      have := ih i (by simpa using h)
      simp only [List.set_cons_succ, List.filterMap_cons]
      cases f x with
      | none => exact this
      | some y =>
        exact (List.perm_middle).trans ((this.cons y).trans List.perm_middle.symm)

theorem insertContext_perm (c : Context) (q : List Context) : (insertContext c q).Perm (c :: q) := by
  induction q with
  | nil => exact .refl _
  | cons d t ih =>
    unfold insertContext
    split
    · exact .refl _
    · exact (ih.cons d).trans (.swap c d t)

/-! ## The contexts carried -/

/-- The ordinals of the contexts on the track and in the make-up queue. -/
def State.carried (s : State) : List Word16 := s.tu.track.filterMap Content.ordinal ++ s.gm.queue.map (fun c => c.copy.ordinal)

theorem inFlight_eq (s : State) : s.inFlight = s.au.staging.toList.filterMap StagingEntry.ordinal ++ s.carried :=
  List.append_assoc _ _ _

theorem length_filterMap_ordinal (tr : List Content) : (tr.filterMap Content.ordinal).length = tr.countP Content.isCopy := by
  induction tr with
  | nil => rfl
  | cons c tr ih =>
    cases c with
    | empty => exact ih
    | ghost t => exact ih
    | copy c => exact (congrArg Nat.succ ih).trans (List.countP_cons_of_pos rfl).symm

theorem length_carried (s : State) : s.carried.length = s.trackCopies + s.gm.queue.length := by
  simp [State.carried, State.trackCopies, length_filterMap_ordinal]

/-- The ordinal of a content by its core. -/
theorem ordinals_of_cores {a b : List Content} (h : a.map Content.core = b.map Content.core) :
    a.filterMap Content.ordinal = b.filterMap Content.ordinal := by
  have key (l : List Content) : l.filterMap Content.ordinal =
      (l.map Content.core).filterMap (fun c => c.bind (fun d => d.map StagedCopy.ordinal)) := by
    rw [List.filterMap_map]
    refine List.filterMap_congr fun c _ => ?_
    cases c <;> rfl
  rw [key, key, h]

theorem carried_of_units {s t : State} (htr : t.tu.track.map Content.core = s.tu.track.map Content.core)
    (hq : t.gm.queue.map (fun c => c.copy.ordinal) = s.gm.queue.map (fun c => c.copy.ordinal)) : t.carried = s.carried := by
  unfold State.carried; rw [ordinals_of_cores htr, hq]

theorem getElem?_of_contentAt {s : State} {pos : Nat} (h : pos < s.trackLen) : s.tu.track[pos]? = some (s.contentAt pos) := by
  have h : pos < s.tu.track.length := h
  simp [State.contentAt, h]

/-- A context that leaves a position leaves the contexts carried. -/
theorem carried_leave (s : State) (pos : Nat) (c : Context) (d : Content) (h : s.contentAt pos = .copy c)
    (hd : d.ordinal = none) : s.carried.Perm (c.copy.ordinal :: (setContent pos d s).carried) := by
  have hl := lt_trackLen_of_occupied s pos (by rw [h]; simp)
  have hp := perm_filterMap_set Content.ordinal s.tu.track pos (.copy c) d (by rw [getElem?_of_contentAt hl, h])
  rw [hd] at hp
  exact (hp.symm.append_right _)

/-- A context put on an EMPTY position joins the contexts carried. -/
theorem carried_enter (s : State) (pos : Nat) (c : Context) (h : s.contentAt pos = .empty) (hl : pos < s.trackLen) :
    (setContent pos (.copy c) s).carried.Perm (c.copy.ordinal :: s.carried) := by
  have hp := perm_filterMap_set Content.ordinal s.tu.track pos .empty (.copy c) (by rw [getElem?_of_contentAt hl, h])
  exact hp.append_right _

theorem carried_enqueue (c : Context) (s : State) : (enqueue c s).carried.Perm (c.copy.ordinal :: s.carried) := by
  have hp := ((insertContext_perm c s.gm.queue).map (fun c => c.copy.ordinal))
  exact (hp.append_left _).trans List.perm_middle

/-- A sweep moves contexts from the track to the queue and loses none. -/
theorem carried_sweepAt (o : Word16) (pitch : PitchIndex) (pos : Nat) (s : State) :
    (sweepAt o pitch pos s).carried.Perm s.carried := by
  unfold sweepAt
  split
  · rename_i c hc
    split
    · have hleave := carried_leave s pos c (.ghost c.tag) hc rfl
      exact (carried_enqueue c.attempted (setContent pos (.ghost c.tag) s)).trans hleave.symm
    · exact .refl _
  · exact .refl _

theorem carried_sweep (o : Word16) (pitch : PitchIndex) (g : Nat) (s : State) : (sweep o pitch g s).carried.Perm s.carried := by
  induction g generalizing s with
  | zero => exact .refl _
  | succ g ih => exact (ih _).trans (carried_sweepAt o pitch g s)

/-- A divert to the make-up queue keeps the contexts carried. -/
theorem carried_makeUp (s : State) (g : Nat) (c d : Context) (pitch : PitchIndex) (hc : s.contentAt g = .copy c)
    (hd : d.copy = c.copy) : (sendToMakeUp d g pitch (setContent g .empty s)).carried.Perm s.carried := by
  refine (carried_sweep _ _ _ _).trans ((carried_enqueue d (setContent g .empty s)).trans ?_)
  rw [hd]
  exact (carried_leave s g c .empty hc rfl).symm

/-- The shift keeps the contexts carried where no copy stands at T − 1. -/
theorem carried_shift (s : State) (h : (s.contentAt (s.trackLen - 1)).isCopy = false) : (shiftTrack s).carried = s.carried := by
  have htr : (shiftTrack s).tu.track.filterMap Content.ordinal = s.tu.track.filterMap Content.ordinal := by
    unfold State.contentAt State.trackLen at h
    unfold shiftTrack
    split
    · rfl
    · rename_i c t htr
      rw [htr] at h
      rw [htr]
      change (c :: t).dropLast.filterMap Content.ordinal = _
      conv_rhs => rw [← List.dropLast_append_getLast (List.cons_ne_nil c t)]
      rw [List.filterMap_append]
      have hlast : Content.ordinal ((c :: t).getLast (List.cons_ne_nil c t)) = none := by
        have hget : (c :: t).getD ((c :: t).length - 1) .empty = (c :: t).getLast (List.cons_ne_nil c t) := by
          rw [List.getD_eq_getElem?_getD, List.getLast_eq_getElem]; simp
        rw [hget] at h
        cases hc : (c :: t).getLast (List.cons_ne_nil c t) <;> simp_all [Content.isCopy, Content.ordinal]
      simp [hlast]
  have hgm : (shiftTrack s).gm = s.gm := by unfold shiftTrack; split <;> rfl
  unfold State.carried
  rw [htr, hgm]

/-- An unoccupied track carries no context. -/
theorem ordinals_of_unoccupied (s : State) (h : ¬ s.trackOccupied = true) : s.tu.track.filterMap Content.ordinal = [] := by
  rw [List.filterMap_eq_nil_iff]
  intro c hc
  unfold State.trackOccupied at h
  rw [List.any_eq_true] at h
  cases c with
  | copy d => exact absurd ⟨_, hc, rfl⟩ h
  | empty => rfl
  | ghost t => rfl

theorem ordinals_of_empties (n : Nat) : (List.replicate n Content.empty).filterMap Content.ordinal = [] := by
  rw [List.filterMap_eq_nil_iff]; intro c hc; rw [List.eq_of_mem_replicate hc]; rfl

theorem carried_latchTrack (s : State) : (latchTrack s).carried = s.carried := by
  have htr : (latchTrack s).tu.track.filterMap Content.ordinal = s.tu.track.filterMap Content.ordinal := by
    unfold latchTrack
    dsimp only
    split
    · rfl
    · rename_i h; rw [ordinals_of_empties, ordinals_of_unoccupied s h]
  unfold State.carried
  rw [htr]; rfl

theorem carried_of_tu {s t : State} (htu : t.tu = s.tu) (hgm : t.gm = s.gm) : t.carried = s.carried := by
  unfold State.carried; rw [htu, hgm]

theorem trackLen_of_tu {s t : State} (htu : t.tu = s.tu) : t.trackLen = s.trackLen := by
  unfold State.trackLen; rw [htu]

theorem carried_runReset (s : State) : (runResetAll s).carried = [] := by
  rw [State.carried, runResetAll_tu, runResetAll_gm]
  simp only [resetTrack, resetGate, ordinals_of_empties]
  rfl

theorem trackLen_runReset (s : State) : (runResetAll s).trackLen = s.trackLen := by
  rw [State.trackLen, runResetAll_tu]; exact List.length_replicate

/-! ## The capacity law -/

theorem offsetOf_le {s : State} (h : ∀ i : StationNo, (s.station i).offset ≤ 63) (k : StationKind) : s.offsetOf k ≤ 63 := by
  unfold State.offsetOf
  cases s.firstOf k with
  | none => exact Nat.zero_le _
  | some i => exact h i

/-- The capacity law by the contexts carried. -/
theorem capacitySound_of_le {s t : State} (hcarried : t.carried.length ≤ t.trackLen) (hlen : 1 ≤ t.trackLen ∧ t.trackLen ≤ 64)
    (hst : t.fu.stations = s.fu.stations) (hs : s.CapacitySound) : t.CapacitySound := by
  refine ⟨length_carried t ▸ hcarried, hlen.1, hlen.2, fun i => ?_⟩
  unfold State.station
  rw [hst]
  exact hs.2.2.2 i

/-- An act that brings no context and leaves the track's length keeps the capacity law. -/
theorem capacitySound_of_fewer {s t : State} (hcarried : t.carried.length ≤ s.carried.length) (hlen : t.trackLen = s.trackLen)
    (hst : t.fu.stations = s.fu.stations) (hs : s.CapacitySound) : t.CapacitySound := by
  refine capacitySound_of_le ?_ (hlen ▸ ⟨hs.2.1, hs.2.2.1⟩) hst hs
  rw [hlen]
  exact hcarried.trans (length_carried s ▸ hs.1)

/-- Leaving the firing states ends pulses, and leaves the rest of the Firing Unit. -/
theorem stopLine_fu (l : LineState) (s : State) : (stopLine l s).fu = if s.firing = true then (endPulses s).fu else s.fu := by
  unfold stopLine
  split
  · simp only [leaveFiring]
    exact forStations_keeps (fun s => s.fu) abandonMeasurement (by simp) (endPulses (setLine l s))
  · rfl

theorem stopFault_fu (c : FaultCause) (st : Option StationNo) (s : State) :
    (stopFault c st s).fu = if s.firing = true then (endPulses s).fu else s.fu := by
  unfold stopFault
  split
  · rename_i h
    rw [furtherFault_fu, if_neg (by rw [State.firing, h]; exact Bool.false_ne_true)]
  · simp only [beginEpisode, raiseNotice_fu]
    exact stopLine_fu .faulted s

theorem UnitAct.stations {s t : State} (h : UnitAct may s t) :
    t.fu.stations = s.fu.stations ∨ ∃ i e, e.offset ≤ 63 ∧ t = putStation i e s := by
  cases h with
  | fire f hf _ _ _ => exact .inl hf
  | station i e he => exact .inr ⟨i, e, he, rfl⟩
  | kick i =>
    rcases takeKick_cases i s with ⟨h, -⟩ | ⟨_, _, -, -, -, h⟩ <;> rw [h]
    · exact .inl rfl
    · exact .inl rfl
  | stop => exact .inl (by rw [stopLine_fu]; split <;> rfl)
  | fault c st => exact .inl (by rw [stopFault_fu]; split <;> rfl)
  | runReset =>
    have hfu : (runResetAll s).fu = (resetFiring s).fu := by simp [runResetAll, resetFiring]
    exact .inl (by rw [hfu]; rfl)
  | pulse => exact .inl rfl
  | _ => exact .inl (by simp)

theorem UnitAct.capacitySound {s t : State} (h : UnitAct may s t) (hs : s.CapacitySound) : t.CapacitySound := by
  have same {t : State} (hc : t.carried = s.carried) (hl : t.trackLen = s.trackLen) (hst : t.fu.stations = s.fu.stations) :
      t.CapacitySound := capacitySound_of_fewer (by rw [hc]) hl hst hs
  have leave (pos : Nat) (c : Context) (hc : s.contentAt pos = .copy c) :
      (setContent pos .empty s).carried.length ≤ s.carried.length := by
    rw [(carried_leave s pos c .empty hc rfl).length_eq]; exact Nat.le_succ _
  rcases UnitAct.stations h with hst | ⟨i, e, he, ht⟩
  · cases h with
    | marks tr htr => exact same (carried_of_units htr rfl) (trackLen_of_map s htr) hst
    | delivered pos c hc => exact capacitySound_of_fewer (leave pos c hc) (trackLen_setContent pos .empty s) hst hs
    | excepted pos c d hc hd => exact capacitySound_of_fewer (leave pos c hc) (trackLen_setContent pos .empty s) hst hs
    | complete o => exact same (carried_of_tu (by simp) (by simp)) (trackLen_of_tu (by simp)) hst
    | makeUp g c d pitch hc hd hg =>
      exact capacitySound_of_fewer (carried_makeUp s g c d pitch hc hd).length_eq.le
        ((sweep_trackLen _ _ _ _).trans (trackLen_setContent g .empty s)) hst hs
    | ghostOff g hg =>
      refine capacitySound_of_fewer (le_of_eq ?_) (trackLen_setContent g .empty s) hst hs
      have hcore := perm_filterMap_set Content.ordinal s.tu.track g (s.contentAt g) .empty
        (getElem?_of_contentAt (lt_trackLen_of_occupied s g fun h => by rw [h] at hg; cases hg))
      have hord : (s.contentAt g).ordinal = none := by cases hc : s.contentAt g <;> simp_all [Content.isGhost, Content.ordinal]
      rw [hord] at hcore
      exact (hcore.append_right _).length_eq
    | untag => exact same (carried_of_units rfl (by rw [List.map_map]; rfl)) rfl hst
    | shift hcopy _ => exact same (carried_shift s hcopy) (trackLen_shiftTrack s) hst
    | remake c rest hq hc =>
      have hrest : ({ s with gm := { s.gm with queue := rest } } : State).carried.length + 1 = s.carried.length := by
        simp [State.carried, hq]; omega
      refine capacitySound_of_fewer (s := s) ?_ (trackLen_setContent 0 _ _) hst hs
      have hpos : 0 < s.trackLen := hs.2.1
      rw [(carried_enter { s with gm := { s.gm with queue := rest } } 0 (c.renewed .remake) hc hpos).length_eq]
      exact hrest.le
    | first i c v hq _ _ =>
      have hlen : (setContent 0 (.copy (firstRelease c v)) (freeEntry i s)).trackLen = s.trackLen := trackLen_setContent 0 _ _
      refine capacitySound_of_le ?_ (hlen ▸ ⟨hs.2.1, hs.2.2.1⟩) hst hs
      rw [length_carried, show (setContent 0 (.copy (firstRelease c v)) (freeEntry i s)).gm.queue = [] from hq]
      exact List.countP_le_length
    | reserve => exact same (carried_of_tu (by simp) (by simp)) (trackLen_of_tu (by simp)) hst
    | unreserve => exact same (carried_of_tu (by simp) (by simp)) (trackLen_of_tu (by simp)) hst
    | stop => exact same (carried_of_units (stopLine_cores s .stopped) (by simp)) (trackLen_of_map s (stopLine_cores s .stopped)) hst
    | fault c st => exact same (carried_of_units (stopFault_cores c st s) (by simp)) (trackLen_of_map s (stopFault_cores c st s)) hst
    | start _ _ hgeo =>
      have hc : (acceptStart s).carried = s.carried :=
        (carried_of_tu (s := latchTrack s) (acceptStart_tu s) (by simp)).trans (carried_latchTrack s)
      have hlen : (acceptStart s).trackLen = (latchTrack s).trackLen := trackLen_of_tu (acceptStart_tu s)
      have hstack := offsetOf_le hs.2.2.2 .stack
      unfold State.geometryFits at hgeo
      by_cases hocc : s.trackOccupied = true
      · have hsame : (latchTrack s).trackLen = s.trackLen := by simp [latchTrack, State.trackLen, hocc]
        exact same hc (hlen.trans hsame) hst
      · have hnew : (latchTrack s).trackLen = s.offsetOf .stack + 1 := by simp [latchTrack, State.trackLen, hocc]
        rw [if_neg hocc, decide_eq_true_eq] at hgeo
        refine capacitySound_of_le ?_ (by omega) hst hs
        rw [hc, hlen, hnew]
        simpa [State.carried, ordinals_of_unoccupied s hocc] using hgeo
    | runReset =>
      exact capacitySound_of_fewer (by rw [carried_runReset]; exact Nat.zero_le _) (trackLen_runReset s) hst hs
    | starved => exact same rfl rfl hst
    | ghostCount => exact same rfl rfl hst
    | decided => exact same rfl rfl hst
    | _ => exact same (carried_of_tu (by simp) (by simp)) (trackLen_of_tu (by simp)) hst
  · subst ht
    refine ⟨hs.1, hs.2.1, hs.2.2.1, fun j => ?_⟩
    have hget : (putStation i e s).station j = if j = i then e else s.station j := vector_get_set s.fu.stations i j e
    rw [hget]
    split
    · exact he
    · exact hs.2.2.2 j

/-- Settles O12: every act keeps the capacity law. -/
theorem everyStepKeepsTheCapacityLaw : Obligations.EveryStepKeepsTheCapacityLaw := by
  obtain ⟨-, -, -, -, -, -, -, -, -, -, -, -, hcapacity, -⟩ := resetMeetsTheInvariants
  exact fun s t hs h => step_keeps hcapacity (fun _ _ ha => ha.capacitySound) (fun _ _ h => h) h hs

end Sys2Proof.Machine
end

section
/-! PROOFS. The balance of every bundle: the bundle table with the ordinals in flight, and what each act makes of both. -/

namespace Sys2Proof.Machine

open Relation

variable {may : Scope}

/-! ## Ordinals in turn -/

theorem ordinalRun_succ (next : Word16) (n : Nat) : ordinalRun (next + 1) (n + 1) = ordinalRun next n ++ [next] := by
  unfold ordinalRun
  rw [List.range_succ, List.map_append]
  congr 1
  · refine List.map_congr_left fun k hk => ?_
    have hk : k < n := List.mem_range.mp hk
    rw [show n + 1 - k = (n - k) + 1 by omega, BitVec.ofNat_add]
    generalize BitVec.ofNat 16 (n - k) = x
    bv_omega
  · have h : n + 1 - n = 1 := by omega
    simp only [List.map_cons, List.map_nil, h]
    congr 1
    bv_omega

theorem ordinalRun_cons (next : Word16) (n : Nat) : ordinalRun next (n + 1) = (next - BitVec.ofNat 16 (n + 1)) :: ordinalRun next n := by
  unfold ordinalRun
  rw [List.range_succ_eq_map, List.map_cons, List.map_map]
  congr 1
  exact List.map_congr_left fun k _ => by simp only [Function.comp, Nat.succ_eq_add_one, Nat.add_sub_add_right]

@[simp] theorem length_ordinalRun (next : Word16) (n : Nat) : (ordinalRun next n).length = n := by simp [ordinalRun]

/-- What remains of ordinals in turn behind a front. -/
theorem ordinalRun_suffix (next : Word16) (n : Nat) (front back : List Word16) (h : front ++ back = ordinalRun next n) :
    back = ordinalRun next back.length := by
  induction front generalizing n with
  | nil =>
    have h : back = ordinalRun next n := h
    rw [h, length_ordinalRun]
  | cons x front ih =>
    cases n with
    | zero => cases h
    | succ n => rw [ordinalRun_cons] at h; exact ih n (List.cons.inj h).2

theorem mem_ordinalRun {next o : Word16} {n : Nat} (hn : n ≤ 8) (h : o ∈ ordinalRun next n) :
    1 ≤ (next - o).toNat ∧ (next - o).toNat ≤ n := by
  obtain ⟨k, hk, rfl⟩ := List.mem_map.mp h
  have hk : k < n := List.mem_range.mp hk
  have hx : (BitVec.ofNat 16 (n - k)).toNat = n - k := by rw [BitVec.toNat_ofNat]; omega
  generalize BitVec.ofNat 16 (n - k) = x at hx ⊢
  have : next - (next - x) = x := by bv_omega
  rw [this]; omega

theorem nodup_ordinalRun (next : Word16) (n : Nat) (hn : n ≤ 8) : (ordinalRun next n).Nodup := by
  induction n with
  | zero => exact List.nodup_nil
  | succ n ih =>
    rw [ordinalRun_cons, List.nodup_cons]
    refine ⟨fun h => ?_, ih (by omega)⟩
    have hle := (mem_ordinalRun (by omega) h).2
    have hx : (BitVec.ofNat 16 (n + 1)).toNat = n + 1 := by rw [BitVec.toNat_ofNat]; omega
    generalize BitVec.ofNat 16 (n + 1) = x at hx hle
    have hback : next - (next - x) = x := by bv_omega
    rw [hback] at hle
    omega

/-! ## The bundle table with the ordinals in flight -/

/-- What stands of one bundle: its receipt, its counts with the number of its copies in flight, and its completion. -/
structure BundleOk (receiving : Option Word16) (count : Word16 → Nat) (b : Bundle) : Prop where
  le : b.received ≤ b.expected
  ended : b.receiving = false ↔ b.received = b.expected
  named : b.receiving = true → receiving = some b.ordinal
  ofComplete : b.complete = true → b.receiving = false
  balance : b.delivered + b.excepted + count b.ordinal = b.received
  accounted : b.complete = true → b.delivered + b.excepted = b.expected

/-- What stands of the bundle table with the ordinals in flight. -/
structure Balance (bu : BundleUnit) (flight : List Word16) : Prop where
  length : bu.table.length ≤ 8
  ordinals : bu.table.map Bundle.ordinal = ordinalRun bu.nextOrdinal bu.table.length
  receiving : bu.receiving = none ∨
    (bu.receiving = some (bu.nextOrdinal - 1) ∧ bu.nextOrdinal - 1 ∈ bu.table.map Bundle.ordinal)
  inTable : ∀ o ∈ flight, o ∈ bu.table.map Bundle.ordinal
  bundles : ∀ b ∈ bu.table, BundleOk bu.receiving (fun o => flight.count o) b

theorem balanceSound_iff (s : State) : s.BalanceSound ↔ Balance s.bu s.inFlight ∧ 1 ≤ s.trackLen := by
  constructor
  · rintro ⟨⟨h1, h2, h3, h4⟩, h5, h6, h7⟩
    refine ⟨⟨h1, h2, h4, h6, fun b hb => ?_⟩, h5⟩
    obtain ⟨a, e, n, c⟩ := h3 b hb
    obtain ⟨k, m⟩ := h7 b hb
    exact ⟨a, e, n, c, k, m⟩
  · rintro ⟨⟨h1, h2, h4, h6, h7⟩, h5⟩
    exact ⟨⟨h1, h2, fun b hb => ⟨(h7 b hb).le, (h7 b hb).ended, (h7 b hb).named, (h7 b hb).ofComplete⟩, h4⟩, h5, h6,
      fun b hb => ⟨(h7 b hb).balance, (h7 b hb).accounted⟩⟩

theorem Balance.nodup {bu : BundleUnit} {fl : List Word16} (h : Balance bu fl) : (bu.table.map Bundle.ordinal).Nodup := by
  rw [h.ordinals]; exact nodup_ordinalRun _ _ h.length

theorem Balance.perm {bu : BundleUnit} {fl fl' : List Word16} (h : Balance bu fl) (hp : fl'.Perm fl) : Balance bu fl' :=
  ⟨h.length, h.ordinals, h.receiving, fun o ho => h.inTable o (hp.mem_iff.mp ho), fun b hb => by
    have hb := h.bundles b hb
    exact ⟨hb.le, hb.ended, hb.named, hb.ofComplete, (hp.count_eq b.ordinal) ▸ hb.balance, hb.accounted⟩⟩

/-- The kicks are no part of the balance. -/
theorem Balance.of_kicks {bu : BundleUnit} {fl : List Word16} (h : Balance bu fl) (k : List Bool) :
    Balance { bu with kicks := k } fl := ⟨h.length, h.ordinals, h.receiving, h.inTable, h.bundles⟩

/-- The bundle of one ordinal changes, and only its copies in flight. -/
theorem Balance.modify {bu : BundleUnit} {fl fl' : List Word16} (h : Balance bu fl) (o : Word16) (f : Bundle → Bundle)
    (hord : ∀ b, (f b).ordinal = b.ordinal) (hcount : ∀ p, p ≠ o → fl'.count p = fl.count p)
    (hin : ∀ p ∈ fl', p ∈ bu.table.map Bundle.ordinal)
    (hf : ∀ b ∈ bu.table, b.ordinal = o → BundleOk bu.receiving (fun o => fl.count o) b →
      BundleOk bu.receiving (fun o => fl'.count o) (f b)) :
    Balance { bu with table := bu.table.map (fun b => if b.ordinal = o then f b else b) } fl' := by
  have hmap : (bu.table.map (fun b => if b.ordinal = o then f b else b)).map Bundle.ordinal = bu.table.map Bundle.ordinal := by
    rw [List.map_map]
    refine List.map_congr_left fun b _ => ?_
    simp only [Function.comp]
    split
    · exact hord b
    · rfl
  refine ⟨by simpa using h.length, ?_, ?_, ?_, fun b hb => ?_⟩
  · dsimp only; rw [hmap, List.length_map]; exact h.ordinals
  · dsimp only; rw [hmap]; exact h.receiving
  · dsimp only; rw [hmap]; exact hin
  · obtain ⟨c, hc, rfl⟩ := List.mem_map.mp hb
    have hok := h.bundles c hc
    by_cases ho : c.ordinal = o
    · simp only [ho, if_true]; exact hf c hc ho hok
    · simp only [ho, if_false]
      exact ⟨hok.le, hok.ended, hok.named, hok.ofComplete, (hcount _ ho).symm ▸ hok.balance, hok.accounted⟩

/-- A copy in flight is counted, delivered or excepted. -/
theorem Balance.counted {bu : BundleUnit} {fl : List Word16} {o : Word16} (h : Balance bu (o :: fl)) (f : Bundle → Bundle)
    (hf : ∀ b, (f b).ordinal = b.ordinal ∧ (f b).received = b.received ∧ (f b).expected = b.expected ∧
      (f b).receiving = b.receiving ∧ (f b).complete = b.complete ∧
      (f b).delivered + (f b).excepted = b.delivered + b.excepted + 1) :
    Balance { bu with table := bu.table.map (fun b => if b.ordinal = o then f b else b) } fl := by
  refine h.modify o f (fun b => (hf b).1) (fun p hp => ?_) (fun p hp => h.inTable p (List.mem_cons_of_mem o hp))
    fun b hb ho hok => ?_
  · exact (List.count_cons_of_ne (Ne.symm hp)).symm
  · obtain ⟨h1, h2, h3, h4, h5, h6⟩ := hf b
    have hbal := hok.balance
    simp only [ho, List.count_cons_self] at hbal
    have hle := hok.le
    refine ⟨by rw [h2, h3]; exact hle, by rw [h2, h3, h4]; exact hok.ended, by rw [h1, h4]; exact hok.named,
      by rw [h4, h5]; exact hok.ofComplete, ?_, fun hc => ?_⟩
    · rw [h1, h2, h6, ho]; omega
    · have := hok.accounted (h5 ▸ hc); omega

/-- A bundle that is done is marked COMPLETE. -/
theorem Balance.marked {bu : BundleUnit} {fl : List Word16} {o : Word16} {b : Bundle} (h : Balance bu fl)
    (hb : bu.table.find? (fun b => decide (b.ordinal = o)) = some b) (hdone : b.done = true) :
    Balance { bu with table := bu.table.map (fun b => if b.ordinal = o then { b with complete := true } else b) } fl := by
  refine h.modify o (fun b => { b with complete := true }) (fun _ => rfl) (fun _ _ => rfl) h.inTable fun c hc ho hok => ?_
  have hbo : b.ordinal = o := by simpa using List.find?_some hb
  obtain rfl : c = b := List.inj_on_of_nodup_map h.nodup hc (List.mem_of_find?_eq_some hb) (ho.trans hbo.symm)
  simp only [Bundle.done, Bool.and_eq_true, decide_eq_true_eq, Bool.not_eq_eq_eq_not, Bool.not_true] at hdone
  exact ⟨hok.le, hok.ended, hok.named, fun _ => hdone.1, hok.balance, fun _ => hdone.2⟩

/-- The COMPLETE bundles at the front of the table leave it: none of their copies is in flight. -/
theorem Balance.closed {bu : BundleUnit} {fl : List Word16} (h : Balance bu fl) :
    Balance { bu with
      table := bu.table.dropWhile Bundle.complete
      receiving := if (bu.table.takeWhile Bundle.complete).any (fun b => decide (bu.receiving = some b.ordinal)) then none
        else bu.receiving } fl := by
  have hsplit := List.takeWhile_append_dropWhile (p := Bundle.complete) (l := bu.table)
  have hord := h.ordinals
  have hbundles := h.bundles
  have hin := h.inTable
  have hrec := h.receiving
  have hlen := h.length
  have hnodup := h.nodup
  have hfront : ∀ b ∈ bu.table.takeWhile Bundle.complete, b.complete = true := fun b hb => List.mem_takeWhile_imp hb
  generalize bu.table.takeWhile Bundle.complete = front at hsplit hfront ⊢
  generalize bu.table.dropWhile Bundle.complete = back at hsplit ⊢
  rw [← hsplit] at hord hbundles hin hrec hlen hnodup
  rw [List.map_append] at hord hnodup hin hrec
  simp only [List.mem_append] at hbundles
  have hnone : ∀ b ∈ front, fl.count b.ordinal = 0 := fun b hb => by
    have hok := hbundles b (.inl hb)
    have h1 := hok.accounted (hfront b hb)
    have h2 := hok.balance
    have h3 := hok.le
    omega
  refine ⟨by simp at hlen ⊢; omega, ?_, ?_, fun o ho => ?_, fun b hb => ?_⟩
  · simpa using ordinalRun_suffix _ _ _ _ hord
  · dsimp only
    split
    · exact .inl rfl
    · rename_i hany
      rcases hrec with hr | ⟨hr, hmem⟩
      · exact .inl hr
      · refine .inr ⟨hr, ?_⟩
        rcases List.mem_append.mp hmem with hm | hm
        · obtain ⟨b, hb, hbo⟩ := List.mem_map.mp hm
          exact absurd (List.any_eq_true.mpr ⟨b, hb, by simp [hr, hbo]⟩) hany
        · exact hm
  · rcases List.mem_append.mp (hin o ho) with hm | hm
    · obtain ⟨b, hb, rfl⟩ := List.mem_map.mp hm
      exact absurd (List.count_pos_iff.mpr ho) (by rw [hnone b hb]; exact Nat.lt_irrefl 0)
    · exact hm
  · have hok := hbundles b (.inr hb)
    refine ⟨hok.le, hok.ended, fun hr => ?_, hok.ofComplete, hok.balance, hok.accounted⟩
    have hnamed := hok.named hr
    rw [if_neg fun hany => ?_]
    · exact hnamed
    · obtain ⟨c, hc, hco⟩ := List.any_eq_true.mp hany
      rw [hnamed, decide_eq_true_eq] at hco
      have hco : b.ordinal = c.ordinal := Option.some.inj hco
      exact (List.nodup_append.mp hnodup).2.2 c.ordinal (List.mem_map_of_mem hc) b.ordinal (List.mem_map_of_mem hb) hco.symm

/-- A copy is received for the receiving bundle. -/
theorem Balance.received {bu : BundleUnit} {fl : List Word16} {b : Bundle} (h : Balance bu fl) (hb : b ∈ bu.table)
    (hr : b.receiving = true) :
    Balance { bu with table := bu.table.map (fun c => if c.ordinal = b.ordinal then
      { c with received := c.received + 1, receiving := c.receiving && decide (c.received + 1 ≠ c.expected) } else c) }
      (b.ordinal :: fl) := by
  refine h.modify b.ordinal _ (fun _ => rfl) (fun p hp => List.count_cons_of_ne (Ne.symm hp)) (fun p hp => ?_)
    fun c hc ho hok => ?_
  · rcases List.mem_cons.mp hp with rfl | hp
    · exact List.mem_map_of_mem hb
    · exact h.inTable p hp
  · obtain rfl : c = b := List.inj_on_of_nodup_map h.nodup hc hb ho
    have hne : c.received ≠ c.expected := fun e => by rw [hok.ended.mpr e] at hr; cases hr
    have hlt : c.received < c.expected := Nat.lt_of_le_of_ne hok.le hne
    refine ⟨hlt, by simp [hr], fun _ => hok.named hr, fun hc => ?_, ?_, fun hc => ?_⟩
    · rw [hok.ofComplete hc] at hr; cases hr
    · have := hok.balance
      simp only [List.count_cons_self]; omega
    · rw [hok.ofComplete hc] at hr; cases hr

/-- The receiving bundle is truncated at what it has received. -/
theorem Balance.truncated {bu : BundleUnit} {fl : List Word16} {b : Bundle} (h : Balance bu fl) (hb : b ∈ bu.table)
    (hr : b.receiving = true) :
    Balance { bu with table := bu.table.map (fun c => if c.ordinal = b.ordinal then
      { c with receiving := false, expected := c.received, truncated := true } else c) } fl := by
  refine h.modify b.ordinal (fun c => { c with receiving := false, expected := c.received, truncated := true }) (fun _ => rfl)
    (fun _ _ => rfl) h.inTable fun c hc ho hok => ?_
  obtain rfl : c = b := List.inj_on_of_nodup_map h.nodup hc hb ho
  refine ⟨Nat.le_refl _, ⟨fun _ => rfl, fun _ => rfl⟩, fun h => absurd h Bool.false_ne_true, fun _ => rfl, hok.balance, fun hc => ?_⟩
  rw [hok.ofComplete hc] at hr; cases hr

/-- A new receiving bundle joins the table, where no other receives. -/
theorem Balance.opened {bu : BundleUnit} {fl : List Word16} (b : Bundle) (h : Balance bu fl) (hlen : bu.table.length < 8)
    (hended : ∀ c ∈ bu.table, bu.receiving = some c.ordinal → c.receiving = false)
    (hb : b.ordinal = bu.nextOrdinal ∧ b.received = 0 ∧ 1 ≤ b.expected ∧ b.receiving = true ∧ b.complete = false ∧
      b.delivered = 0 ∧ b.excepted = 0) :
    Balance { bu with
      table := bu.table ++ [b], nextOrdinal := bu.nextOrdinal + 1, receiving := some bu.nextOrdinal } fl := by
  obtain ⟨h1, h2, h3, h4, h5, h6, h7⟩ := hb
  have hord : (bu.table ++ [b]).map Bundle.ordinal = ordinalRun (bu.nextOrdinal + 1) (bu.table.length + 1) := by
    rw [List.map_append, h.ordinals, ordinalRun_succ, ← h1]; rfl
  have hnew : fl.count bu.nextOrdinal = 0 := by
    by_contra hne
    have hmem := h.inTable _ (List.count_pos_iff.mp (Nat.pos_of_ne_zero hne))
    rw [h.ordinals] at hmem
    have := (mem_ordinalRun h.length hmem).1
    simp at this
  refine ⟨by simp; omega, by simpa using hord, .inr ⟨?_, ?_⟩, fun o ho => ?_, fun c hc => ?_⟩
  · simp
  · dsimp only
    rw [List.map_append]
    exact List.mem_append_right _ (by simp [h1])
  · dsimp only
    rw [List.map_append]
    exact List.mem_append_left _ (h.inTable o ho)
  · rcases List.mem_append.mp hc with hc | hc
    · have hok := h.bundles c hc
      refine ⟨hok.le, hok.ended, fun hr => ?_, hok.ofComplete, hok.balance, hok.accounted⟩
      rw [hended c hc (hok.named hr)] at hr; cases hr
    · obtain rfl := List.mem_singleton.mp hc
      exact ⟨by omega, by simp [h4, h2]; omega, fun _ => by rw [h1], fun hc => (Bool.noConfusion (h5.symm.trans hc)),
        by rw [h1, hnew]; omega, fun hc => (Bool.noConfusion (h5.symm.trans hc))⟩

theorem Balance.empty (n : Word16) (k : List Bool) : Balance { table := [], nextOrdinal := n, receiving := none, kicks := k } [] :=
  ⟨Nat.zero_le _, rfl, .inl rfl, fun _ h => absurd h List.not_mem_nil, fun _ h => absurd h List.not_mem_nil⟩

end Sys2Proof.Machine
end

section
/-! PROOFS. The balance of every bundle, continued: every act keeps it. -/

namespace Sys2Proof.Machine

open Relation

variable {may : Scope}

/-! ## The copies staged -/

/-- The ordinals of the staged copies. -/
def State.stagedOrdinals (s : State) : List Word16 := s.au.staging.toList.filterMap StagingEntry.ordinal

theorem inFlight_split (s : State) : s.inFlight = s.stagedOrdinals ++ s.carried := inFlight_eq s

theorem stagedOrdinals_of_entries {a b : Vector StagingEntry 16} (h : ∀ i : Fin 16, a[i].ordinal = b[i].ordinal) :
    a.toList.filterMap StagingEntry.ordinal = b.toList.filterMap StagingEntry.ordinal := by
  have hmap : a.toList.map StagingEntry.ordinal = b.toList.map StagingEntry.ordinal := by
    refine List.ext_getElem (by simp) fun i h1 _ => ?_
    have hi : i < 16 := by simpa using h1
    simpa using h ⟨i, hi⟩
  have key (l : List StagingEntry) : l.filterMap StagingEntry.ordinal = (l.map StagingEntry.ordinal).filterMap id := by
    rw [List.filterMap_map]; rfl
  rw [key, key, hmap]

/-- One staging entry exchanged. -/
theorem stagedOrdinals_set (v : Vector StagingEntry 16) (i : Fin 16) (e : StagingEntry) :
    (v[i].ordinal.toList ++ (v.set i.val e i.isLt).toList.filterMap StagingEntry.ordinal).Perm
      (e.ordinal.toList ++ v.toList.filterMap StagingEntry.ordinal) := by
  have h := perm_filterMap_set StagingEntry.ordinal v.toList i.val v[i] e (by simp)
  rw [← Vector.toList_set] at h
  exact h

theorem stagedOrdinals_setEntry_free (s : State) (i : Fin 16) (o : Word16) (h : s.au.staging[i].ordinal = some o) :
    s.stagedOrdinals.Perm (o :: (freeEntry i s).stagedOrdinals) := by
  have hp := stagedOrdinals_set s.au.staging i .free
  rw [h] at hp
  exact hp.symm

theorem stagedOrdinals_freeEntry_receiving (s : State) (i : Fin 16) (h : s.au.staging[i] = .receiving) :
    (freeEntry i s).stagedOrdinals.Perm s.stagedOrdinals := by
  have hp := stagedOrdinals_set s.au.staging i .free
  rw [h] at hp
  exact hp

theorem freeStaging_eq_some {s : State} {i : Fin 16} (h : s.freeStaging = some i) : s.au.staging[i] = .free := by
  simpa using List.find?_some h

theorem stagedOrdinals_reserveEntry (s : State) : (reserveEntry s).stagedOrdinals.Perm s.stagedOrdinals := by
  unfold reserveEntry
  split
  · exact .refl _
  · rename_i i hi
    have hp := stagedOrdinals_set s.au.staging i .receiving
    rw [freeStaging_eq_some hi] at hp
    exact hp

theorem stagedOrdinals_freeReceiving (s : State) : (freeReceiving s).stagedOrdinals.Perm s.stagedOrdinals := by
  unfold freeReceiving
  split
  · exact .refl _
  · rename_i i hi; exact stagedOrdinals_freeEntry_receiving s i (receiving_of_receivingEntry s hi)

theorem inFlight_of_carried {s t : State} (hau : t.au.staging = s.au.staging) (hc : t.carried.Perm s.carried) :
    t.inFlight.Perm s.inFlight := by
  rw [inFlight_split, inFlight_split]
  unfold State.stagedOrdinals
  rw [hau]
  exact hc.append_left _

theorem inFlight_of_staged {s t : State} (hc : t.carried = s.carried) (hst : t.stagedOrdinals.Perm s.stagedOrdinals) :
    t.inFlight.Perm s.inFlight := by
  rw [inFlight_split, inFlight_split, hc]
  exact hst.append_right _

theorem inFlight_leave {s t : State} {o : Word16} (hau : t.au.staging = s.au.staging) (hc : s.carried.Perm (o :: t.carried)) :
    s.inFlight.Perm (o :: t.inFlight) := by
  rw [inFlight_split, inFlight_split]
  unfold State.stagedOrdinals
  rw [hau]
  exact (hc.append_left _).trans List.perm_middle

/-! ## Acts -/

theorem testComplete_balance (o : Word16) {s : State} {fl : List Word16} (h : Balance s.bu fl) :
    Balance (testComplete o s).bu fl := by
  unfold testComplete
  split
  · exact h
  · rename_i b hb
    split
    · rename_i hd
      exact (h.marked hb hd.1).closed.of_kicks _
    · exact h

theorem UnitAct.trackLen_pos {s t : State} (h : UnitAct may s t) (hs : 1 ≤ s.trackLen) : 1 ≤ t.trackLen := by
  have same {t : State} (h : t.trackLen = s.trackLen) : 1 ≤ t.trackLen := h ▸ hs
  cases h with
  | marks tr htr => exact same (trackLen_of_map s htr)
  | makeUp g c d pitch _ _ _ => exact same ((sweep_trackLen _ _ _ _).trans (trackLen_setContent g .empty s))
  | delivered pos _ _ => exact same (trackLen_setContent pos .empty s)
  | excepted pos _ _ _ _ => exact same (trackLen_setContent pos .empty s)
  | ghostOff g _ => exact same (trackLen_setContent g .empty s)
  | shift _ _ => exact same (trackLen_shiftTrack s)
  | remake c rest _ _ => exact same (trackLen_setContent 0 _ { s with gm := { s.gm with queue := rest } })
  | first i c v _ _ _ => exact same (trackLen_setContent 0 _ (freeEntry i s))
  | stop => exact same (trackLen_of_map s (stopLine_cores s .stopped))
  | fault c st => exact same (trackLen_of_map s (stopFault_cores c st s))
  | start =>
    have hlen : (acceptStart s).trackLen = (latchTrack s).trackLen := trackLen_of_tu (acceptStart_tu s)
    rw [hlen]
    unfold latchTrack State.trackLen
    dsimp only
    split
    · exact hs
    · simp
  | runReset => exact same (trackLen_runReset s)
  | starved => exact hs
  | _ => exact same (trackLen_of_tu (by simp))

theorem runResetAll_bu (s : State) : (runResetAll s).bu = (resetBundles s).bu := by simp [runResetAll, resetBundles]

theorem runResetAll_au (s : State) : (runResetAll s).au = (resetAdmission s).au := by simp [runResetAll, resetAdmission]

theorem inFlight_runReset (s : State) : (runResetAll s).inFlight = [] := by
  rw [inFlight_split, carried_runReset, State.stagedOrdinals, runResetAll_au, List.append_nil]
  rw [List.filterMap_eq_nil_iff]
  intro e he
  simp only [resetAdmission, mapAll, Vector.toList_ofFn, List.mem_ofFn] at he
  obtain ⟨i, rfl⟩ := he
  cases s.au.staging[i] <;> rfl

theorem mem_of_receivingBundle {s : State} {b : Bundle} (h : s.receivingBundle = some b) : b ∈ s.bu.table := by
  obtain ⟨o, -, ho⟩ := Option.bind_eq_some_iff.mp h
  exact List.mem_of_find?_eq_some ho

theorem ordinal_of_oldest {s : State} {i : Fin 16} {c : StagedCopy} {v : PlanValues}
    (h : s.oldestEntry = some (i, .resolved c v)) : s.au.staging[i] = .resolved c v ∧ s.au.order.head? = some i := by
  unfold State.oldestEntry at h
  obtain ⟨j, hj, he⟩ := Option.map_eq_some_iff.mp h
  have hji : j = i := congrArg Prod.fst he
  subst hji
  exact ⟨congrArg Prod.snd he, hj⟩

theorem UnitAct.balance {s t : State} (h : UnitAct may s t) (hlen : 1 ≤ s.trackLen) (hs : Balance s.bu s.inFlight) :
    Balance t.bu t.inFlight := by
  have same {t : State} (hbu : t.bu = s.bu) (hp : t.inFlight.Perm s.inFlight) : Balance t.bu t.inFlight := by
    rw [hbu]; exact hs.perm hp
  cases h with
  | kick i =>
    have hp : (takeKick i s).inFlight.Perm s.inFlight :=
      inFlight_of_carried (by simp) (.of_eq (carried_of_tu (by simp) (by simp)))
    rcases takeKick_cases i s with ⟨h, -⟩ | ⟨_, _, -, -, -, h⟩ <;> rw [h] at hp ⊢
    · exact hs
    · exact (hs.perm hp).of_kicks _
  | marks tr htr => exact same rfl (inFlight_of_carried rfl (.of_eq (carried_of_units htr rfl)))
  | starved => exact same rfl (.refl _)
  | text b => exact same rfl (.refl _)
  | ghostCount => exact same rfl (.refl _)
  | decided => exact same rfl (.refl _)
  | delivered pos c hc =>
    refine (hs.perm (inFlight_leave (s := s) (t := setContent pos .empty s) rfl (carried_leave s pos c .empty hc rfl)).symm).counted
      (fun b => { b with delivered := b.delivered + 1, digest := b.digest + c.copy.seq.setWidth 16 }) fun b => ?_
    exact ⟨rfl, rfl, rfl, rfl, rfl, by dsimp only; omega⟩
  | excepted pos c d hc hd =>
    have hl := carried_leave s pos c .empty hc rfl
    rw [← hd] at hl
    refine (hs.perm (inFlight_leave (s := s) (t := setContent pos .empty s) rfl hl).symm).counted (fun b => { b with excepted := b.excepted + 1 }) fun b => ?_
    exact ⟨rfl, rfl, rfl, rfl, rfl, by dsimp only; omega⟩
  | complete o =>
    exact testComplete_balance o (hs.perm (inFlight_of_carried (by simp) (.of_eq (carried_of_tu (by simp) (by simp)))))
  | makeUp g c d pitch hc hd hg =>
    exact same (by simp [sendToMakeUp]) (inFlight_of_carried (by simp [sendToMakeUp]) (carried_makeUp s g c d pitch hc hd))
  | ghostOff g hg =>
    refine same rfl (inFlight_of_carried rfl ?_)
    have hcore := perm_filterMap_set Content.ordinal s.tu.track g (s.contentAt g) .empty
      (getElem?_of_contentAt (lt_trackLen_of_occupied s g fun h => by rw [h] at hg; cases hg))
    have hord : (s.contentAt g).ordinal = none := by cases hc : s.contentAt g <;> simp_all [Content.isGhost, Content.ordinal]
    rw [hord] at hcore
    exact hcore.append_right _
  | untag => exact same rfl (inFlight_of_carried rfl (.of_eq (carried_of_units rfl (by rw [List.map_map]; rfl))))
  | shift hcopy _ =>
    exact same (by simp) (inFlight_of_carried (by simp) (.of_eq (carried_shift s hcopy)))
  | remake c rest hq hc =>
    refine same rfl (inFlight_of_carried rfl ?_)
    refine (carried_enter { s with gm := { s.gm with queue := rest } } 0 (c.renewed .remake) hc hlen).trans ?_
    unfold State.carried
    rw [hq]
    exact List.perm_middle.symm
  | first i c v hq hc ho =>
    refine same rfl ?_
    obtain ⟨he, -⟩ := ordinal_of_oldest ho
    have hst := stagedOrdinals_setEntry_free s i c.ordinal (by rw [he]; rfl)
    have henter := carried_enter (freeEntry i s) 0 (firstRelease c v) hc hlen
    rw [inFlight_split, inFlight_split]
    refine ((henter.append_left (freeEntry i s).stagedOrdinals).trans ?_)
    refine List.perm_middle.trans ?_
    exact (hst.append_right s.carried).symm
  | restage a _ _ hord _ =>
    exact same rfl (inFlight_of_staged rfl (.of_eq (stagedOrdinals_of_entries hord)))
  | reserve =>
    exact same (by simp) (inFlight_of_staged (carried_of_tu (by simp) (by simp)) (stagedOrdinals_reserveEntry s))
  | unreserve =>
    exact same (by simp) (inFlight_of_staged (carried_of_tu (by simp) (by simp)) (stagedOrdinals_freeReceiving s))
  | accept i payload b _ hi hb hr =>
    have hrec := hs.received (mem_of_receivingBundle hb) hr
    refine hrec.perm ?_
    have hset := stagedOrdinals_set s.au.staging i (.arrived (s.stagedOf payload b.ordinal))
    rw [hi] at hset
    rw [inFlight_split, inFlight_split]
    exact hset.append_right s.carried
  | vacant i c _ h =>
    have hst := stagedOrdinals_setEntry_free s i c.ordinal h
    refine (hs.perm (fl' := c.ordinal :: (freeEntry i s).inFlight) ?_).counted
      (fun b => { b with excepted := b.excepted + 1 }) fun b => ?_
    · rw [inFlight_split, inFlight_split]
      exact (hst.append_right s.carried).symm
    · exact ⟨rfl, rfl, rfl, rfl, rfl, by dsimp only; omega⟩
  | truncate b hb hr _ => exact hs.truncated (mem_of_receivingBundle hb) hr
  | endReceipt b hb hr hlt =>
    have hok := hs.bundles b (mem_of_receivingBundle hb)
    have hne : b.received ≠ b.expected := fun e => by rw [hok.ended.mpr e] at hr; cases hr
    exact absurd (Nat.lt_of_le_of_ne hok.le hne) hlt
  | addBundle payload hexp hlt hended =>
    exact hs.opened _ hlt (hended hs.nodup) ⟨rfl, rfl, hexp, rfl, rfl, rfl, rfl⟩
  | stop =>
    exact same (by simp) (inFlight_of_carried (by simp) (.of_eq (carried_of_units (stopLine_cores s .stopped) (by simp))))
  | fault c st =>
    exact same (by simp) (inFlight_of_carried (by simp) (.of_eq (carried_of_units (stopFault_cores c st s) (by simp))))
  | start =>
    have hc : (acceptStart s).carried = s.carried :=
      (carried_of_tu (s := latchTrack s) (acceptStart_tu s) (by simp)).trans (carried_latchTrack s)
    exact same (by simp) (inFlight_of_carried (by simp) (.of_eq hc))
  | runReset =>
    rw [runResetAll_bu, inFlight_runReset]
    exact Balance.empty 0 s.bu.kicks
  | _ => exact same (by simp) (inFlight_of_carried (by simp) (.of_eq (carried_of_tu (by simp) (by simp))))

theorem UnitAct.balanceSound {s t : State} (h : UnitAct may s t) (hs : s.BalanceSound) : t.BalanceSound := by
  rw [balanceSound_iff] at hs ⊢
  exact ⟨h.balance hs.2 hs.1, h.trackLen_pos hs.2⟩

/-- Settles O13: every act keeps the balance. -/
theorem everyStepKeepsTheBalance : Obligations.EveryStepKeepsTheBalance := by
  obtain ⟨-, -, -, -, -, -, -, -, -, -, -, -, -, hbalance, -⟩ := resetMeetsTheInvariants
  exact fun s t hs h => step_keeps hbalance (fun _ _ ha => ha.balanceSound) (fun _ _ h => h) h hs

end Sys2Proof.Machine
end

section
/-! PROOFS. The sweep and the insertion: what they make of the track, the make-up queue and the upstream queue. -/

namespace Sys2Proof.Machine

/-! ## The sweep -/

/-- The context that a sweep for ordinal o takes off a position, its attempt counted. -/
def Content.sweptContext (o : Word16) : Content → Option Context
  | .copy c => if ordinalAbove c.copy.ordinal o then some c.attempted else none
  | _ => none

theorem sweptContexts_eq (s : State) (o : Word16) (g : Nat) :
    s.sweptContexts o g = (List.range g).reverse.filterMap (fun pos => (s.contentAt pos).sweptContext o) := by
  unfold State.sweptContexts
  refine List.filterMap_congr fun pos _ => ?_
  cases s.contentAt pos <;> rfl

theorem sweptContexts_succ (s : State) (o : Word16) (g : Nat) :
    s.sweptContexts o (g + 1) = ((s.contentAt g).sweptContext o).toList ++ s.sweptContexts o g := by
  rw [sweptContexts_eq, sweptContexts_eq, List.range_succ, List.reverse_append, List.reverse_singleton, List.singleton_append]
  rw [List.filterMap_cons]
  cases (s.contentAt g).sweptContext o <;> rfl

/-- A position that has been swept does not change what the positions below it yield. -/
theorem sweptContexts_sweepAt (s : State) (o : Word16) (pitch : PitchIndex) (g : Nat) :
    (sweepAt o pitch g s).sweptContexts o g = s.sweptContexts o g := by
  rw [sweptContexts_eq, sweptContexts_eq]
  refine List.filterMap_congr fun pos hpos => ?_
  have hlt : pos < g := by simpa using hpos
  rw [sweepAt_contentAt, if_neg (by omega)]

/-- One position of a sweep. -/
theorem sweepAt_units (o : Word16) (pitch : PitchIndex) (g : Nat) (s : State) :
    (sweepAt o pitch g s).gm = { s.gm with
      queue := ((s.contentAt g).sweptContext o).toList.foldl (fun q e => insertContext e q) s.gm.queue } ∧
    (sweepAt o pitch g s).ll = { s.ll with
      upstream := s.ll.upstream ++ ((s.contentAt g).sweptContext o).toList.map (fun e => e.record .swept none pitch) } := by
  unfold sweepAt
  split
  · rename_i c hc
    rw [hc]
    by_cases ha : ordinalAbove c.copy.ordinal o = true
    · simp only [ha, if_true, Content.sweptContext]; exact ⟨rfl, rfl⟩
    · simp only [ha, Content.sweptContext]; simp
  · rename_i hc
    have hnone : (s.contentAt g).sweptContext o = none := by
      cases h : s.contentAt g with
      | copy c => exact absurd h (hc c)
      | empty => rfl
      | ghost t => rfl
    simp [hnone]

/-- The swept contexts join the make-up queue and their records the upstream queue, nearest the gate first (R123, R124). -/
theorem sweep_units (o : Word16) (pitch : PitchIndex) (g : Nat) (s : State) :
    (sweep o pitch g s).gm = { s.gm with
      queue := (s.sweptContexts o g).foldl (fun q e => insertContext e q) s.gm.queue } ∧
    (sweep o pitch g s).ll = { s.ll with
      upstream := s.ll.upstream ++ (s.sweptContexts o g).map (fun e => e.record .swept none pitch) } := by
  induction g generalizing s with
  | zero => exact ⟨rfl, by simp [sweep, State.sweptContexts]⟩
  | succ g ih =>
    obtain ⟨hgm, hll⟩ := sweepAt_units o pitch g s
    obtain ⟨hgm', hll'⟩ := ih (sweepAt o pitch g s)
    rw [sweptContexts_sweepAt] at hgm' hll'
    rw [sweep, hgm', hll', hgm, hll, sweptContexts_succ, List.foldl_append, List.map_append, List.append_assoc]
    exact ⟨rfl, rfl⟩

theorem mem_insertContext {c d : Context} {q : List Context} : d ∈ insertContext c q ↔ d = c ∨ d ∈ q := by
  rw [(insertContext_perm c q).mem_iff, List.mem_cons]

theorem mem_foldl_insertContext {d : Context} {cs q : List Context} :
    d ∈ cs.foldl (fun q e => insertContext e q) q ↔ d ∈ cs ∨ d ∈ q := by
  induction cs generalizing q with
  | nil => simp
  | cons c cs ih =>
    rw [List.foldl_cons, ih, mem_insertContext, List.mem_cons]
    tauto

theorem mem_sweptContexts {s : State} {o : Word16} {g : Nat} {d : Context} :
    d ∈ s.sweptContexts o g ↔
      ∃ pos c, pos < g ∧ s.contentAt pos = .copy c ∧ ordinalAbove c.copy.ordinal o = true ∧ d = c.attempted := by
  rw [sweptContexts_eq, List.mem_filterMap]
  constructor
  · rintro ⟨pos, hpos, h⟩
    cases hc : s.contentAt pos with
    | copy c =>
      rw [hc, Content.sweptContext, Option.ite_none_right_eq_some] at h
      obtain ⟨ha, hd⟩ := h
      obtain rfl := Option.some.inj hd
      exact ⟨pos, c, by simpa using hpos, hc, ha, rfl⟩
    | empty => rw [hc] at h; cases h
    | ghost t => rw [hc] at h; cases h
  · rintro ⟨pos, c, hpos, hc, ha, rfl⟩
    exact ⟨pos, by simpa using hpos, by rw [hc, Content.sweptContext, if_pos ha]⟩

/-- Settles O47. -/
theorem sweepMakesGhosts : Obligations.SweepMakesGhosts := by
  intro o g pitch s
  obtain ⟨hgm, hll⟩ := sweep_units o pitch g s
  refine ⟨fun pos c hpos hc ha => ⟨?_, ?_⟩, fun pos hstay => ?_, fun c hc => ?_, ?_, by simp, by simp, by simp, by simp, by simp,
    by simp, hgm, hll⟩
  · rw [sweep_contentAt, if_pos hpos, hc, Content.swept, if_pos ha]
  · rw [hgm]
    exact mem_foldl_insertContext.mpr (.inl (mem_sweptContexts.mpr ⟨pos, c, hpos, hc, ha, rfl⟩))
  · rw [sweep_contentAt]
    split
    · rename_i hlt
      rcases hstay with h | h
      · omega
      · cases hc : s.contentAt pos with
        | copy c => simp [Content.swept, h c hc]
        | empty => rfl
        | ghost t => rfl
    · rfl
  · rw [hgm]; exact mem_foldl_insertContext.mpr (.inr hc)
  · rw [← length_carried, ← length_carried]; exact (carried_sweep o pitch g s).length_eq

/-! ## The insertion -/

/-- Within 8 ordinals from a base, an ordinal is above another exactly when its distance from the base is greater. -/
theorem ordinalAbove_iff_rank {base a b : Word16} (ha : (a - base).toNat < 8) (hb : (b - base).toNat < 8) :
    ordinalAbove a b = true ↔ (b - base).toNat < (a - base).toNat := by
  unfold ordinalAbove ordinalBelow
  simp only [ne_eq, Bool.and_eq_true, decide_eq_true_eq, Bool.not_eq_eq_eq_not, Bool.not_true, decide_eq_false_iff_not]
  constructor
  · rintro ⟨h1, h2⟩
    bv_omega
  · intro h
    constructor
    · rintro rfl; omega
    · bv_omega

theorem not_ordinalAbove_iff_rank {base a b : Word16} (ha : (a - base).toNat < 8) (hb : (b - base).toNat < 8) :
    ordinalAbove a b = false ↔ (a - base).toNat ≤ (b - base).toNat := by
  rw [← Bool.not_eq_true, ordinalAbove_iff_rank ha hb, Nat.not_lt]

/-- An insertion goes behind the entries that are not above it, up to the first that is. -/
theorem insertContext_split (c : Context) (q : List Context) : ∃ front back, q = front ++ back ∧
    insertContext c q = front ++ c :: back ∧ (∀ d ∈ front, ordinalAbove d.copy.ordinal c.copy.ordinal = false) ∧
    (∀ d ∈ back.head?, ordinalAbove d.copy.ordinal c.copy.ordinal = true) := by
  induction q with
  | nil => exact ⟨[], [], rfl, rfl, by simp, by simp⟩
  | cons d t ih =>
    by_cases h : ordinalAbove d.copy.ordinal c.copy.ordinal = true
    · exact ⟨[], d :: t, rfl, by rw [insertContext, if_pos h]; rfl, by simp, by simpa using h⟩
    · obtain ⟨front, back, rfl, hins, hfront, hback⟩ := ih
      refine ⟨d :: front, back, rfl, by rw [insertContext, if_neg h, hins]; rfl, ?_, hback⟩
      rw [List.forall_mem_cons]
      exact ⟨by simpa using h, hfront⟩

/-- A make-up queue in ordinal order. -/
abbrev QueueSorted (q : List Context) : Prop := q.Pairwise (fun d e => ordinalAbove d.copy.ordinal e.copy.ordinal = false)

/-- In a queue in ordinal order, of ordinals within 8 of a base, an insertion goes before every entry above it. -/
theorem insertContext_sorted {base : Word16} {c : Context} {q : List Context}
    (hr : ∀ d ∈ c :: q, (d.copy.ordinal - base).toNat < 8) (hq : QueueSorted q) :
    QueueSorted (insertContext c q) ∧
    ∃ front back, q = front ++ back ∧ insertContext c q = front ++ c :: back ∧
      (∀ d ∈ front, ordinalAbove d.copy.ordinal c.copy.ordinal = false) ∧
      (∀ d ∈ back, ordinalAbove d.copy.ordinal c.copy.ordinal = true) := by
  obtain ⟨front, back, rfl, hins, hfront, hhead⟩ := insertContext_split c q
  rw [List.forall_mem_cons] at hr
  obtain ⟨hc, hr⟩ := hr
  have hback : ∀ d ∈ back, ordinalAbove d.copy.ordinal c.copy.ordinal = true := by
    cases back with
    | nil => simp
    | cons e back =>
      have he : ordinalAbove e.copy.ordinal c.copy.ordinal = true := by simpa using hhead
      have hre := hr e (by simp)
      rw [List.forall_mem_cons]
      refine ⟨he, fun d hd => ?_⟩
      have hrd := hr d (by simp [hd])
      have hle := (List.pairwise_cons.mp (List.pairwise_append.mp hq).2.1).1 d hd
      rw [not_ordinalAbove_iff_rank hre hrd] at hle
      rw [ordinalAbove_iff_rank hre hc] at he
      rw [ordinalAbove_iff_rank hrd hc]
      omega
  refine ⟨?_, front, back, rfl, hins, hfront, hback⟩
  obtain ⟨hpf, hpb, hcross⟩ := List.pairwise_append.mp hq
  rw [hins, QueueSorted, List.pairwise_append, List.pairwise_cons]
  refine ⟨hpf, ⟨fun d hd => ?_, hpb⟩, fun d hd e he => ?_⟩
  · have hrd := hr d (List.mem_append_right _ hd)
    have := hback d hd
    rw [ordinalAbove_iff_rank hrd hc] at this
    rw [not_ordinalAbove_iff_rank hc hrd]
    omega
  · rcases List.mem_cons.mp he with rfl | he
    · exact hfront d hd
    · exact hcross d hd e he

theorem foldl_insertContext_sorted {base : Word16} {cs q : List Context}
    (hr : ∀ d ∈ cs ++ q, (d.copy.ordinal - base).toNat < 8) (hq : QueueSorted q) :
    QueueSorted (cs.foldl (fun q e => insertContext e q) q) := by
  induction cs generalizing q with
  | nil => exact hq
  | cons c cs ih =>
    refine ih (fun d hd => hr d ?_) (insertContext_sorted (base := base) (fun d hd => hr d ?_) hq).1
    · rw [List.mem_append, mem_insertContext] at hd
      rw [List.cons_append, List.mem_cons, List.mem_append]
      tauto
    · rw [List.mem_cons] at hd
      rw [List.cons_append, List.mem_cons, List.mem_append]
      tauto

end Sys2Proof.Machine
end

section
/-! PROOFS. The combined order of the copies and the arrival order: every act keeps them, where an entry is reserved only while none is
RECEIVING. -/

namespace Sys2Proof.Machine

open Relation

/-! ## The combined order -/

/-- Ordinals that never decrease along a list. -/
abbrev InOrder (l : List Word16) : Prop := l.Pairwise (fun a b => ordinalAbove a b = false)

/-- The ordinals of the staged copies in arrival order. -/
def State.arrivals (s : State) : List Word16 := s.au.order.filterMap (fun i => s.au.staging[i].ordinal)

theorem orderedOrdinals_eq (s : State) : s.orderedOrdinals =
    (s.tu.track.filterMap Content.ordinal).reverse ++ s.gm.queue.map (fun c => c.copy.ordinal) ++ s.arrivals := by
  unfold State.orderedOrdinals State.arrivals
  rw [List.filterMap_reverse]

theorem filterMap_set_none {α β : Type} (f : α → Option β) (l : List α) (i : Nat) (b : α) (h : f b = none) :
    ((l.set i b).filterMap f).Sublist (l.filterMap f) := by
  induction l generalizing i with
  | nil => exact .refl _
  | cons x l ih =>
    cases i with
    | zero => rw [List.set_cons_zero, List.filterMap_cons_none h, List.filterMap_cons]; split; exacts [.refl _, List.sublist_cons_self _ _]
    | succ i =>
      rw [List.set_cons_succ, List.filterMap_cons, List.filterMap_cons]
      split
      · exact ih i
      · exact (ih i).cons_cons _

/-- The combined order where the track, the queue and the arrivals each lose ordinals at most. -/
theorem orderedOrdinals_sublist {s t : State} (htr : (t.tu.track.filterMap Content.ordinal).Sublist (s.tu.track.filterMap Content.ordinal))
    (hq : t.gm.queue.map (fun c => c.copy.ordinal) = s.gm.queue.map (fun c => c.copy.ordinal))
    (hst : t.arrivals.Sublist s.arrivals) : t.orderedOrdinals.Sublist s.orderedOrdinals := by
  rw [orderedOrdinals_eq, orderedOrdinals_eq, hq]
  exact (htr.reverse.append (.refl _)).append hst

theorem orderedOrdinals_subset {s : State} {o : Word16} (h : o ∈ s.orderedOrdinals) : o ∈ s.inFlight := by
  rw [orderedOrdinals_eq] at h
  rw [inFlight_split, State.carried]
  simp only [List.mem_append, List.mem_reverse] at h ⊢
  rcases h with (h | h) | h
  · exact .inr (.inl h)
  · exact .inr (.inr h)
  · obtain ⟨i, -, hi⟩ := List.mem_filterMap.mp h
    exact .inl (List.mem_filterMap.mpr ⟨_, by simp, hi⟩)

/-! ### A divert to the make-up queue -/

/-- The ordinals of the contexts on positions lo to lo + n − 1, the highest first. -/
def State.ordinalsIn (s : State) (lo n : Nat) : List Word16 :=
  (List.range' lo n).reverse.filterMap (fun pos => (s.contentAt pos).ordinal)

theorem ordinalsIn_all (s : State) : (s.tu.track.filterMap Content.ordinal).reverse = s.ordinalsIn 0 s.trackLen := by
  unfold State.ordinalsIn
  rw [List.filterMap_reverse]
  have htr : s.tu.track = (List.range' 0 s.trackLen).map s.contentAt := by
    refine List.ext_getElem (by simp [State.trackLen]) fun i h1 h2 => ?_
    simp [State.contentAt, h1]
  conv_lhs => rw [htr]
  rw [List.filterMap_map]
  rfl

theorem ordinalsIn_append (s : State) (lo m n : Nat) : s.ordinalsIn lo (m + n) = s.ordinalsIn (lo + m) n ++ s.ordinalsIn lo m := by
  unfold State.ordinalsIn
  rw [← List.range'_append_1, List.reverse_append, List.filterMap_append]

theorem ordinalsIn_one (s : State) (pos : Nat) : s.ordinalsIn pos 1 = (s.contentAt pos).ordinal.toList := by
  unfold State.ordinalsIn
  rw [List.range'_one, List.reverse_singleton, List.filterMap_cons, List.filterMap_nil]
  cases (s.contentAt pos).ordinal <;> rfl

/-- The track's ordinals around one position. -/
theorem ordinalsIn_around (s : State) (g : Nat) (h : g < s.trackLen) :
    s.ordinalsIn 0 s.trackLen = s.ordinalsIn (g + 1) (s.trackLen - (g + 1)) ++ (s.contentAt g).ordinal.toList ++ s.ordinalsIn 0 g := by
  conv_lhs => rw [show s.trackLen = g + (1 + (s.trackLen - (g + 1))) by omega]
  rw [ordinalsIn_append, Nat.zero_add, ordinalsIn_append, ordinalsIn_one]

theorem ordinalsIn_congr {s t : State} {lo n : Nat}
    (h : ∀ pos, lo ≤ pos → pos < lo + n → (t.contentAt pos).ordinal = (s.contentAt pos).ordinal) :
    t.ordinalsIn lo n = s.ordinalsIn lo n := by
  unfold State.ordinalsIn
  refine List.filterMap_congr fun pos hpos => ?_
  rw [List.mem_reverse, List.mem_range'_1] at hpos
  exact h pos hpos.1 hpos.2

/-- What a sweep leaves of the positions before the gate: the contexts that are not above its ordinal. -/
theorem ordinalsIn_swept {s t : State} (o : Word16) (g : Nat) (h : ∀ pos, pos < g → t.contentAt pos = (s.contentAt pos).swept o) :
    t.ordinalsIn 0 g = (s.ordinalsIn 0 g).filter (fun a => !ordinalAbove a o) := by
  unfold State.ordinalsIn
  rw [List.filter_filterMap]
  refine List.filterMap_congr fun pos hpos => ?_
  rw [List.mem_reverse, List.mem_range'_1] at hpos
  rw [h pos (by omega)]
  cases s.contentAt pos with
  | empty => rfl
  | ghost t => rfl
  | copy c =>
    simp only [Content.swept, Content.ordinal]
    cases ha : ordinalAbove c.copy.ordinal o <;> simp [Option.filter, ha]

/-- The ordinals of the swept contexts stood before the gate. -/
theorem mem_ordinalsIn_of_swept {s : State} {o : Word16} {g : Nat} {d : Context} (h : d ∈ s.sweptContexts o g) :
    d.copy.ordinal ∈ s.ordinalsIn 0 g := by
  obtain ⟨pos, c, hpos, hc, -, rfl⟩ := mem_sweptContexts.mp h
  exact List.mem_filterMap.mpr ⟨pos, by simpa using hpos, by rw [hc]; rfl⟩

/-- A list in order, one entry of it and those above it in its neighbours gathered, in order, into the queue behind. -/
theorem inOrder_of_makeUp {base o : Word16} {high low queue queue' rest : List Word16}
    (hr : ∀ a ∈ high ++ o :: (low ++ (queue ++ rest)), (a - base).toNat < 8)
    (h : InOrder (high ++ o :: (low ++ (queue ++ rest)))) (hq : InOrder queue')
    (hmem : ∀ a ∈ queue', a = o ∨ a ∈ low ∨ a ∈ queue) :
    InOrder (high ++ low.filter (fun a => !ordinalAbove a o) ++ queue' ++ rest) := by
  obtain ⟨hhigh, htail, hcross⟩ := List.pairwise_append.mp h
  obtain ⟨ho, htail⟩ := List.pairwise_cons.mp htail
  obtain ⟨hlow, hqr, hlowcross⟩ := List.pairwise_append.mp htail
  obtain ⟨-, hrest, hqrest⟩ := List.pairwise_append.mp hqr
  have hrank : ∀ a ∈ o :: (low ++ (queue ++ rest)), (a - base).toNat < 8 := fun a ha => hr a (List.mem_append_right _ ha)
  have hqueue' : ∀ a ∈ queue', a ∈ o :: (low ++ (queue ++ rest)) := fun a ha => by
    rcases hmem a ha with rfl | ha | ha <;> simp_all
  rw [InOrder, List.pairwise_append, List.pairwise_append, List.pairwise_append]
  refine ⟨⟨⟨hhigh, hlow.filter _, fun a ha b hb => ?_⟩, hq, fun a ha b hb => ?_⟩, hrest, fun a ha b hb => ?_⟩
  · have hb := (List.mem_filter.mp hb).1
    exact hcross a ha b (by simp [hb])
  · rcases List.mem_append.mp ha with ha | ha
    · exact hcross a ha b (hqueue' b hb)
    · obtain ⟨hal, hao⟩ := List.mem_filter.mp ha
      have hra := hrank a (by simp [hal])
      have hrb := hrank b (hqueue' b hb)
      have hro := hrank o (by simp)
      have hao : ordinalAbove a o = false := by simpa using hao
      rw [not_ordinalAbove_iff_rank hra hro] at hao
      have hob : (o - base).toNat ≤ (b - base).toNat := by
        rcases hmem b hb with rfl | hb' | hb'
        · exact Nat.le_refl _
        · exact (not_ordinalAbove_iff_rank hro hrb).mp (ho b (by simp [hb']))
        · exact (not_ordinalAbove_iff_rank hro hrb).mp (ho b (by simp [hb']))
      exact (not_ordinalAbove_iff_rank hra hrb).mpr (hao.trans hob)
  · rcases List.mem_append.mp ha with ha | ha
    · rcases List.mem_append.mp ha with ha | ha
      · exact hcross a ha b (by simp [hb])
      · exact hlowcross a (List.mem_filter.mp ha).1 b (by simp [hb])
    · rcases hmem a ha with rfl | ha | ha
      · exact ho b (by simp [hb])
      · exact hlowcross a ha b (by simp [hb])
      · exact hqrest a ha b hb

/-- A divert to the make-up queue, with its sweep, keeps the combined order, of ordinals within 8 of a base. -/
theorem inOrder_sendToMakeUp {base : Word16} (s : State) (g : Nat) (c d : Context) (pitch : PitchIndex)
    (hc : s.contentAt g = .copy c) (hd : d.copy = c.copy) (hr : ∀ a ∈ s.orderedOrdinals, (a - base).toNat < 8)
    (h : InOrder s.orderedOrdinals) : InOrder (sendToMakeUp d g pitch (setContent g .empty s)).orderedOrdinals := by
  have hlt := lt_trackLen_of_occupied s g (by rw [hc]; simp)
  have hcontent (q : Nat) := sendToMakeUp_contentAt d g pitch (setContent g .empty s) q
  have hqueue : (sendToMakeUp d g pitch (setContent g .empty s)).gm.queue =
      (s.sweptContexts d.copy.ordinal g).foldl (fun q e => insertContext e q) (insertContext d s.gm.queue) := by
    unfold sendToMakeUp
    rw [(sweep_units d.copy.ordinal pitch g _).1]
    have hsame : (place (d.record .diverted none pitch) (enqueue d (setContent g .empty s))).sweptContexts d.copy.ordinal g =
        s.sweptContexts d.copy.ordinal g := by
      rw [sweptContexts_eq, sweptContexts_eq]
      refine List.filterMap_congr fun pos hpos => ?_
      have hne : pos ≠ g := by have : pos < g := by simpa using hpos
                               omega
      exact congrArg _ (contentAt_setContent_other g pos .empty s hne)
    rw [hsame]
    rfl
  have hlen : (sendToMakeUp d g pitch (setContent g .empty s)).trackLen = s.trackLen :=
    (sweep_trackLen _ _ _ _).trans (trackLen_setContent g .empty s)
  have harr : (sendToMakeUp d g pitch (setContent g .empty s)).arrivals = s.arrivals := by
    have hau : (sendToMakeUp d g pitch (setContent g .empty s)).au = s.au := by simp [sendToMakeUp]
    unfold State.arrivals; rw [hau]
  rw [orderedOrdinals_eq, ordinalsIn_all, ordinalsIn_around s g hlt, hc] at h hr
  rw [orderedOrdinals_eq, ordinalsIn_all, ordinalsIn_around _ g (by omega), hlen, harr, hqueue]
  have hhigh : (sendToMakeUp d g pitch (setContent g .empty s)).ordinalsIn (g + 1) (s.trackLen - (g + 1)) =
      s.ordinalsIn (g + 1) (s.trackLen - (g + 1)) := by
    refine ordinalsIn_congr fun pos hlo _ => ?_
    rw [hcontent, if_neg (by omega), contentAt_setContent_other g pos .empty s (by omega)]
  have hlow : (sendToMakeUp d g pitch (setContent g .empty s)).ordinalsIn 0 g =
      (s.ordinalsIn 0 g).filter (fun a => !ordinalAbove a d.copy.ordinal) := by
    refine ordinalsIn_swept d.copy.ordinal g fun pos hpos => ?_
    rw [hcontent, if_pos hpos, contentAt_setContent_other g pos .empty s (by omega)]
  have hgate : ((sendToMakeUp d g pitch (setContent g .empty s)).contentAt g).ordinal.toList = [] := by
    rw [hcontent, if_neg (Nat.lt_irrefl g), contentAt_setContent_empty]; rfl
  rw [hhigh, hlow, hgate, List.append_nil]
  have hold : s.ordinalsIn (g + 1) (s.trackLen - (g + 1)) ++ (Content.copy c).ordinal.toList ++ s.ordinalsIn 0 g ++
      s.gm.queue.map (fun c => c.copy.ordinal) ++ s.arrivals =
      s.ordinalsIn (g + 1) (s.trackLen - (g + 1)) ++ d.copy.ordinal :: (s.ordinalsIn 0 g ++
        (s.gm.queue.map (fun c => c.copy.ordinal) ++ s.arrivals)) := by
    simp [Content.ordinal, hd]
  rw [hold] at h hr
  have hsorted : QueueSorted s.gm.queue := by
    have := (List.pairwise_append.mp (List.pairwise_append.mp (List.pairwise_cons.mp (List.pairwise_append.mp h).2.1).2).2.1).1
    exact List.pairwise_map.mp this
  have hmem : ∀ e ∈ (s.sweptContexts d.copy.ordinal g).foldl (fun q e => insertContext e q) (insertContext d s.gm.queue),
      e.copy.ordinal = d.copy.ordinal ∨ e.copy.ordinal ∈ s.ordinalsIn 0 g ∨
      e.copy.ordinal ∈ s.gm.queue.map (fun c => c.copy.ordinal) := fun e he => by
    rw [mem_foldl_insertContext, mem_insertContext] at he
    rcases he with he | rfl | he
    · exact .inr (.inl (mem_ordinalsIn_of_swept he))
    · exact .inl rfl
    · exact .inr (.inr (List.mem_map_of_mem he))
  have hrank : ∀ e : Context, e.copy.ordinal = d.copy.ordinal ∨ e.copy.ordinal ∈ s.ordinalsIn 0 g ∨
      e.copy.ordinal ∈ s.gm.queue.map (fun c => c.copy.ordinal) → (e.copy.ordinal - base).toNat < 8 := fun e he => by
    refine hr _ ?_
    rcases he with he | he | he <;> simp [he]
  refine inOrder_of_makeUp hr h (List.pairwise_map.mpr (foldl_insertContext_sorted (base := base) (fun e he => ?_)
    (insertContext_sorted (base := base) (fun e he => ?_) hsorted).1)) fun a ha => ?_
  · refine hrank e (hmem e (mem_foldl_insertContext.mpr (List.mem_append.mp he)))
  · rcases List.mem_cons.mp he with rfl | he
    · exact hrank e (.inl rfl)
    · exact hrank e (.inr (.inr (List.mem_map_of_mem he)))
  · obtain ⟨e, he, rfl⟩ := List.mem_map.mp ha
    exact hmem e he

end Sys2Proof.Machine
end

section
/-! PROOFS. The arrival order, and every act on the combined order. -/

namespace Sys2Proof.Machine

open Relation

/-! ## The arrival order -/

/-- The arrival order lists the entries that are not FREE, none twice, and a RECEIVING one stands last. -/
structure ArrivalOrder (order : List (Fin 16)) (staging : Vector StagingEntry 16) : Prop where
  nodup : order.Nodup
  listed : ∀ i : Fin 16, i ∈ order ↔ staging[i] ≠ .free
  last : ∀ i ∈ order.dropLast, staging[i] ≠ .receiving

theorem eq_free_iff (e : StagingEntry) : e = .free ↔ e.ordinal = none ∧ e ≠ .receiving := by
  cases e <;> simp [StagingEntry.ordinal]

theorem ArrivalOrder.congr {order : List (Fin 16)} {v w : Vector StagingEntry 16} (h : ArrivalOrder order v)
    (hord : ∀ i : Fin 16, w[i].ordinal = v[i].ordinal) (hrec : ∀ i : Fin 16, w[i] = .receiving ↔ v[i] = .receiving) :
    ArrivalOrder order w := by
  refine ⟨h.nodup, fun i => ?_, fun i hi => by rw [ne_eq, hrec]; exact h.last i hi⟩
  rw [h.listed i, ne_eq, ne_eq, eq_free_iff, eq_free_iff, hord i, ne_eq, ne_eq, hrec i]

theorem sublist_of_eq {α : Type} {l m : List α} (h : l = m) : l.Sublist m := h ▸ .refl _

theorem mem_dropLast_of_filter {α : Type} {l : List α} {p : α → Bool} {x : α} (h : x ∈ (l.filter p).dropLast) : x ∈ l.dropLast := by
  cases l using List.reverseRecOn with
  | nil => simp at h
  | append_singleton l a =>
    rw [List.dropLast_concat]
    rw [List.filter_append] at h
    by_cases ha : p a = true
    · rw [List.filter_cons_of_pos ha, List.filter_nil, List.dropLast_concat] at h
      exact (List.mem_filter.mp h).1
    · rw [List.filter_cons_of_neg ha, List.filter_nil, List.append_nil] at h
      exact (List.mem_filter.mp (List.mem_of_mem_dropLast h)).1

/-- An entry freed leaves the order. -/
theorem ArrivalOrder.freed {order : List (Fin 16)} {v : Vector StagingEntry 16} (h : ArrivalOrder order v) (i : Fin 16) :
    ArrivalOrder (order.filter (fun j => decide (j ≠ i))) (v.set i.val .free i.isLt) := by
  refine ⟨h.nodup.filter _, fun j => ?_, fun j hj => ?_⟩
  · rw [List.mem_filter, vector_get_set, decide_eq_true_eq, h.listed j]
    split <;> simp_all
  · rw [vector_get_set]
    split
    · exact StagingEntry.noConfusion
    · exact h.last j (mem_dropLast_of_filter hj)

/-- A FREE entry reserved joins the order, where none is RECEIVING. -/
theorem ArrivalOrder.reserved {order : List (Fin 16)} {v : Vector StagingEntry 16} (h : ArrivalOrder order v) {i : Fin 16}
    (hi : v[i] = .free) (hnone : ∀ j : Fin 16, v[j] ≠ .receiving) :
    ArrivalOrder (order ++ [i]) (v.set i.val .receiving i.isLt) := by
  have hnot : i ∉ order := fun hm => (h.listed i).mp hm hi
  refine ⟨?_, fun j => ?_, fun j hj => ?_⟩
  · rw [List.nodup_append]
    exact ⟨h.nodup, List.nodup_singleton i, fun a ha b hb => by
      rw [List.mem_singleton] at hb; subst hb; exact fun e => hnot (e ▸ ha)⟩
  · rw [List.mem_append, List.mem_singleton, vector_get_set, h.listed j]
    split <;> simp_all
  · rw [List.dropLast_concat] at hj
    rw [vector_get_set, if_neg (fun e : j = i => hnot (e ▸ hj))]
    exact hnone j

/-- A RECEIVING entry that takes its copy. -/
theorem ArrivalOrder.arrived {order : List (Fin 16)} {v : Vector StagingEntry 16} (h : ArrivalOrder order v) {i : Fin 16}
    (hi : v[i] = .receiving) (c : StagedCopy) : ArrivalOrder order (v.set i.val (.arrived c) i.isLt) := by
  refine ⟨h.nodup, fun j => ?_, fun j hj => ?_⟩
  · rw [vector_get_set, h.listed j]
    split
    · rename_i e; subst e; simp [hi]
    · rfl
  · rw [vector_get_set]
    split
    · exact StagingEntry.noConfusion
    · exact h.last j hj

/-- A RECEIVING entry stands last in the order. -/
theorem ArrivalOrder.last_of_receiving {order : List (Fin 16)} {v : Vector StagingEntry 16} (h : ArrivalOrder order v)
    {i : Fin 16} (hi : v[i] = .receiving) : ∃ front, order = front ++ [i] ∧ i ∉ front := by
  have hmem : i ∈ order := (h.listed i).mpr (by rw [hi]; exact StagingEntry.noConfusion)
  have hne : order ≠ [] := List.ne_nil_of_mem hmem
  have hsplit := List.dropLast_append_getLast hne
  have hlast : i = order.getLast hne := by
    rw [← hsplit, List.mem_append, List.mem_singleton] at hmem
    rcases hmem with hm | hm
    · exact absurd hi (h.last i hm)
    · exact hm
  refine ⟨order.dropLast, by rw [hlast]; exact hsplit.symm, fun hm => absurd hi (h.last i hm)⟩

/-- At most one entry is RECEIVING. -/
theorem ArrivalOrder.receiving_unique {order : List (Fin 16)} {v : Vector StagingEntry 16} (h : ArrivalOrder order v)
    {i j : Fin 16} (hi : v[i] = .receiving) (hj : v[j] = .receiving) : i = j := by
  obtain ⟨front, he, -⟩ := h.last_of_receiving hi
  obtain ⟨front', he', -⟩ := h.last_of_receiving hj
  exact (List.append_inj' (he.symm.trans he') rfl).2 |> List.singleton_inj.mp

/-- The ordinals of the arrivals behind an entry freed. -/
theorem arrivals_freeEntry (s : State) (i : Fin 16) :
    (freeEntry i s).arrivals = (s.au.order.filter (fun j => decide (j ≠ i))).filterMap (fun j => s.au.staging[j].ordinal) := by
  refine List.filterMap_congr fun j hj => ?_
  have hne : j ≠ i := by simpa using (List.mem_filter.mp hj).2
  exact congrArg StagingEntry.ordinal ((vector_get_set s.au.staging i j .free).trans (if_neg hne))

theorem arrivals_freeEntry_sublist (s : State) (i : Fin 16) : (freeEntry i s).arrivals.Sublist s.arrivals := by
  rw [arrivals_freeEntry]
  exact List.filter_sublist.filterMap _

/-! ## Acts -/

/-- What the combined order rests on besides the balance: the arrival order, and the order of the ordinals. -/
structure State.Orderly (s : State) : Prop where
  arrival : ArrivalOrder s.au.order s.au.staging
  inOrder : InOrder s.orderedOrdinals

/-- An act that leaves staging, and that takes ordinals off the track and the queue at most. -/
theorem State.Orderly.of_fewer {s t : State} (h : s.Orderly) (hau : t.au = s.au)
    (htr : (t.tu.track.filterMap Content.ordinal).Sublist (s.tu.track.filterMap Content.ordinal))
    (hq : t.gm.queue.map (fun c => c.copy.ordinal) = s.gm.queue.map (fun c => c.copy.ordinal)) : t.Orderly := by
  refine ⟨by rw [hau]; exact h.arrival, h.inOrder.sublist (orderedOrdinals_sublist htr hq ?_)⟩
  unfold State.arrivals; rw [hau]

theorem State.Orderly.of_cores {s t : State} (h : s.Orderly) (hau : t.au = s.au)
    (htr : t.tu.track.map Content.core = s.tu.track.map Content.core)
    (hq : t.gm.queue.map (fun c => c.copy.ordinal) = s.gm.queue.map (fun c => c.copy.ordinal)) : t.Orderly :=
  h.of_fewer hau (by rw [ordinals_of_cores htr]) hq

theorem State.Orderly.of_staging {s t : State} (h : s.Orderly) (htu : t.tu = s.tu) (hgm : t.gm = s.gm)
    (harr : t.arrivals.Sublist s.arrivals) (hao : ArrivalOrder t.au.order t.au.staging) : t.Orderly :=
  ⟨hao, h.inOrder.sublist (orderedOrdinals_sublist (by rw [htu]) (by rw [hgm]) harr)⟩

/-- A context put on position 0, which was EMPTY: it stands behind the rest of the track. -/
theorem ordinals_enter_first (s : State) (c : Context) (hc : s.contentAt 0 = .empty) (hl : 1 ≤ s.trackLen) :
    ((setContent 0 (.copy c) s).tu.track.filterMap Content.ordinal).reverse =
      (s.tu.track.filterMap Content.ordinal).reverse ++ [c.copy.ordinal] := by
  unfold State.contentAt at hc
  unfold State.trackLen at hl
  unfold setContent
  cases htr : s.tu.track with
  | nil => rw [htr] at hl; cases hl
  | cons x t =>
    rw [htr] at hc
    obtain rfl : x = .empty := hc
    rw [List.filterMap_cons_none (a := Content.empty) rfl]
    simp [Content.ordinal]

/-- An ordinal of the table is not above that of the receiving bundle, the one opened last. -/
theorem Balance.not_above_receiving {bu : BundleUnit} {fl : List Word16} {b : Bundle} (h : Balance bu fl) (hb : b ∈ bu.table)
    (hr : b.receiving = true) {o : Word16} (ho : o ∈ fl) : ordinalAbove o b.ordinal = false := by
  have hnamed := (h.bundles b hb).named hr
  have hlast : b.ordinal = bu.nextOrdinal - 1 := by
    rcases h.receiving with hn | ⟨hn, -⟩
    · rw [hn] at hnamed; cases hnamed
    · exact Option.some.inj (hnamed.symm.trans hn)
  have hmem := h.inTable o ho
  rw [h.ordinals] at hmem
  have hrange := mem_ordinalRun h.length hmem
  have hlen := h.length
  rw [not_ordinalAbove_iff_rank (base := bu.nextOrdinal - 8) (by bv_omega) (by rw [hlast]; bv_omega), hlast]
  bv_omega

theorem Balance.rank_lt {bu : BundleUnit} {fl : List Word16} (h : Balance bu fl) {o : Word16} (ho : o ∈ fl) :
    (o - (bu.nextOrdinal - 8)).toNat < 8 := by
  have hmem := h.inTable o ho
  rw [h.ordinals] at hmem
  have hrange := mem_ordinalRun h.length hmem
  have hlen := h.length
  bv_omega

theorem UnitAct.orderly {s t : State} (h : UnitAct NoneReceiving s t) (hlen : 1 ≤ s.trackLen) (hbal : Balance s.bu s.inFlight)
    (hs : s.Orderly) : t.Orderly := by
  cases h with
  | marks tr htr => exact hs.of_cores rfl htr rfl
  | starved => exact hs.of_cores rfl rfl rfl
  | ghostCount => exact hs.of_cores rfl rfl rfl
  | decided => exact hs.of_cores rfl rfl rfl
  | delivered pos c _ => exact hs.of_fewer rfl (filterMap_set_none _ _ pos Content.empty rfl) rfl
  | excepted pos c d _ _ => exact hs.of_fewer rfl (filterMap_set_none _ _ pos Content.empty rfl) rfl
  | ghostOff g _ => exact hs.of_fewer rfl (filterMap_set_none _ _ g Content.empty rfl) rfl
  | makeUp g c d pitch hc hd _ =>
    have hau : (sendToMakeUp d g pitch (setContent g .empty s)).au = s.au := by simp [sendToMakeUp]
    exact ⟨by rw [hau]; exact hs.arrival, inOrder_sendToMakeUp (base := s.bu.nextOrdinal - 8) s g c d pitch hc hd
      (fun a ha => hbal.rank_lt (orderedOrdinals_subset ha)) hs.inOrder⟩
  | untag => exact hs.of_cores rfl rfl (by rw [List.map_map]; rfl)
  | shift hcopy _ =>
    have hcar := carried_shift s hcopy
    have hgm : (shiftTrack s).gm = s.gm := by simp
    unfold State.carried at hcar
    rw [hgm] at hcar
    exact hs.of_fewer (by simp) (sublist_of_eq (List.append_cancel_right hcar)) (by simp [newPitchGate])
  | remake c rest hq hc =>
    refine ⟨hs.arrival, ?_⟩
    have h := hs.inOrder
    rw [orderedOrdinals_eq, hq] at h
    rw [orderedOrdinals_eq, ordinals_enter_first { s with gm := { s.gm with queue := rest } } _ hc hlen]
    change InOrder ((s.tu.track.filterMap Content.ordinal).reverse ++ [c.copy.ordinal] ++ rest.map (fun c => c.copy.ordinal) ++
      s.arrivals)
    simpa [List.append_assoc] using h
  | first i c v hq hc ho =>
    obtain ⟨he, hhead⟩ := ordinal_of_oldest ho
    refine ⟨hs.arrival.freed i, ?_⟩
    have h := hs.inOrder
    have harr : (freeEntry i s).arrivals = s.arrivals.tail ∧ s.arrivals = c.ordinal :: s.arrivals.tail := by
      have hnodup := hs.arrival.nodup
      obtain ⟨rest, hrest⟩ : ∃ rest, s.au.order = i :: rest := ⟨_, (List.cons_head?_tail hhead).symm⟩
      rw [hrest, List.nodup_cons] at hnodup
      have hcons : s.arrivals = c.ordinal :: rest.filterMap (fun j => s.au.staging[j].ordinal) := by
        unfold State.arrivals
        rw [hrest, List.filterMap_cons_some (b := c.ordinal) (by rw [he]; rfl)]
      have hfilter : (i :: rest).filter (fun j => decide (j ≠ i)) = rest := by
        rw [List.filter_cons_of_neg (by simp), List.filter_eq_self]
        exact fun j hj => by simpa using fun e : j = i => hnodup.1 (e ▸ hj)
      rw [arrivals_freeEntry, hrest, hfilter, hcons]
      exact ⟨rfl, rfl⟩
    rw [orderedOrdinals_eq, harr.2, hq] at h
    have htail : (setContent 0 (.copy (firstRelease c v)) (freeEntry i s)).arrivals = s.arrivals.tail := harr.1
    rw [orderedOrdinals_eq, ordinals_enter_first (freeEntry i s) _ hc hlen, htail,
      show (setContent 0 (.copy (firstRelease c v)) (freeEntry i s)).gm.queue = [] from hq]
    simpa [List.append_assoc, firstRelease] using h
  | restage a _ hao hord hrec =>
    refine hs.of_staging rfl rfl (sublist_of_eq ?_) ?_
    · unfold State.arrivals
      dsimp only
      rw [hao]
      exact List.filterMap_congr fun i _ => hord i
    · dsimp only
      rw [hao]
      exact hs.arrival.congr hord hrec
  | reserve hnone =>
    have hnone := (receivingEntry_eq_none s).mp hnone
    unfold reserveEntry
    split
    · exact hs
    · rename_i i hi
      have hfree := freeStaging_eq_some hi
      have hao := hs.arrival.reserved hfree hnone
      refine hs.of_staging rfl rfl (sublist_of_eq ?_) hao
      have hnot : i ∉ s.au.order := fun hm => (hs.arrival.listed i).mp hm hfree
      unfold State.arrivals
      simp only [setEntry]
      rw [List.filterMap_append, List.filterMap_cons_none (by rw [vector_get_set, if_pos rfl]; rfl), List.filterMap_nil,
        List.append_nil]
      refine List.filterMap_congr fun j hj => ?_
      rw [vector_get_set, if_neg (fun e : j = i => hnot (e ▸ hj))]
  | unreserve =>
    unfold freeReceiving
    split
    · exact hs
    · rename_i i hi
      exact hs.of_staging rfl rfl (arrivals_freeEntry_sublist s i) (hs.arrival.freed i)
  | accept i payload b _ hi hb hr =>
    have hao := hs.arrival.arrived hi (s.stagedOf payload b.ordinal)
    refine ⟨hao, ?_⟩
    obtain ⟨front, hfront, hnot⟩ := hs.arrival.last_of_receiving hi
    have hold : s.arrivals = front.filterMap (fun j => s.au.staging[j].ordinal) := by
      unfold State.arrivals
      rw [hfront, List.filterMap_append, List.filterMap_cons_none (by rw [hi]; rfl), List.filterMap_nil, List.append_nil]
    have hnew : (countReceived b.ordinal (stageCopy i payload b.ordinal s)).arrivals = s.arrivals ++ [b.ordinal] := by
      rw [hold]
      change s.au.order.filterMap (fun j => (s.au.staging.set i.val (.arrived (s.stagedOf payload b.ordinal)) i.isLt)[j].ordinal) = _
      rw [hfront, List.filterMap_append, List.filterMap_cons_some (b := b.ordinal)
        (by rw [vector_get_set, if_pos rfl]; rfl), List.filterMap_nil]
      congr 1
      refine List.filterMap_congr fun j hj => ?_
      rw [vector_get_set, if_neg (fun e : j = i => hnot (e ▸ hj))]
    have heq : (countReceived b.ordinal (stageCopy i payload b.ordinal s)).orderedOrdinals = s.orderedOrdinals ++ [b.ordinal] := by
      rw [orderedOrdinals_eq, orderedOrdinals_eq, hnew, ← List.append_assoc]
      rfl
    rw [heq, InOrder, List.pairwise_append]
    refine ⟨hs.inOrder, List.pairwise_singleton _ _, fun a ha c hc => ?_⟩
    obtain rfl := List.mem_singleton.mp hc
    exact hbal.not_above_receiving (mem_of_receivingBundle hb) hr (orderedOrdinals_subset ha)
  | vacant i c _ _ => exact hs.of_staging rfl rfl (arrivals_freeEntry_sublist s i) (hs.arrival.freed i)
  | stop => exact hs.of_cores (by simp) (stopLine_cores s .stopped) (by simp)
  | fault c st => exact hs.of_cores (by simp) (stopFault_cores c st s) (by simp)
  | start =>
    have hc : (acceptStart s).carried = s.carried :=
      (carried_of_tu (s := latchTrack s) (acceptStart_tu s) (by simp)).trans (carried_latchTrack s)
    have hgm : (acceptStart s).gm = s.gm := by simp
    unfold State.carried at hc
    rw [hgm] at hc
    exact hs.of_fewer (by simp) (sublist_of_eq (List.append_cancel_right hc)) (by rw [hgm])
  | runReset =>
    have hmap (i : Fin 16) : (resetAdmission s).au.staging[i] = s.au.staging[i].discarded := mapAll_get _ _ i
    have hrec (i : Fin 16) : s.au.staging[i].discarded ≠ .free ↔ s.au.staging[i] = .receiving := by
      cases s.au.staging[i] <;> simp [StagingEntry.discarded]
    have hord (i : Fin 16) : s.au.staging[i].discarded.ordinal = none := by
      cases s.au.staging[i] <;> rfl
    refine ⟨?_, ?_⟩
    · rw [runResetAll_au]
      refine ⟨hs.arrival.nodup.filter _, fun i => ?_, fun i hi => ?_⟩
      · rw [hmap, hrec]
        change i ∈ s.au.order.filter (fun i => decide (s.au.staging[i] = .receiving)) ↔ _
        rw [List.mem_filter, hs.arrival.listed i, decide_eq_true_eq]
        exact ⟨fun h => h.2, fun h => ⟨by rw [h]; exact StagingEntry.noConfusion, h⟩⟩
      · have hi' : i ∈ s.au.order.filter (fun i => decide (s.au.staging[i] = .receiving)) := List.mem_of_mem_dropLast hi
        exact absurd (of_decide_eq_true (List.mem_filter.mp hi').2) (hs.arrival.last i (mem_dropLast_of_filter hi))
    · have hnil : (runResetAll s).orderedOrdinals = [] := by
        refine List.eq_nil_iff_forall_not_mem.mpr fun o ho => ?_
        have := orderedOrdinals_subset ho
        rw [inFlight_runReset] at this
        exact absurd this List.not_mem_nil
      rw [hnil]
      exact .nil
  | text b => exact ⟨hs.arrival, hs.inOrder⟩
  | _ => exact hs.of_cores (by simp) (by simp) (by simp)

end Sys2Proof.Machine
end

section
/-! PROOFS. The COPY entry that a frame reserves, and the combined order over every step. -/

namespace Sys2Proof.Machine

open Relation

variable {may : Scope}

/-! ## What an act leaves of the line link and of the RECEIVING entry -/

/-- The registers of the line link that no unit's act changes. -/
def LinkController.registers (l : LinkController) : ReceiveState × FrameBuffer × Bool × BitVec 11 × BitVec 5 × Bool :=
  (l.receive, l.buffer, l.sending, l.mask, l.writeEnable, l.lock)

theorem raiseNotice_registers (n : Notice) (s : State) : (raiseNotice n s).ll.registers = s.ll.registers := by
  rw [raiseNotice_ll]; rfl

theorem addHold_registers (c : HoldCause) (s : State) : (addHold c s).ll.registers = s.ll.registers := by
  unfold addHold
  dsimp only
  split
  · rw [raiseNotice_registers]; rfl
  · rfl

theorem reduceHolds_registers (h : HoldSet) (s : State) : (reduceHolds h s).ll.registers = s.ll.registers := by
  unfold reduceHolds
  dsimp only
  split
  · rw [raiseNotice_registers]; rfl
  · rfl

theorem stopFault_registers (c : FaultCause) (st : Option StationNo) (s : State) :
    (stopFault c st s).ll.registers = s.ll.registers := by
  unfold stopFault
  split
  · unfold furtherFault; rw [raiseNotice_registers]
  · unfold beginEpisode; rw [raiseNotice_registers]; simp

theorem testComplete_registers (o : Word16) (s : State) : (testComplete o s).ll.registers = s.ll.registers := by
  unfold testComplete; (repeat' split) <;> rfl

theorem acceptStart_registers (s : State) : (acceptStart s).ll.registers = s.ll.registers := by
  have h : (acceptStart s).ll = (enterLine (latchTrack s)).ll := by simp [acceptStart]
  rw [h]
  unfold enterLine
  split
  · rfl
  · rw [raiseNotice_registers]; rfl

theorem runResetAll_ll (s : State) : (runResetAll s).ll = (resetLink s).ll := by simp [runResetAll, resetLink]

theorem UnitAct.registers {s t : State} (h : UnitAct may s t) : t.ll.registers = s.ll.registers := by
  cases h with
  | kick i => rw [takeKick_ll]
  | complete o => exact testComplete_registers o s
  | makeUp g c d pitch _ _ _ =>
    unfold sendToMakeUp
    rw [(sweep_units _ pitch g _).2]
    rfl
  | notice n => exact raiseNotice_registers n s
  | hold c => exact addHold_registers c s
  | unhold h _ => exact reduceHolds_registers h s
  | stop => rw [stopLine_ll]
  | fault c st => exact stopFault_registers c st s
  | start => exact acceptStart_registers s
  | runReset => rw [runResetAll_ll]; rfl
  | records => rfl
  | _ => exact congrArg LinkController.registers (by simp)

theorem Acts.registers {s t : State} (h : Acts may s t) : t.ll.registers = s.ll.registers :=
  Acts.keeps (P := fun u => u.ll.registers = s.ll.registers) (fun _ _ ha hu => ha.registers.trans hu) h rfl

theorem Acts.receive {s t : State} (h : Acts may s t) : t.ll.receive = s.ll.receive := congrArg Prod.fst (Acts.registers h)

theorem Acts.buffer {s t : State} (h : Acts may s t) : t.ll.buffer = s.ll.buffer :=
  congrArg (fun r => r.2.1) (Acts.registers h)

theorem freeEntry_receiving {s : State} {i j : Fin 16} (h : (freeEntry i s).au.staging[j] = .receiving) :
    j ≠ i ∧ s.au.staging[j] = .receiving := by
  have h : (s.au.staging.set i.val .free i.isLt)[j] = .receiving := h
  rw [vector_get_set] at h
  split at h
  · cases h
  · rename_i hne; exact ⟨hne, h⟩

/-- An entry becomes RECEIVING by its reservation alone. -/
theorem UnitAct.receiving {s t : State} (h : UnitAct NoReserve s t) (i : Fin 16) (hi : t.au.staging[i] = .receiving) :
    s.au.staging[i] = .receiving := by
  have same (hau : t.au = s.au) : s.au.staging[i] = .receiving := by rw [← hau]; exact hi
  cases h with
  | first j _ _ _ _ _ => exact (freeEntry_receiving (i := j) (s := s) hi).2
  | restage a _ _ _ hrec => exact (hrec i).mp hi
  | reserve h => exact False.elim h
  | text b => exact hi
  | unreserve =>
    unfold freeReceiving at hi
    split at hi
    · exact hi
    · exact (freeEntry_receiving hi).2
  | accept j payload b _ _ _ _ =>
    have hi : (s.au.staging.set j.val (.arrived (s.stagedOf payload b.ordinal)) j.isLt)[i] = .receiving := hi
    rw [vector_get_set] at hi
    split at hi
    · cases hi
    · exact hi
  | vacant j c _ _ => exact (freeEntry_receiving (i := j) (s := s) hi).2
  | runReset =>
    rw [runResetAll_au] at hi
    have hi : (mapAll s.au.staging (fun _ e => e.discarded))[i] = .receiving := hi
    rw [mapAll_get] at hi
    cases he : s.au.staging[i] with
    | receiving => rfl
    | _ => rw [he] at hi; cases hi
  | _ => exact same (by simp)

theorem Acts.receivingEntry {s t : State} (h : Acts NoReserve s t) (hs : s.receivingEntry = none) :
    t.receivingEntry = none := by
  rw [receivingEntry_eq_none] at hs ⊢
  refine Acts.keeps (P := fun u => ∀ i : Fin 16, u.au.staging[i] ≠ .receiving) (fun _ _ ha hu i hi => ?_) h hs
  exact hu i (ha.receiving i hi)

/-- Acts that reserve no entry keep one RECEIVING to a COPY frame in the buffer. -/
theorem Acts.receivingSound {s t : State} (h : Acts NoReserve s t) (hs : s.ReceivingSound) : t.ReceivingSound := by
  intro hne
  have hcopy := hs (fun he => hne (Acts.receivingEntry h he))
  unfold LinkController.copyIn
  rw [Acts.receive h, Acts.buffer h]
  exact hcopy

theorem receivingSound_of_none {s : State} (h : s.receivingEntry = none) : s.ReceivingSound := fun hne => absurd h hne

theorem receivingSound_of_units {s t : State} (hau : t.au = s.au) (hr : t.ll.receive = s.ll.receive)
    (hb : t.ll.buffer = s.ll.buffer) (hs : s.ReceivingSound) : t.ReceivingSound := by
  unfold State.ReceivingSound State.receivingEntry LinkController.copyIn at hs ⊢
  rw [hau, hr, hb]; exact hs

/-! ## Frames -/

/-- After a RECEIVING entry has been freed, none is RECEIVING, where at most one was. -/
theorem receivingEntry_freeReceiving {s : State} (hs : ArrivalOrder s.au.order s.au.staging) :
    (freeReceiving s).receivingEntry = none := by
  rw [receivingEntry_eq_none]
  unfold freeReceiving
  split
  · rename_i h; exact (receivingEntry_eq_none s).mp h
  · rename_i i hi
    intro j hj
    obtain ⟨hne, hj⟩ := freeEntry_receiving hj
    exact hne (hs.receiving_unique hj (receiving_of_receivingEntry s hi))

theorem holdEntry_arrivalOrder {s : State} (hs : ArrivalOrder s.au.order s.au.staging) :
    ArrivalOrder (holdEntry s).au.order (holdEntry s).au.staging := by
  unfold holdEntry
  split
  · exact hs
  · rename_i h
    unfold reserveEntry
    split
    · exact hs
    · rename_i i hi
      exact hs.reserved (freeStaging_eq_some hi) ((receivingEntry_eq_none s).mp (by simpa using h))

theorem reserveEntry_receivingEntry {s : State} (h : (reserveEntry s).receivingEntry = none) : s.receivingEntry = none := by
  unfold reserveEntry at h
  split at h
  · exact h
  · rename_i i hi
    rw [receivingEntry_eq_none] at h
    have hi' := h i
    have hset : (s.au.staging.set i.val .receiving i.isLt)[i] ≠ .receiving := hi'
    rw [vector_get_set, if_pos rfl] at hset
    exact absurd rfl hset

/-- A COPY record taken leaves no entry RECEIVING. -/
theorem ownCopy_receivingEntry {s : State} (hs : ArrivalOrder s.au.order s.au.staging) (payload : List Byte) :
    (ownCopy payload s).1.receivingEntry = none := by
  unfold ownCopy
  split
  · exact receivingEntry_freeReceiving hs
  · rename_i hnone
    split
    · rename_i i b hi hb
      have hold := holdEntry_arrivalOrder hs
      have hrec := receiving_of_receivingEntry _ hi
      have hstaged : (countReceived b.ordinal (stageCopy i payload b.ordinal (holdEntry s))).receivingEntry = none := by
        rw [receivingEntry_eq_none]
        intro j hj
        have hj : ((holdEntry s).au.staging.set i.val (.arrived ((holdEntry s).stagedOf payload b.ordinal)) i.isLt)[j] =
          .receiving := hj
        rw [vector_get_set] at hj
        split at hj
        · cases hj
        · rename_i hne; exact hne (hold.receiving_unique hj hrec)
      exact Acts.receivingEntry (((noticeGap_acts _ _ _).trans (noticeSubst_acts _ _ _)).trans (startResolver_acts _ trivial)) hstaged
    · rename_i hor
      obtain ⟨-, -, -, hbundle⟩ := copyRefusal_eq_none s hnone
      obtain ⟨b, hb, -⟩ := bundleRefusal_eq_none hbundle
      have hnone : (holdEntry s).receivingEntry = none := by
        cases he : (holdEntry s).receivingEntry with
        | none => rfl
        | some i => exact (hor i b he hb).elim
      unfold holdEntry at hnone
      split at hnone
      · exact hnone
      · exact reserveEntry_receivingEntry hnone

theorem act_of_link {s : State} (l : LinkController) (hr : l.receive = s.ll.receive) (hb : l.buffer = s.ll.buffer)
    (hs : s.ReceivingSound) : ({ s with ll := l } : State).ReceivingSound :=
  receivingSound_of_units (s := s) rfl hr hb hs

/-- A frame of another kind than COPY keeps what stands of the RECEIVING entry. -/
theorem ownFrame_receivingSound {s : State} (kind : Byte) (payload : List Byte) (hk : kind ≠ 0x01) (hs : s.ReceivingSound) :
    (ownFrame kind payload s).1.ReceivingSound := by
  unfold ownFrame
  split
  · rename_i h; exact absurd (BitVec.eq_of_toNat_eq h) hk
  · exact Acts.receivingSound (ownBundleOpen_acts s payload) hs
  · unfold ownTableWrite
    (repeat' split)
    · exact hs
    · exact hs
    · exact hs
    · exact hs
    · exact Acts.receivingSound (ownerWrite_acts s trivial _ _ _) hs
    · exact act_of_link _ rfl rfl hs
  · exact hs
  · exact Acts.receivingSound (ownLineCommand_acts s payload) hs
  · exact hs
  · unfold ownFlagClear; (repeat' split); exacts [hs, act_of_link _ rfl rfl hs, hs]
  · unfold ownNoticeMask; (repeat' split); exacts [hs, act_of_link _ rfl rfl hs, hs]
  · unfold ownProtect; (repeat' split); exacts [hs, act_of_link _ rfl rfl hs, hs]
  · exact hs

theorem takeFrame_receivingSound {s : State} (kind : Byte) (payload : List Byte) (hao : ArrivalOrder s.au.order s.au.staging)
    (hs : kind ≠ 0x01 → s.ReceivingSound) : (takeFrame kind payload s).ReceivingSound := by
  refine receivingSound_of_units (s := (ownFrame kind payload s).1) rfl rfl rfl ?_
  by_cases hk : kind = 0x01
  · subst hk; exact receivingSound_of_none (ownCopy_receivingEntry hao payload)
  · exact ownFrame_receivingSound kind payload hk (hs hk)

/-- With no COPY frame in the buffer no entry is RECEIVING. -/
theorem receivingEntry_of_not_copyIn {s : State} (hs : s.ReceivingSound) (h : ¬ s.ll.copyIn) : s.receivingEntry = none := by
  by_contra hne; exact h (hs hne)

theorem takeHeld_receivingSound {s : State} (hao : ArrivalOrder s.au.order s.au.staging) (hs : s.ReceivingSound) :
    (takeHeld s).ReceivingSound := by
  unfold takeHeld
  split
  · exact takeFrame_receivingSound (s := setReceive .search s) _ _ hao fun hk =>
      receivingSound_of_none (s := setReceive .search s) (receivingEntry_of_not_copyIn (s := s) hs fun h => hk h.1)
  · exact hs

theorem freeCopyEntry_receivingEntry {s : State} (hao : ArrivalOrder s.au.order s.au.staging) (hs : s.ReceivingSound) :
    (freeCopyEntry s).receivingEntry = none := by
  unfold freeCopyEntry
  split
  · exact receivingEntry_freeReceiving hao
  · rename_i hk; exact receivingEntry_of_not_copyIn hs fun h => hk h.1

theorem checkFrame_receivingSound {s : State} (hao : ArrivalOrder s.au.order s.au.staging) (hs : s.ReceivingSound) :
    (checkFrame s).ReceivingSound := by
  unfold checkFrame
  split
  · unfold takeOrHold
    split
    · exact takeFrame_receivingSound (s := setReceive .search s) _ _ hao fun hk =>
        receivingSound_of_none (s := setReceive .search s) (receivingEntry_of_not_copyIn (s := s) hs fun h => hk h.1)
    · intro hne
      exact ⟨(hs hne).1, .inr (.inr (.inr rfl))⟩
  · refine receivingSound_of_none (s := discardCrc s) ?_
    unfold discardCrc
    refine freeCopyEntry_receivingEntry (s := raiseNotice _ { s with ll := { s.ll with crcErrors := bump s.ll.crcErrors } })
      (by rw [raiseNotice_au]; exact hao) ?_
    refine receivingSound_of_units (s := s) (by simp) ?_ ?_ hs <;> rw [raiseNotice_ll]

theorem frameGap_receivingSound {s : State} (hao : ArrivalOrder s.au.order s.au.staging) (hs : s.ReceivingSound) :
    (frameGap s).ReceivingSound := by
  unfold frameGap
  split
  · exact hs
  · exact hs
  · exact receivingSound_of_none (freeCopyEntry_receivingEntry
      (s := { s with ll := { s.ll with frameTimeouts := bump s.ll.frameTimeouts } }) hao hs)

theorem receiveOctet_receivingSound {s : State} (o : Byte) (hao : ArrivalOrder s.au.order s.au.staging)
    (hs : s.ReceivingSound) : (receiveOctet o s).ReceivingSound := by
  have idle (h : s.ll.receive = .search ∨ s.ll.receive = .length ∨ s.ll.receive = .kind) : s.receivingEntry = none :=
    receivingEntry_of_not_copyIn hs fun hc => by
      obtain ⟨-, hc⟩ := hc
      rcases h with h | h | h <;> simp [h] at hc
  unfold receiveOctet
  split
  · rename_i hr
    have hnone := idle (.inl hr)
    split <;> exact receivingSound_of_none hnone
  · rename_i hr
    have hnone := idle (.inr (.inl hr))
    split <;> exact receivingSound_of_none hnone
  · rename_i hr
    have hnone := idle (.inr (.inr hr))
    dsimp only
    split
    · rename_i ho
      intro _
      unfold reserveEntry LinkController.copyIn
      split <;> exact ⟨ho, .inl rfl⟩
    · exact receivingSound_of_none hnone
  · rename_i hr
    dsimp only
    split
    · exact fun hne => ⟨(hs hne).1, .inl hr⟩
    · exact fun hne => ⟨(hs hne).1, .inr (.inl rfl)⟩
  · exact fun hne => ⟨(hs hne).1, .inr (.inr (.inl rfl))⟩
  · rename_i hr
    exact checkFrame_receivingSound (s := setBuffer _ s) hao
      (fun hne => ⟨(hs hne).1, .inr (.inr (.inl hr))⟩)
  · exact receivingSound_of_units (s := s) rfl rfl rfl hs

theorem arriveFrame_receivingSound {s : State} (kind : Byte) (payload : List Byte)
    (hao : ArrivalOrder s.au.order s.au.staging) (hs : s.ReceivingSound) : (arriveFrame kind payload s).ReceivingSound := by
  unfold arriveFrame
  split
  · exact receivingSound_of_units (s := s) rfl rfl rfl hs
  · rename_i hheld
    dsimp only
    by_cases hk : kind = 0x01
    · simp only [hk, if_true, and_true]
      have hold := holdEntry_arrivalOrder hao
      split
      · split
        · exact takeFrame_receivingSound (s := setReceive .search (holdEntry s)) _ _ hold fun h => absurd rfl h
        · exact takeFrame_receivingSound _ _ hold fun h => absurd rfl h
      · exact fun _ => ⟨rfl, .inr (.inr (.inr rfl))⟩
    · simp only [hk, if_false, and_false]
      split
      · exact takeFrame_receivingSound _ _ hao fun _ => hs
      · refine receivingSound_of_none ?_
        unfold holdFrame
        change (if s.copyArriving = true ∧ kind ≠ 0x01 then freeReceiving s else s).receivingEntry = none
        split
        · exact receivingEntry_freeReceiving hao
        · rename_i hc
          refine receivingEntry_of_not_copyIn hs fun h => ?_
          obtain ⟨hb, hr⟩ := h
          refine hc ⟨?_, hk⟩
          unfold State.copyArriving
          rw [Bool.and_eq_true, decide_eq_true_eq, decide_eq_true_eq]
          refine ⟨hb, ?_⟩
          rcases hr with hr | hr | hr | hr
          · exact .inl hr
          · exact .inr (.inl hr)
          · exact .inr (.inr hr)
          · exact absurd hr hheld

end Sys2Proof.Machine
end

section
/-! PROOFS. What every step makes of the Admission Unit, and what it keeps there. -/

namespace Sys2Proof.Machine

open Relation

/-! ## What a step can make of the Admission Unit -/

/-- A property of the Admission Unit that each of its changes keeps. -/
structure AdmissionKept (Q : AdmissionUnit → Prop) : Prop where
  text : ∀ (a : AdmissionUnit) (b : BitVec 384), Q a → Q { a with blocksUsed := b }
  freed : ∀ (s : State) (i : Fin 16), (s.au.staging[i] = .receiving ∨ ∃ c v, s.au.staging[i] = .resolved c v) →
    Q s.au → Q (freeEntry i s).au
  reset : ∀ s : State, Q s.au → Q (resetAdmission s).au
  reserved : ∀ s : State, Q s.au → Q (reserveEntry s).au
  completed : ∀ s : State, Q s.au → Q (completeResolution s).au
  planned : ∀ (s : State) (code : PlanCode) (p : PlanEntry), Q s.au → Q (setPlan code p s).au
  accepted : ∀ (s : State) (i : Fin 16) (payload : List Byte) (o : Word16), s.au.staging[i] = .receiving →
    Q s.au → Q (startResolver (stageCopy i payload o s)).au

variable {Q : AdmissionUnit → Prop}

theorem AdmissionKept.freeReceiving (h : AdmissionKept Q) {s : State} (hs : Q s.au) : Q (freeReceiving s).au := by
  unfold Machine.freeReceiving
  split
  · exact hs
  · rename_i i hi; exact h.freed s i (.inl (receiving_of_receivingEntry s hi)) hs

theorem AdmissionKept.act (h : AdmissionKept Q) {s t : State} (ha : UnitAct NoAdmission s t) (hs : Q s.au) : Q t.au := by
  have same (hau : t.au = s.au) : Q t.au := hau ▸ hs
  cases ha with
  | text b => exact h.text s.au b hs
  | first i c v _ _ ho => exact h.freed s i (.inr ⟨c, v, (ordinal_of_oldest ho).1⟩) hs
  | restage _ hr _ _ _ => exact hr.elim
  | accept _ _ _ hr _ _ _ => exact hr.elim
  | vacant _ _ hr _ => exact hr.elim
  | reserve hr => exact False.elim hr
  | unreserve => exact h.freeReceiving hs
  | runReset => rw [runResetAll_au]; exact h.reset s hs
  | _ => exact same (by simp)

theorem AdmissionKept.acts (h : AdmissionKept Q) {s t : State} (ha : Acts NoAdmission s t) (hs : Q s.au) : Q t.au :=
  Acts.keeps (P := fun u => Q u.au) (fun _ _ ha hu => h.act ha hu) ha hs

theorem AdmissionKept.holdEntry (h : AdmissionKept Q) {s : State} (hs : Q s.au) : Q (holdEntry s).au := by
  unfold Machine.holdEntry; split; exacts [hs, h.reserved s hs]

/-- The resolver looks at the Admission Unit alone. -/
theorem startResolver_au {s t : State} (h : t.au = s.au) : (startResolver t).au = (startResolver s).au := by
  unfold startResolver State.resolvePointer setEntry
  rw [h]
  split
  · split
    · rfl
    · exact h
  · exact h

theorem acceptCopy_au (i : Fin 16) (payload : List Byte) (o : Word16) (s : State) :
    (acceptCopy i payload o s).au = (startResolver (stageCopy i payload o s)).au := by
  unfold acceptCopy
  refine startResolver_au ?_
  rw [noticeSubst_au, noticeGap_au]
  rfl

theorem AdmissionKept.ownCopy (h : AdmissionKept Q) {s : State} (payload : List Byte) (hs : Q s.au) :
    Q (ownCopy payload s).1.au := by
  unfold Machine.ownCopy
  split
  · exact h.freeReceiving hs
  · split
    · rename_i i b hi _
      dsimp only
      rw [acceptCopy_au]
      exact h.accepted _ i payload _ (receiving_of_receivingEntry _ hi) (h.holdEntry hs)
    · exact hs

theorem AdmissionKept.checkedWrite (_h : AdmissionKept Q) {s : State} (checks : List (Nat × Bool)) (effect : State → State)
    (he : Q (effect s).au) (hs : Q s.au) : Q (checkedWrite checks effect s).1.au := by
  unfold Machine.checkedWrite; split; exacts [hs, he]

theorem AdmissionKept.ownerWrite (h : AdmissionKept Q) {s : State} (t : Table) (index : Nat) (entry : List Byte)
    (hs : Q s.au) : Q (ownerWrite t index entry s).1.au := by
  cases t with
  | station => exact h.acts (writeStation_acts s index entry) hs
  | curve => exact h.checkedWrite _ _ (h.acts (setCurve_acts s _ _) hs) hs
  | plan => exact h.checkedWrite _ _ (h.planned s _ _ hs) hs
  | outputMap =>
    exact h.acts (stoppedWrite_acts s _ _ fun _ => .single (fire_act_of_work s _ rfl rfl rfl rfl)) hs
  | lineProfile => exact h.acts (writeProfile_acts s index entry) hs

theorem AdmissionKept.ownFrame (h : AdmissionKept Q) {s : State} (kind : Byte) (payload : List Byte) (hs : Q s.au) :
    Q (ownFrame kind payload s).1.au := by
  unfold Machine.ownFrame
  split
  · exact h.ownCopy payload hs
  · exact h.acts (ownBundleOpen_acts s payload) hs
  · unfold ownTableWrite
    (repeat' split)
    · exact hs
    · exact hs
    · exact hs
    · exact hs
    · exact h.ownerWrite _ _ _ hs
    · exact hs
  · exact hs
  · exact h.acts (ownLineCommand_acts s payload) hs
  · exact hs
  · unfold ownFlagClear; (repeat' split) <;> exact hs
  · unfold ownNoticeMask; (repeat' split) <;> exact hs
  · unfold ownProtect; (repeat' split) <;> exact hs
  · exact hs

theorem AdmissionKept.takeFrame (h : AdmissionKept Q) {s : State} (kind : Byte) (payload : List Byte) (hs : Q s.au) :
    Q (takeFrame kind payload s).au := h.ownFrame kind payload hs

theorem AdmissionKept.freeCopyEntry (h : AdmissionKept Q) {s : State} (hs : Q s.au) : Q (freeCopyEntry s).au := by
  unfold Machine.freeCopyEntry; split; exacts [h.freeReceiving hs, hs]

theorem AdmissionKept.receiveOctet (h : AdmissionKept Q) {s : State} (o : Byte) (hs : Q s.au) : Q (receiveOctet o s).au := by
  have check (u : State) (hu : Q u.au) : Q (checkFrame u).au := by
    unfold checkFrame takeOrHold
    split
    · split
      · exact h.takeFrame (s := setReceive .search u) _ _ hu
      · exact hu
    · exact h.freeCopyEntry (s := raiseNotice _ { u with ll := { u.ll with crcErrors := bump u.ll.crcErrors } })
        (by rw [raiseNotice_au]; exact hu)
  unfold Machine.receiveOctet
  split
  · split <;> exact hs
  · split <;> exact hs
  · dsimp only; split
    · exact h.reserved (setReceive .payload (setBuffer (fun b => { b with kind := o }) s)) hs
    · exact hs
  · dsimp only; split <;> exact hs
  · exact hs
  · exact check (setBuffer (fun b => { b with crcLow := o }) s) hs
  · exact hs

theorem holdFrame_au (kind : Byte) (payload : List Byte) (s : State) : (holdFrame kind payload s).au =
    (if s.copyArriving = true ∧ kind ≠ 0x01 then freeReceiving s else s).au := rfl

theorem AdmissionKept.holdFrame (h : AdmissionKept Q) {s : State} (kind : Byte) (payload : List Byte) (hs : Q s.au) :
    Q (holdFrame kind payload s).au := by
  rw [holdFrame_au]; split; exacts [h.freeReceiving hs, hs]

theorem AdmissionKept.arriveFrame (h : AdmissionKept Q) {s : State} (kind : Byte) (payload : List Byte) (hs : Q s.au) :
    Q (arriveFrame kind payload s).au := by
  have held : Q (if kind = 0x01 then Machine.holdEntry s else s).au := by split; exacts [h.holdEntry hs, hs]
  unfold Machine.arriveFrame
  split
  · exact hs
  · dsimp only
    split
    · refine h.takeFrame _ _ ?_
      split <;> exact held
    · exact h.holdFrame kind payload held

theorem AdmissionKept.work (h : AdmissionKept Q) {work : State → State} (hw : EventWork work) {s : State} (hs : Q s.au) :
    Q (work s).au := by
  rcases acts_or_link hw with ha | ⟨o, rfl⟩ | rfl | rfl | ⟨kind, payload, rfl⟩ | rfl | rfl
  · exact h.acts (ha NoAdmission s) hs
  · exact h.receiveOctet o hs
  · unfold frameGap
    split
    · exact hs
    · exact hs
    · exact h.freeCopyEntry (s := { s with ll := { s.ll with frameTimeouts := bump s.ll.frameTimeouts } }) hs
  · unfold takeHeld; split; exacts [h.takeFrame (s := setReceive .search s) _ _ hs, hs]
  · exact h.arriveFrame kind payload hs
  · unfold frameSent; split <;> exact hs
  · exact h.completed s hs

theorem AdmissionKept.finish (h : AdmissionKept Q) {s : State} (hs : Q s.au) : Q (finish s).au := by
  have hheld : Q (takeHeld s).au := h.work .held hs
  have hsend (u : State) : (beginSending u).au = u.au := by unfold beginSending; split <;> rfl
  unfold Machine.finish
  rw [hsend]
  exact h.acts (reportBacklog_acts _) hheld

/-- What each change of the Admission Unit keeps, every step keeps. -/
theorem AdmissionKept.step (h : AdmissionKept Q) (hpor : Q AdmissionUnit.por) {s t : State} (hst : step s = .next t)
    (hs : Q s.au) : Q t.au := by
  rcases step_cases s t hst with rfl | ⟨q, ⟨p, a, b, rfl⟩ | rfl | rfl | ⟨p, work, hw, -, rfl⟩⟩
  · exact hs
  · exact h.finish (h.acts (powerOn_acts _ p a b) hpor)
  · exact h.acts ((ReflTransGen.single (withPending_act s q)).trans (enterReset_acts _)) hs
  · exact hs
  · exact h.finish (h.work hw (s := setPins p (s.withPending q)) hs)

/-! ## The text pool -/

theorem startResolver_pool (s : State) : (startResolver s).au.pool = s.au.pool := by
  unfold startResolver; (repeat' split) <;> rfl

theorem planVacant_au (i : Fin 16) (c : StagedCopy) (s : State) :
    (planVacant i c s).au = (freeEntry i (freeText c.blocks s)).au := by
  unfold planVacant
  rw [freeText_freeEntry, freeText_freeEntry, testComplete_freeEntry]
  unfold freeText
  rw [testComplete_au]
  rfl

theorem completeResolution_pool (s : State) : (completeResolution s).au.pool = s.au.pool := by
  unfold completeResolution
  split
  · rfl
  · dsimp only
    split
    · rw [startResolver_pool]
      split
      · rfl
      · split
        · rfl
        · rw [planVacant_au]; rfl
    · rw [startResolver_pool]

theorem stageCopy_pool (i : Fin 16) (payload : List Byte) (o : Word16) (s : State) :
    (stageCopy i payload o s).au.pool = s.au.pool.storeBlocks (copyStored payload) (s.copyBlocks payload) := by
  simp only [stageCopy]

theorem poolKept : AdmissionKept (fun a => a.pool.wf = true) where
  text _ _ h := h
  freed _ _ _ h := by simpa only [freeEntry, setEntry] using h
  reset _ h := by simpa only [resetAdmission] using h
  reserved s h := by unfold reserveEntry; split; exacts [h, by simpa only [setEntry] using h]
  completed s h := by rw [completeResolution_pool]; exact h
  planned s code p h := by rw [setPlan, startResolver_pool]; simpa only [putPlan] using h
  accepted s i payload o _ h := by
    rw [startResolver_pool, stageCopy_pool]
    exact Memory.storeBlocks_wf _ _ _ h

/-! ## The arrival order and the resolver -/

/-- The arrival order and the resolver's entry (R47, R50). -/
structure AdmissionUnit.StagingOk (a : AdmissionUnit) : Prop where
  nodup : a.order.Nodup
  listed : ∀ i : Fin 16, i ∈ a.order ↔ a.staging[i] ≠ .free
  resolver : ∀ i : Fin 16, a.staging[i].isResolving = true ↔ a.resolver.map Resolution.entry = some i

theorem stagingOk_iff (s : State) : s.StagingSound ↔ s.au.StagingOk :=
  ⟨fun ⟨h1, h2, h3⟩ => ⟨h1, h2, h3⟩, fun ⟨h1, h2, h3⟩ => ⟨h1, h2, h3⟩⟩

/-- A resolution with no re-resolve request has read the plan entry of its copy's code. -/
def AdmissionUnit.ReadOk (a : AdmissionUnit) : Prop :=
  ∀ r ∈ a.resolver, ∀ c ∈ a.staging[r.entry].inResolution, r.read = a.plans[c.plan]

/-- No copy waits for an idle resolver. -/
def AdmissionUnit.NoneWaits (a : AdmissionUnit) : Prop := ∀ i : Fin 16, a.staging[i].isArrived = true → a.resolver ≠ none

/-- An entry freed that the resolver does not work on. -/
theorem AdmissionUnit.StagingOk.freed {s : State} {i : Fin 16} (h : s.au.StagingOk) (hi : s.au.resolver.map Resolution.entry ≠ some i) :
    (freeEntry i s).au.StagingOk := by
  refine ⟨h.nodup.filter _, fun j => ?_, fun j => ?_⟩
  · change j ∈ s.au.order.filter (fun j => decide (j ≠ i)) ↔ (s.au.staging.set i.val .free i.isLt)[j] ≠ .free
    rw [List.mem_filter, vector_get_set, h.listed j, decide_eq_true_eq]
    split <;> simp_all
  · change (s.au.staging.set i.val .free i.isLt)[j].isResolving = true ↔ s.au.resolver.map Resolution.entry = some j
    rw [vector_get_set]
    split
    · rename_i hj; subst hj
      exact ⟨fun h => absurd h Bool.false_ne_true, fun h => absurd h hi⟩
    · exact h.resolver j

/-- One entry in use exchanged for another in use, with the resolver. -/
theorem AdmissionUnit.StagingOk.exchanged {a : AdmissionUnit} {i : Fin 16} (h : a.StagingOk) (e : StagingEntry)
    (r : Option Resolution) (hold : a.staging[i] ≠ .free) (hnew : e ≠ .free)
    (hres : ∀ j : Fin 16, (if j = i then e else a.staging[j]).isResolving = true ↔ r.map Resolution.entry = some j) :
    ({ a with staging := a.staging.set i.val e i.isLt, resolver := r } : AdmissionUnit).StagingOk := by
  refine ⟨h.nodup, fun j => ?_, fun j => ?_⟩
  · dsimp only
    rw [vector_get_set, h.listed j]
    split <;> simp_all
  · dsimp only
    rw [vector_get_set]
    exact hres j

/-- While the resolver is idle no entry is RESOLVING. -/
theorem AdmissionUnit.StagingOk.idle {a : AdmissionUnit} (h : a.StagingOk) (hr : a.resolver = none) (i : Fin 16) :
    a.staging[i].isResolving = false := by
  rw [Bool.eq_false_iff, ne_eq, h.resolver i, hr]
  exact fun h => by cases h

theorem startResolver_cases (s : State) :
    startResolver s = s ∨ ∃ i c, s.au.resolver = none ∧ s.resolvePointer = some i ∧ s.au.staging[i] = .arrived c ∧
      (startResolver s).au = { s.au with
        staging := s.au.staging.set i.val (.resolving c false) i.isLt
        resolver := some { entry := i, read := s.au.plans[c.plan] } } := by
  unfold startResolver
  split
  · rename_i i hr hp
    split
    · rename_i c hc; exact .inr ⟨i, c, hr, hp, hc, rfl⟩
    · exact .inl rfl
  · exact .inl rfl

theorem startResolver_stagingOk {s : State} (h : s.au.StagingOk) : (startResolver s).au.StagingOk := by
  rcases startResolver_cases s with he | ⟨i, c, hr, -, hc, he⟩
  · rw [he]; exact h
  · rw [he]
    refine h.exchanged _ _ (by rw [hc]; exact StagingEntry.noConfusion) StagingEntry.noConfusion fun j => ?_
    by_cases hj : j = i
    · subst hj; simp [StagingEntry.isResolving]
    · rw [if_neg hj, h.idle hr j]
      simp [Ne.symm hj]

/-- The state in which the resolver has been made idle and its entry given its next value. -/
theorem resolved_stagingOk {s : State} {r : Resolution} {c : StagedCopy} {again : Bool} (h : s.au.StagingOk)
    (hr : s.au.resolver = some r) (hc : s.au.staging[r.entry] = .resolving c again) (e : StagingEntry) (he : e ≠ .free)
    (her : e.isResolving = false) :
    (setEntry r.entry e { s with au := { s.au with resolver := none } }).au.StagingOk := by
  refine h.exchanged e none (by rw [hc]; exact StagingEntry.noConfusion) he fun j => ?_
  by_cases hj : j = r.entry
  · subst hj; simp [her]
  · rw [if_neg hj, h.resolver j, hr]
    simp [Ne.symm hj]

theorem resolvePointer_eq_none {s : State} (h : s.au.StagingOk) (hp : s.resolvePointer = none) (i : Fin 16) :
    s.au.staging[i].isArrived = false := by
  rw [Bool.eq_false_iff]
  intro ha
  have hmem : i ∈ s.au.order := (h.listed i).mpr fun he => by rw [he] at ha; cases ha
  have := List.find?_eq_none.mp hp i hmem
  cases he : s.au.staging[i] with
  | arrived c => simp [he] at this
  | _ => rw [he] at ha; cases ha

/-- The idle resolver looks for a copy: none waits for it then, and it has read the plan entry of the one it takes. -/
theorem startResolver_resolverOk {s : State} (h : s.au.StagingOk) (hread : s.au.ReadOk) :
    (startResolver s).au.ReadOk ∧ (startResolver s).au.NoneWaits := by
  rcases startResolver_cases s with he | ⟨i, c, hr, -, hc, he⟩
  · rw [he]
    refine ⟨hread, fun i hi hnone => ?_⟩
    cases hp : s.resolvePointer with
    | none => rw [resolvePointer_eq_none h hp i] at hi; cases hi
    | some j =>
      have harr : ∃ c, s.au.staging[j] = .arrived c := by
        have := List.find?_some hp
        cases hj : s.au.staging[j] with
        | arrived c => exact ⟨c, rfl⟩
        | _ => simp [hj] at this
      obtain ⟨c, hc⟩ := harr
      have hsome : (startResolver s).au.resolver ≠ none := by
        unfold startResolver
        rw [hnone, hp]
        simp [hc]
      rw [he] at hsome
      exact hsome hnone
  · rw [he]
    refine ⟨fun r hmem d hd => ?_, fun _ _ => Option.some_ne_none _⟩
    obtain rfl := Option.some.inj hmem
    dsimp only at hd ⊢
    rw [vector_get_set, if_pos rfl] at hd
    obtain rfl := Option.some.inj hd
    rfl

/-- The Admission Unit before the resolver looks again at the end of a resolution. -/
theorem completeResolution_from {s : State} (h : s.au.StagingOk) :
    completeResolution s = s ∨ ∃ u, completeResolution s = startResolver u ∧ u.au.StagingOk ∧ u.au.resolver = none := by
  unfold completeResolution
  split
  · exact .inl rfl
  · rename_i r hr
    dsimp only
    split
    · rename_i c again hc
      refine .inr ⟨_, rfl, ?_⟩
      split
      · exact ⟨resolved_stagingOk h hr hc _ StagingEntry.noConfusion rfl, rfl⟩
      · split
        · exact ⟨resolved_stagingOk h hr hc _ StagingEntry.noConfusion rfl, rfl⟩
        · rw [planVacant_au]
          refine ⟨⟨h.nodup.filter _, fun j => ?_, fun j => ?_⟩, rfl⟩
          · change j ∈ s.au.order.filter (fun j => decide (j ≠ r.entry)) ↔ (s.au.staging.set r.entry.val .free r.entry.isLt)[j] ≠ .free
            rw [List.mem_filter, vector_get_set, h.listed j, decide_eq_true_eq]
            split <;> simp_all
          · change (s.au.staging.set r.entry.val .free r.entry.isLt)[j].isResolving = true ↔ none = some j
            rw [vector_get_set]
            split
            · simp [StagingEntry.isResolving]
            · rename_i hj
              rw [h.resolver j, hr]
              simp [Ne.symm hj]
    · rename_i hnot
      have hres := (h.resolver r.entry).mpr (by rw [hr]; rfl)
      cases he : s.au.staging[r.entry] with
      | resolving c again => exact absurd he (hnot c again)
      | _ => rw [he] at hres; cases hres

theorem isResolving_replanEntry (code : PlanCode) (e : StagingEntry) : (replanEntry code e).isResolving = e.isResolving := by
  cases e with
  | resolved c v => simp only [replanEntry]; split <;> rfl
  | _ => rfl

theorem replanEntry_eq_free (code : PlanCode) (e : StagingEntry) : replanEntry code e = .free ↔ e = .free := by
  cases e with
  | resolved c v => simp only [replanEntry]; split <;> simp
  | _ => simp [replanEntry]

theorem putPlan_staging (code : PlanCode) (p : PlanEntry) (s : State) (i : Fin 16) :
    (putPlan code p s).au.staging[i] = replanEntry code s.au.staging[i] := mapAll_get _ _ i

theorem putPlan_plans (code : PlanCode) (p : PlanEntry) (s : State) (k : PlanCode) :
    (putPlan code p s).au.plans[k] = if k = code then p else s.au.plans[k] := vector_get_set _ _ _ _

theorem putPlan_order (code : PlanCode) (p : PlanEntry) (s : State) : (putPlan code p s).au.order = s.au.order := by
  simp only [putPlan]

theorem putPlan_resolver (code : PlanCode) (p : PlanEntry) (s : State) : (putPlan code p s).au.resolver = s.au.resolver := by
  simp only [putPlan]

theorem putPlan_stagingOk {s : State} (h : s.au.StagingOk) (code : PlanCode) (p : PlanEntry) : (putPlan code p s).au.StagingOk := by
  refine ⟨by rw [putPlan_order]; exact h.nodup, fun i => ?_, fun i => ?_⟩
  · rw [putPlan_staging, putPlan_order, ne_eq, replanEntry_eq_free]; exact h.listed i
  · rw [putPlan_staging, putPlan_resolver, isResolving_replanEntry]; exact h.resolver i

/-- A plan write leaves a resolution without request that has read an entry of another code. -/
theorem putPlan_readOk {s : State} (h : s.au.ReadOk) (code : PlanCode) (p : PlanEntry) : (putPlan code p s).au.ReadOk := by
  intro r hr c hc
  rw [putPlan_resolver] at hr
  rw [putPlan_staging] at hc
  rw [putPlan_plans]
  cases he : s.au.staging[r.entry] with
  | resolving d again =>
    rw [he] at hc
    cases again with
    | true => cases hc
    | false =>
      simp only [replanEntry, Bool.false_or] at hc
      by_cases hd : d.plan = code
      · simp only [hd, decide_true] at hc; cases hc
      · simp only [hd, decide_false] at hc
        obtain rfl : d = c := Option.some.inj hc
        have hread := h r hr d (by rw [he]; rfl)
        rw [if_neg hd]
        exact hread
  | resolved d v =>
    rw [he] at hc
    simp only [replanEntry] at hc
    split at hc <;> cases hc
  | _ => rw [he] at hc; cases hc

theorem stageCopy_stagingOk {s : State} (h : s.au.StagingOk) {i : Fin 16} (hi : s.au.staging[i] = .receiving)
    (payload : List Byte) (o : Word16) : (stageCopy i payload o s).au.StagingOk := by
  have hex := h.exchanged (i := i) (.arrived (s.stagedOf payload o)) s.au.resolver (by rw [hi]; exact StagingEntry.noConfusion)
    StagingEntry.noConfusion fun j => by
      rw [← h.resolver j]
      split
      · rename_i hj; subst hj; rw [hi]; rfl
      · rfl
  exact ⟨hex.nodup, hex.listed, hex.resolver⟩

/-- An entry that the resolver does not work on changes without a change for the resolver. -/
theorem AdmissionUnit.ReadOk.set {s : State} {i : Fin 16} {e : StagingEntry} (h : s.au.ReadOk) (he : e.inResolution = none) :
    ∀ r ∈ s.au.resolver, ∀ c ∈ (s.au.staging.set i.val e i.isLt)[r.entry].inResolution, r.read = s.au.plans[c.plan] := by
  intro r hr c hc
  rw [vector_get_set] at hc
  split at hc
  · rw [he] at hc; cases hc
  · exact h r hr c hc

theorem stagingKept : AdmissionKept AdmissionUnit.StagingOk where
  text _ _ h := ⟨h.nodup, h.listed, h.resolver⟩
  freed s i hi h := by
    refine h.freed fun he => ?_
    have hres := (h.resolver i).mpr he
    rcases hi with hi | ⟨c, v, hi⟩ <;> rw [hi] at hres <;> cases hres
  reset s h := by
    have hget (i : Fin 16) : (resetAdmission s).au.staging[i] = s.au.staging[i].discarded := mapAll_get _ _ i
    refine ⟨h.nodup.filter _, fun i => ?_, fun i => ?_⟩
    · rw [hget]
      change i ∈ s.au.order.filter (fun i => decide (s.au.staging[i] = .receiving)) ↔ _
      rw [List.mem_filter, h.listed i, decide_eq_true_eq]
      cases s.au.staging[i] <;> simp [StagingEntry.discarded]
    · rw [hget]
      change _ ↔ none = some i
      cases s.au.staging[i] <;> simp [StagingEntry.discarded, StagingEntry.isResolving]
  reserved s h := by
    unfold reserveEntry
    split
    · exact h
    · rename_i i hi
      have hfree := freeStaging_eq_some hi
      have hnot : i ∉ s.au.order := fun hm => (h.listed i).mp hm hfree
      refine ⟨?_, fun j => ?_, fun j => ?_⟩
      · exact List.nodup_append.mpr ⟨h.nodup, List.nodup_singleton i, fun a ha b hb => by
          rw [List.mem_singleton] at hb; subst hb; exact fun e => hnot (e ▸ ha)⟩
      · change j ∈ s.au.order ++ [i] ↔ (s.au.staging.set i.val .receiving i.isLt)[j] ≠ .free
        rw [List.mem_append, List.mem_singleton, vector_get_set, h.listed j]
        split <;> simp_all
      · change (s.au.staging.set i.val .receiving i.isLt)[j].isResolving = true ↔ s.au.resolver.map Resolution.entry = some j
        rw [vector_get_set, ← h.resolver j]
        split
        · rename_i hj; subst hj; rw [hfree]; rfl
        · rfl
  completed s h := by
    rcases completeResolution_from h with he | ⟨u, he, hu, -⟩ <;> rw [he]
    · exact h
    · exact startResolver_stagingOk hu
  planned s code p h := startResolver_stagingOk (putPlan_stagingOk h code p)
  accepted s i payload o hi h := startResolver_stagingOk (stageCopy_stagingOk h hi payload o)

/-- The arrival order, with what the resolver has read and what waits for it. -/
structure AdmissionUnit.ResolverOk (a : AdmissionUnit) : Prop where
  staging : a.StagingOk
  read : a.ReadOk
  waits : a.NoneWaits

theorem resolverKept : AdmissionKept AdmissionUnit.ResolverOk where
  text a b h := ⟨stagingKept.text a b h.staging, h.read, h.waits⟩
  freed s i hi h := by
    refine ⟨stagingKept.freed s i hi h.staging, h.read.set rfl, fun j hj => ?_⟩
    have hj : (s.au.staging.set i.val .free i.isLt)[j].isArrived = true := hj
    rw [vector_get_set] at hj
    split at hj
    · cases hj
    · exact h.waits j hj
  reset s h := by
    have hget (i : Fin 16) : (resetAdmission s).au.staging[i] = s.au.staging[i].discarded := mapAll_get _ _ i
    refine ⟨stagingKept.reset s h.staging, fun r hr => absurd hr (Option.not_mem_none r), fun i hi => ?_⟩
    rw [hget] at hi
    cases he : s.au.staging[i] <;> rw [he] at hi <;> cases hi
  reserved s h := by
    refine ⟨stagingKept.reserved s h.staging, ?_, ?_⟩ <;> unfold reserveEntry <;> split
    · exact h.read
    · exact h.read.set rfl
    · exact h.waits
    · rename_i i _
      intro j hj
      have hj : (s.au.staging.set i.val .receiving i.isLt)[j].isArrived = true := hj
      rw [vector_get_set] at hj
      split at hj
      · cases hj
      · exact h.waits j hj
  completed s h := by
    rcases completeResolution_from h.staging with he | ⟨u, he, hu, hidle⟩
    · rw [he]; exact h
    · rw [he]
      obtain ⟨hread, hwaits⟩ := startResolver_resolverOk hu (fun r hr => by rw [hidle] at hr; cases hr)
      exact ⟨startResolver_stagingOk hu, hread, hwaits⟩
  planned s code p h := by
    have hst := putPlan_stagingOk h.staging code p
    obtain ⟨hread, hwaits⟩ := startResolver_resolverOk hst (putPlan_readOk h.read code p)
    exact ⟨startResolver_stagingOk hst, hread, hwaits⟩
  accepted s i payload o hi h := by
    have hst := stageCopy_stagingOk h.staging hi payload o
    obtain ⟨hread, hwaits⟩ := startResolver_resolverOk hst (h.read.set rfl)
    exact ⟨startResolver_stagingOk hst, hread, hwaits⟩

/-- Settles O7: every change of the Admission Unit keeps the pool, the arrival order and what the resolver reads. -/
theorem everyStepKeepsAdmission : Obligations.EveryStepKeepsAdmission := by
  obtain ⟨-, -, hpool, -, -, -, -, hstaging, ⟨hwaits, hread⟩, -⟩ := resetMeetsTheInvariants
  rw [stagingOk_iff] at hstaging
  refine ⟨fun s t hs h => poolKept.step hpool h hs, fun s t hs h => ?_, fun s t hs hr h => ?_⟩
  · rw [stagingOk_iff] at hs ⊢
    exact stagingKept.step hstaging h hs
  · rw [stagingOk_iff] at hs
    obtain ⟨-, hread', hwaits'⟩ := resolverKept.step ⟨hstaging, hread, hwaits⟩ h ⟨hs, hr.2, hr.1⟩
    exact ⟨hwaits', hread'⟩

end Sys2Proof.Machine
end

section
/-! PROOFS. The combined order over every step, and the end of every event. -/

namespace Sys2Proof.Machine

open Relation

/-! ## The combined order -/

theorem finish_receivingSound {s : State} (hao : ArrivalOrder s.au.order s.au.staging) (hs : s.ReceivingSound) :
    (finish s).ReceivingSound := by
  have hsend (u : State) (hu : u.ReceivingSound) : (beginSending u).ReceivingSound := by
    unfold beginSending; split; exacts [act_of_link _ rfl rfl hu, hu]
  exact hsend _ (Acts.receivingSound (reportBacklog_acts _) (takeHeld_receivingSound hao hs))

/-- The work of an event keeps one RECEIVING to a COPY frame in the buffer. -/
theorem work_receivingSound {work : State → State} (hw : EventWork work) {s : State}
    (hao : ArrivalOrder s.au.order s.au.staging) (hs : s.ReceivingSound) : (work s).ReceivingSound := by
  rcases acts_or_link hw with ha | ⟨o, rfl⟩ | rfl | rfl | ⟨kind, payload, rfl⟩ | rfl | rfl
  · exact Acts.receivingSound (ha NoReserve s) hs
  · exact receiveOctet_receivingSound o hao hs
  · exact frameGap_receivingSound hao hs
  · exact takeHeld_receivingSound hao hs
  · exact arriveFrame_receivingSound kind payload hao hs
  · unfold frameSent; split; exacts [act_of_link _ rfl rfl hs, hs]
  · exact Acts.receivingSound (completeResolution_acts s trivial) hs

/-- The balance and the combined order, which the acts keep together. -/
structure State.Ordered (s : State) : Prop where
  balance : Balance s.bu s.inFlight
  length : 1 ≤ s.trackLen
  orderly : s.Orderly

theorem Runs.ordered {s t : State} (h : Runs NoneReceiving s t) (hs : s.Ordered) : t.Ordered :=
  Runs.keeps (fun _ _ ha hu => by
    cases ha with
    | unit _ ha => exact ⟨ha.balance hu.length hu.balance, ha.trackLen_pos hu.length, ha.orderly hu.length hu.balance hu.orderly⟩
    | link l => exact ⟨hu.balance, hu.length, ⟨hu.orderly.arrival, hu.orderly.inOrder⟩⟩) h hs

theorem noneReceiving_full : NoneReceiving.Full := ⟨fun _ h => h, trivial⟩

/-- What the combined order rests on, taken apart. -/
theorem orderSound_iff (s : State) : s.OrderSound ↔ s.StagingSound ∧ s.Ordered ∧ s.ReceivingSound := by
  constructor
  · rintro ⟨hbal, hst, hord, hlast, hrec⟩
    rw [balanceSound_iff] at hbal
    exact ⟨hst, ⟨hbal.1, hbal.2, ⟨hst.1, hst.2.1, hlast⟩, hord⟩, hrec⟩
  · rintro ⟨hst, ⟨hbal, hlen, ⟨-, -, hlast⟩, hord⟩, hrec⟩
    exact ⟨(balanceSound_iff s).mpr ⟨hbal, hlen⟩, hst, hord, hlast, hrec⟩

/-- At a kind octet no entry is RECEIVING. -/
theorem receivingEntry_at_kind {s u : State} (hr : s.ReceivingSound) (hau : u.au = s.au) (hk : s.ll.receive = .kind) :
    u.receivingEntry = none := by
  have hnone := receivingEntry_of_not_copyIn hr fun ⟨_, hc⟩ => by
    rw [hk] at hc
    rcases hc with hc | hc | hc | hc <;> cases hc
  unfold State.receivingEntry at hnone ⊢
  rw [hau]; exact hnone

/-- A step keeps one RECEIVING to a COPY frame in the buffer. -/
theorem step_receivingSound {s t : State} (h : step s = .next t) (hs : s.Ordered) (hr : s.ReceivingSound) : t.ReceivingSound := by
  obtain ⟨-, -, -, -, -, -, -, -, -, -, -, -, -, -, hreset⟩ := resetMeetsTheInvariants
  obtain ⟨-, hres, hrec⟩ := (orderSound_iff _).mp hreset
  rcases step_cases s t h with rfl | ⟨q, ⟨p, a, b, rfl⟩ | rfl | rfl | ⟨p, work, hw, -, rfl⟩⟩
  · exact hr
  · have hpor := powerOn_acts (may := NoReserve) (s.withPending q) p a b
    exact finish_receivingSound (Runs.ordered (powerOn_acts _ p a b).runs hres).orderly.arrival
      (Acts.receivingSound hpor hrec)
  · exact Acts.receivingSound ((ReflTransGen.single (withPending_act s q)).trans (enterReset_acts _)) hr
  · exact receivingSound_of_units (s := s) rfl rfl rfl hr
  · have hu : (setPins p (s.withPending q)).Ordered := ⟨hs.balance, hs.length, ⟨hs.orderly.arrival, hs.orderly.inOrder⟩⟩
    have hru : (setPins p (s.withPending q)).ReceivingSound := receivingSound_of_units (s := s) rfl rfl rfl hr
    refine finish_receivingSound ?_ (work_receivingSound hw hu.orderly.arrival hru)
    exact (Runs.ordered (hw.runs _ noneReceiving_full fun u hau hk => receivingEntry_at_kind hru hau hk) hu).orderly.arrival

theorem step_ordered {s t : State} (h : step s = .next t) (hs : s.Ordered) (hr : s.ReceivingSound) : t.Ordered := by
  obtain ⟨-, -, -, -, -, -, -, -, -, -, -, -, -, -, hreset⟩ := resetMeetsTheInvariants
  obtain ⟨-, hres, -⟩ := (orderSound_iff _).mp hreset
  rcases step_runs h noneReceiving_full fun u hau hk => receivingEntry_at_kind hr hau hk with hrun | hrun
  · exact Runs.ordered hrun hs
  · exact Runs.ordered hrun hres

/-- Settles O46: an insertion by the split of the queue, and every act on the combined order. -/
theorem insertionKeepsTheQueueInOrder : Obligations.InsertionKeepsTheQueueInOrder := by
  refine ⟨fun c q base hr hq => ?_, fun s t hs h => ?_⟩
  · obtain ⟨hsorted, hsplit⟩ := insertContext_sorted hr hq
    exact ⟨hsorted, insertContext_perm c q, hsplit⟩
  · rw [orderSound_iff] at hs ⊢
    obtain ⟨hst, hord, hrec⟩ := hs
    exact ⟨everyStepKeepsAdmission.2.1 s t hst h, step_ordered h hord hrec, step_receivingSound h hord hrec⟩

/-! ## The end of an event -/

theorem ownFrame_receive (kind : Byte) (payload : List Byte) (s : State) :
    (ownFrame kind payload s).1.ll.receive = s.ll.receive := by
  unfold ownFrame
  split
  · exact Acts.receive (ownCopy_acts (may := Anyhow) s ⟨fun _ _ => trivial, trivial⟩ payload)
  · exact Acts.receive (ownBundleOpen_acts (may := Anyhow) s payload)
  · unfold ownTableWrite
    (repeat' split) <;> try rfl
    exact Acts.receive (ownerWrite_acts (may := Anyhow) s trivial _ _ _)
  · rfl
  · exact Acts.receive (ownLineCommand_acts (may := Anyhow) s payload)
  · rfl
  · unfold ownFlagClear; (repeat' split) <;> rfl
  · unfold ownNoticeMask; (repeat' split) <;> rfl
  · unfold ownProtect; (repeat' split) <;> rfl
  · rfl

theorem takeFrame_receive (kind : Byte) (payload : List Byte) (s : State) :
    (takeFrame kind payload s).ll.receive = s.ll.receive := ownFrame_receive kind payload s

/-- After the taking of a held frame none is held that has room. -/
theorem takeHeld_clears (s : State) : ¬ ((takeHeld s).ll.receive = .held ∧ (takeHeld s).hasRoom = true) := by
  unfold takeHeld
  split
  · rw [takeFrame_receive]
    exact fun h => by cases h.1
  · rename_i h; exact h

theorem hasRoom_of_longer {s t : State} (hau : t.au = s.au) (hlen : s.ll.upstream.length ≤ t.ll.upstream.length)
    (h : t.hasRoom = true) : s.hasRoom = true := by
  unfold State.hasRoom State.stagingFill at *
  rw [hau] at h
  rw [decide_eq_true_eq] at *
  omega

theorem raiseNotice_length (n : Notice) (s : State) : (raiseNotice n s).ll.upstream.length = s.ll.upstream.length ∨
    ((raiseNotice n s).ll.upstream.length = s.ll.upstream.length + 1 ∧ s.hasRoom = true) := by
  rw [raiseNotice_ll]
  dsimp only
  split
  · rename_i h; exact .inr ⟨by simp, h.2⟩
  · exact .inl rfl

/-- What the fill report leaves: the cause of LINK_BACKLOG in step with the queue, which a notice may have lengthened by one. -/
theorem reportBacklog_settles (s : State) :
    (96 ≤ (reportBacklog s).ll.upstream.length → (reportBacklog s).lc.holds.linkBacklog = true) ∧
    ((reportBacklog s).lc.holds.linkBacklog = true → 33 ≤ (reportBacklog s).ll.upstream.length) ∧
    s.ll.upstream.length ≤ (reportBacklog s).ll.upstream.length := by
  unfold reportBacklog
  split
  · rename_i h
    have hlen : s.ll.upstream.length ≤ (addHold .linkBacklog s).ll.upstream.length := by
      unfold addHold
      dsimp only
      split
      · rcases raiseNotice_length (.holdEntered (s.lc.holds.add .linkBacklog))
          (setLine .holding { s with lc := { s.lc with holds := s.lc.holds.add .linkBacklog } }) with hl | ⟨hl, -⟩
        · exact le_of_eq hl.symm
        · exact Nat.le_of_lt (Nat.lt_of_lt_of_eq (Nat.lt_succ_self _) hl.symm)
      · exact Nat.le_refl _
    rw [addHold_lc]
    exact ⟨fun _ => rfl, fun _ => by omega, hlen⟩
  · split
    · rename_i h
      have hlen : s.ll.upstream.length ≤ (reduceHolds s.lc.holds.drained s).ll.upstream.length ∧
          (reduceHolds s.lc.holds.drained s).ll.upstream.length ≤ s.ll.upstream.length + 1 := by
        unfold reduceHolds
        dsimp only
        split
        · rcases raiseNotice_length .holdLeft (setLine .running { s with lc := { s.lc with holds := s.lc.holds.drained } })
            with hl | ⟨hl, -⟩ <;> rw [hl]
          · exact ⟨Nat.le_refl _, Nat.le_succ _⟩
          · exact ⟨Nat.le_succ _, Nat.le_refl _⟩
        · exact ⟨Nat.le_refl _, Nat.le_succ _⟩
      rw [reduceHolds_lc]
      exact ⟨fun _ => by omega, fun hb => absurd hb Bool.false_ne_true, hlen.1⟩
    · rename_i h1 h2
      refine ⟨fun h => ?_, fun h => ?_, Nat.le_refl _⟩
      · by_contra hb
        exact h1 ⟨h, by simpa using hb⟩
      · by_contra hb
        exact h2 ⟨by omega, h⟩

theorem beginSending_settles (s : State) :
    (beginSending s).pins.lrdyIn = true → (beginSending s).ll.upstream ≠ [] → (beginSending s).ll.sending = true := by
  have hpins : (beginSending s).pins = s.pins := by unfold beginSending; split <;> rfl
  rw [hpins, beginSending_ll]
  intro h1 h2
  simp [h1, h2]

/-- Every event ends settled. -/
theorem finish_settled (s : State) : (finish s).Settled := by
  obtain ⟨h1, h2, hlen⟩ := reportBacklog_settles (takeHeld s)
  have hau : (reportBacklog (takeHeld s)).au = (takeHeld s).au := by unfold reportBacklog; (repeat' split) <;> simp
  have hreceive := Acts.receive (reportBacklog_acts (may := Anyhow) (takeHeld s))
  have hll := beginSending_ll (reportBacklog (takeHeld s))
  have hlc : (beginSending (reportBacklog (takeHeld s))).lc = (reportBacklog (takeHeld s)).lc := by
    unfold beginSending; split <;> rfl
  have hau' : (beginSending (reportBacklog (takeHeld s))).au = (reportBacklog (takeHeld s)).au := by
    unfold beginSending; split <;> rfl
  refine ⟨fun ⟨hheld, hroom⟩ => takeHeld_clears s ⟨?_, ?_⟩, ?_, ?_, beginSending_settles _⟩
  · change (beginSending (reportBacklog (takeHeld s))).ll.receive = .held at hheld
    rw [hll] at hheld
    exact hreceive.symm.trans hheld
  · refine hasRoom_of_longer (hau'.trans hau) ?_ hroom
    rw [hll]; exact hlen
  · change _ → (beginSending (reportBacklog (takeHeld s))).lc.holds.linkBacklog = true
    change 96 ≤ (beginSending (reportBacklog (takeHeld s))).ll.upstream.length → _
    rw [hlc, hll]; exact h1
  · change (beginSending (reportBacklog (takeHeld s))).lc.holds.linkBacklog = true → _
    change _ → 33 ≤ (beginSending (reportBacklog (takeHeld s))).ll.upstream.length
    rw [hlc, hll]; exact h2

theorem settled_of_units {s t : State} (hll : t.ll = s.ll) (hau : t.au = s.au) (hlc : t.lc = s.lc) (hp : t.pins = s.pins)
    (hs : s.Settled) : t.Settled := by
  unfold State.Settled State.hasRoom State.stagingFill at hs ⊢
  rw [hll, hau, hlc, hp]; exact hs

/-- Settles O5: what is no event changes nothing that an event's end settles. -/
theorem everyStepEndsSettled : Obligations.EveryStepEndsSettled := by
  intro s t hs h
  rcases step_cases s t h with rfl | ⟨q, ⟨p, a, b, rfl⟩ | rfl | rfl | ⟨p, work, hw, -, rfl⟩⟩
  · exact hs
  · exact finish_settled _
  · exact settled_of_units (s := s) (by simp [State.withPending]) (by simp [State.withPending]) (by simp [State.withPending])
      (by simp [State.withPending]) hs
  · exact settled_of_units (s := s) rfl rfl rfl rfl hs
  · exact finish_settled _

end Sys2Proof.Machine
end

section
/-! PROOFS. The records of the line link: what an event at which a frame arrives whole does between two reports of the backlog,
the table reads and the link's own records. -/

namespace Sys2Proof.Machine

/-! ## A record taken at its own event -/

theorem stagingFill_le (s : State) : s.stagingFill ≤ 16 := by
  unfold State.stagingFill
  exact le_trans List.countP_le_length (by simp)

theorem hasRoom_of_short {s : State} (h : s.ll.upstream.length ≤ 160) : s.hasRoom = true := by
  have := stagingFill_le s
  simp only [State.hasRoom, decide_eq_true_eq]
  omega

/-- The fill of a queue that the next record leaves between the two levels of LINK_BACKLOG, or in step with the cause. -/
def State.Unreported (s : State) : Prop :=
  (s.lc.holds.linkBacklog = false → s.ll.upstream.length ≤ 95) ∧ (s.lc.holds.linkBacklog = true → 33 ≤ s.ll.upstream.length)

theorem reportBacklog_unreported {s : State} (h : s.Unreported) : reportBacklog s = s := by
  unfold reportBacklog
  obtain ⟨hlow, hhigh⟩ := h
  cases hb : s.lc.holds.linkBacklog with
  | false => simpa using fun h96 => absurd (hlow hb) (by omega)
  | true => simpa using fun h32 => absurd (hhigh hb) (by omega)

theorem finish_unreported {s : State} (hr : s.ll.receive ≠ .held) (h : s.Unreported) : finish s = beginSending s := by
  simp only [finish, takeHeld_open s hr, reportBacklog_unreported h]

theorem unreported_of_calm {s : State} (h : s.Calm) : s.Unreported :=
  ⟨fun _ => by have := h.2.2.1; omega, fun hb => by rw [h.2.2.2] at hb; cases hb⟩

/-- A frame taken between two reports: the reply goes behind its owner's records, and the transmitter alone ends the event. -/
theorem finish_takeFrame {kind : Byte} {payload : List Byte} {s u : State} {a : Answer}
    (hown : ownFrame kind payload s = (u, a)) (hr : s.ll.receive ≠ .held)
    (hu : (place (replyOf kind payload a) u).Unreported) :
    finish (takeFrame kind payload s) = answered kind payload a u := by
  have hrec := takeFrame_receive kind payload s
  simp only [takeFrame, hown] at hrec ⊢
  exact finish_unreported (by rw [hrec]; exact hr) hu

theorem arriveFrame_other {kind : Byte} (payload : List Byte) {s : State} (hk : kind ≠ 0x01) (hr : s.ll.receive ≠ .held)
    (hroom : s.hasRoom = true) : arriveFrame kind payload s = takeFrame kind payload s := by
  simp only [arriveFrame, hr, hroom, eq_false hk, and_false, if_false, if_true]

/-- The record of a frame other than a COPY's, answered at the event at which it arrives. -/
theorem event_record {p : Pins} {kind : Byte} {payload : List Byte} {s u : State} {a : Answer} (hk : kind ≠ 0x01)
    (hs : s.inReset = false) (hr : s.ll.receive ≠ .held) (hlen : s.ll.upstream.length ≤ 160)
    (hown : ownFrame kind payload (setPins p s) = (u, a)) (hu : (place (replyOf kind payload a) u).Unreported) :
    event p (arriveFrame kind payload) s = .next (answered kind payload a u) := by
  rw [event_open p _ s hs, arriveFrame_other payload hk (s := setPins p s) hr (hasRoom_of_short hlen)]
  exact congrArg _ (finish_takeFrame hown hr hu)

/-- A record that places none but its reply and leaves the hold causes, under Calm. -/
theorem event_record_calm {p : Pins} {kind : Byte} {payload : List Byte} {s u : State} {a : Answer} (hs : s.Calm)
    (hk : kind ≠ 0x01) (hown : ownFrame kind payload (setPins p s) = (u, a))
    (hup : u.ll.upstream.length ≤ s.ll.upstream.length + 62) (hholds : u.lc.holds.linkBacklog = false) :
    event p (arriveFrame kind payload) s = .next (answered kind payload a u) := by
  obtain ⟨hres, hrec, hlen, -⟩ := hs
  refine event_record hk hres hrec (by omega) hown ⟨fun _ => ?_, fun hb => ?_⟩
  · simp only [place_upstream, List.length_append, List.length_cons, List.length_nil]; omega
  · exact absurd hb (by simp [hholds])

/-- A record that is answered and changes nothing, under Calm. -/
theorem event_record_same {p : Pins} {kind : Byte} {payload : List Byte} {s : State} {a : Answer} (hs : s.Calm)
    (hk : kind ≠ 0x01) (hown : ownFrame kind payload (setPins p s) = (setPins p s, a)) :
    event p (arriveFrame kind payload) s = .next (answered kind payload a { s with pins := p }) :=
  event_record_calm hs hk hown (Nat.le_add_right _ _) hs.2.2.2

/-! ## Table reads -/

theorem toNat_ofNat_fin {n : Nat} (hn : n ≤ 256) (i : Fin n) : (BitVec.ofNat 8 i.val).toNat = i.val := by
  have := i.isLt
  simp only [BitVec.toNat_ofNat]
  omega

/-- A TABLE-READ whose code names a table. -/
theorem readAnswer_eq (ref c n : Byte) (t : Table) (ht : tableOfCode c.toNat = some t) (s : State) :
    readAnswer [ref, c, n] s =
      match s.readEntry t n.toNat with
      | none => .refusal .range 0x01
      | some entry => .ok 0 (BitVec.ofNat 8 (tableCode t) :: n :: entry) := by
  simp only [readAnswer, octetAt, List.length_cons, List.length_nil, List.getD_cons_succ, List.getD_cons_zero, ht,
    BitVec.ofNat_toNat, BitVec.setWidth_eq]
  rfl

/-- A TABLE-READ at its event. -/
theorem event_tableRead {p : Pins} {ref c n : Byte} {s : State} (hs : s.Calm) (t : Table) (ht : tableOfCode c.toNat = some t) :
    (∀ entry, (setPins p s).readEntry t n.toNat = some entry → event p (arriveFrame 0x04 [ref, c, n]) s =
      .next (answered 0x04 [ref, c, n] (.ok 0 (BitVec.ofNat 8 (tableCode t) :: n :: entry)) { s with pins := p })) ∧
    ((setPins p s).readEntry t n.toNat = none → event p (arriveFrame 0x04 [ref, c, n]) s =
      .next (answered 0x04 [ref, c, n] (.refusal .range 1) { s with pins := p })) := by
  constructor
  · intro entry h
    refine event_record_same hs (by decide) (Prod.ext rfl ?_)
    exact (readAnswer_eq ref c n t ht _).trans (by rw [h])
  · intro h
    refine event_record_same hs (by decide) (Prod.ext rfl ?_)
    exact (readAnswer_eq ref c n t ht _).trans (by rw [h])

/-- Settles O28: each read goes through `event_tableRead`, by whether the index is one of the table. -/
theorem tableReadsReturnTheEntry : Obligations.TableReadsReturnTheEntry := by
  intro p ref s hs
  refine ⟨fun i => ?_, fun i => ?_, fun i => ?_, fun i => ?_, ?_, fun n => ⟨fun h => ?_, fun h => ?_, fun h => ?_, fun h => ?_,
    fun h => ?_⟩⟩
  · exact (event_tableRead hs .station rfl).1 _ (by rw [toNat_ofNat_fin (by decide)]; simp [State.readEntry, setPins])
  · exact (event_tableRead hs .curve rfl).1 _ (by rw [toNat_ofNat_fin (by decide)]; simp [State.readEntry, setPins])
  · exact (event_tableRead hs .plan rfl).1 _ (by rw [toNat_ofNat_fin (by decide)]; simp [State.readEntry, setPins])
  · exact (event_tableRead hs .outputMap rfl).1 _ (by rw [toNat_ofNat_fin (by decide)]; simp [State.readEntry, setPins])
  · exact (event_tableRead hs .lineProfile rfl).1 _ (by simp [State.readEntry, setPins])
  · exact (event_tableRead hs .station rfl).2 (by simp [State.readEntry, h])
  · exact (event_tableRead hs .curve rfl).2 (by simp [State.readEntry, h])
  · exact (event_tableRead hs .plan rfl).2 (by simp [State.readEntry, h])
  · exact (event_tableRead hs .outputMap rfl).2 (by simp [State.readEntry, h])
  · exact (event_tableRead hs .lineProfile rfl).2 (by simp only [State.readEntry, if_neg (show ¬ n.toNat = 0 by omega)])

/-! ## The link's own records -/

theorem fieldAt2_octets2 (ref : Byte) {n : Nat} (h : n < 65536) : fieldAt2 (ref :: octets2 n) 1 = n := by
  simp only [fieldAt2, octetAt, octets2, List.getD_cons_succ, List.getD_cons_zero, BitVec.toNat_ofNat]
  omega

theorem statusOctets_length (s : State) : s.statusOctets.length = 62 := by
  have hloc : (locatorOctets s.lc.locator).length = 10 := by
    cases s.lc.locator with
    | none => rfl
    | some l => rcases l with ⟨_, _, _, _ | _⟩ <;> rfl
  simp only [State.statusOctets, List.length_append, hloc, octets4, octets3, octets2, State.counters, List.flatMap_cons,
    List.flatMap_nil, List.length_cons, List.length_nil]

theorem ownNoticeMask_set (ref : Byte) (m : BitVec 11) (s : State) :
    ownNoticeMask (ref :: octets2 m.toNat) s = ({ s with ll := { s.ll with mask := m } }, .ok 0 (octets2 m.toNat)) := by
  have hm := m.isLt
  have hf := fieldAt2_octets2 ref (n := m.toNat) (by omega)
  have hlen : (ref :: octets2 m.toNat).length = 3 := rfl
  simp only [ownNoticeMask, kindSetValid, hf, hlen, decide_eq_true (show m.toNat < 2048 from hm), BitVec.ofNat_toNat,
    BitVec.setWidth_eq, ne_eq, not_true_eq_false, if_false, if_true]

theorem ownFlagClear_set (ref : Byte) (m : BitVec 11) (s : State) :
    ownFlagClear (ref :: octets2 m.toNat) s =
      ({ s with ll := { s.ll with flags := s.ll.flags &&& ~~~m } }, .ok 0 (octets2 (s.ll.flags &&& ~~~m).toNat)) := by
  have hm := m.isLt
  have hf := fieldAt2_octets2 ref (n := m.toNat) (by omega)
  have hlen : (ref :: octets2 m.toNat).length = 3 := rfl
  simp only [ownFlagClear, kindSetValid, hf, hlen, decide_eq_true (show m.toNat < 2048 from hm), BitVec.ofNat_toNat,
    BitVec.setWidth_eq, ne_eq, not_true_eq_false, if_false, if_true]

theorem kindSetValid_beyond (ref : Byte) (n : BitVec 16) (h : 2048 ≤ n.toNat) : kindSetValid (ref :: octets2 n.toNat) = false := by
  have := n.isLt
  simp only [kindSetValid, fieldAt2_octets2 ref (n := n.toNat) this, decide_eq_false_iff_not]
  omega

theorem ownProtect_set (ref : Byte) (w : BitVec 5) (s : State) :
    ownProtect [ref, BitVec.ofNat 8 w.toNat] s =
      ({ s with ll := { s.ll with writeEnable := w, lock := false } },
        .ok 0 [BitVec.ofNat 8 w.toNat, boolOctet s.ll.lock]) := by
  have hw := w.isLt
  have ho : octetAt [ref, BitVec.ofNat 8 w.toNat] 1 = w.toNat := by
    simp only [octetAt, List.getD_cons_succ, List.getD_cons_zero, BitVec.toNat_ofNat]
    omega
  have hin : w.toNat < 32 := hw
  have hback : BitVec.ofNat 5 w.toNat = w := by simp
  have hlen : [ref, BitVec.ofNat 8 w.toNat].length = 2 := rfl
  simp only [ownProtect, hlen, ne_eq, not_true_eq_false, if_false, ho, if_pos hin, hback]

theorem ownFrame_unknown {kind : Byte} (h : kind.toNat = 0 ∨ 9 < kind.toNat) (payload : List Byte) (s : State) :
    ownFrame kind payload s = (s, .refusal .format 0x05) := by
  unfold ownFrame
  split <;> first | omega | rfl

/-- The octets of the sets, by their bits. -/
theorem holdOctet_eq (h : HoldSet) : holdOctet h = BitVec.ofNat 8 (h.command.toNat + 2 * h.stationLimit.toNat +
    4 * h.caliperDrift.toNat + 8 * h.linkBacklog.toNat) := by
  rcases h with ⟨a, b, c, d⟩
  revert a b c d; decide

theorem faultOctet_eq (f : FaultSet) : faultOctet f = BitVec.ofNat 8 (f.estop.toNat + 2 * f.jam.toNat + 4 * f.motion.toNat +
    8 * f.printSync.toNat + 16 * f.printOrder.toNat + 32 * f.printBacklog.toNat) := by
  rcases f with ⟨a, b, c, d, e, g⟩
  revert a b c d e g; decide

theorem staged_eq (e : StagingEntry) : e.staged = decide (e ≠ .free ∧ e ≠ .receiving) := by
  cases e <;> simp [StagingEntry.staged]

theorem locatorOctets_eq (l : Option Locator) : locatorOctets l =
    match l with
    | none => [0x00, 0xFF, 0x00, 0x00, 0x00, 0x00, 0xFF, 0x00, 0x00, 0x00]
    | some l =>
      [match l.cause with
         | .estop => 0x01 | .jam => 0x02 | .motion => 0x03 | .printSync => 0x04 | .printOrder => 0x05
         | .printBacklog => 0x06,
       match l.station with
         | none => 0xFF
         | some i => BitVec.ofNat 8 i.val] ++ octets4 l.pitch.toNat ++
      (match l.seq with
         | none => [0xFF, 0x00, 0x00, 0x00]
         | some q => 0x00 :: octets3 q.toNat) := by
  cases l with
  | none => rfl
  | some l => rcases l with ⟨c, st, _, q⟩; cases c <;> cases st <;> cases q <;> rfl

theorem lineCode_eq (l : LineState) : lineCode l =
    match l with
    | .stopped => 0x00 | .running => 0x01 | .holding => 0x02 | .runOut => 0x03 | .faulted => 0x04 := by
  cases l <;> rfl

/-- Settles O60: each record through its owner's equation; the octets of STATUS-READ field by field. -/
theorem theLinkAnswersItsOwnRecords : Obligations.TheLinkAnswersItsOwnRecords := by
  refine ⟨fun p ref s hs => ⟨?_, statusOctets_length s, fun o rest => ?_⟩,
    fun p ref s hs => ⟨fun m => ?_, fun m => ?_, fun w => ?_, fun n hn => ⟨?_, ?_⟩, fun w hw => ?_⟩,
    fun p kind ref rest s hs hk => ?_, fun s => ?_⟩
  · exact event_record_same hs (by decide) rfl
  · refine event_record_same hs (by decide) (Prod.ext rfl ?_)
    change statusAnswer (ref :: o :: rest) (setPins p s) = _
    have hlen : ¬ (ref :: o :: rest).length = 1 := by simp
    rw [statusAnswer, if_neg hlen]
  · exact event_record_calm hs (by decide) (ownNoticeMask_set ref m _) (Nat.le_add_right _ _) hs.2.2.2
  · exact event_record_calm hs (by decide) (ownFlagClear_set ref m _) (Nat.le_add_right _ _) hs.2.2.2
  · exact event_record_calm hs (by decide) (ownProtect_set ref w _) (Nat.le_add_right _ _) hs.2.2.2
  · refine event_record_same hs (by decide) ?_
    change ownNoticeMask _ _ = _
    have hlen : (ref :: octets2 n.toNat).length = 3 := rfl
    simp only [ownNoticeMask, kindSetValid_beyond ref n hn, hlen, ne_eq, not_true_eq_false, if_false, Bool.false_eq_true]
  · refine event_record_same hs (by decide) ?_
    change ownFlagClear _ _ = _
    have hlen : (ref :: octets2 n.toNat).length = 3 := rfl
    simp only [ownFlagClear, kindSetValid_beyond ref n hn, hlen, ne_eq, not_true_eq_false, if_false, Bool.false_eq_true]
  · refine event_record_same hs (by decide) ?_
    change ownProtect _ _ = _
    have ho : ¬ octetAt [ref, w] 1 < 32 := by simpa [octetAt] using hw
    have hlen : [ref, w].length = 2 := rfl
    simp only [ownProtect, hlen, ne_eq, not_true_eq_false, if_false, if_neg ho]
  · refine event_record_same hs (fun h => ?_) (ownFrame_unknown hk _ _)
    rw [h] at hk
    exact absurd hk (by decide)
  · rw [State.statusOctets, holdOctet_eq, faultOctet_eq, locatorOctets_eq, lineCode_eq, State.stagingFill,
      show StagingEntry.staged = fun e => decide (e ≠ .free ∧ e ≠ .receiving) from funext staged_eq]
    simp only [State.counters, List.flatMap_cons, List.flatMap_nil, List.append_nil, List.append_assoc]
    rfl

end Sys2Proof.Machine
end

section
/-! PROOFS. Encodings: table entries, stored text, and a frame sent octet by octet. -/

namespace Sys2Proof.Machine

/-! ## Table entries -/

theorem octets2_value {n : Nat} (h : n ≤ 65535) : (BitVec.ofNat 8 (n / 256)).toNat * 256 + (BitVec.ofNat 8 n).toNat = n := by
  simp only [BitVec.toNat_ofNat]
  omega

theorem octet_value {n : Nat} (h : n ≤ 255) : (BitVec.ofNat 8 n).toNat = n := by
  simp only [BitVec.toNat_ofNat]
  omega

theorem kindOfCode_kindCode (k : StationKind) : kindOfCode (kindCode k).toNat = some k := by cases k <;> rfl

theorem sourceOfCode_sourceCode (o : OutputSource) : sourceOfCode (sourceCode o).toNat = some o := by
  cases o with
  | station i =>
    change sourceOfCode (BitVec.ofNat 8 i.val).toNat = _
    rw [toNat_ofNat_fin (by decide), sourceOfCode, dif_pos i.isLt]
  | _ => rfl

theorem finOrNoneOfCode_finOrNone {n : Nat} (hn : n < 256) (o : Option (Fin n)) :
    finOrNoneOfCode n (finOrNone o).toNat = some o := by
  cases o with
  | none =>
    have : ¬ 255 < n := by omega
    simp [finOrNone, finOrNoneOfCode, this]
  | some i =>
    change finOrNoneOfCode n (BitVec.ofNat 8 i.val).toNat = _
    rw [toNat_ofNat_fin (le_of_lt hn), finOrNoneOfCode, dif_pos i.isLt]

theorem boolOctet_le (b : Bool) : (boolOctet b).toNat ≤ 1 := by cases b <;> decide

theorem decide_boolOctet (b : Bool) : decide ((boolOctet b).toNat = 1) = b := by cases b <;> rfl

/-- A record no check of which fails passes. -/
theorem rangeAnswer_of_all {checks : List (Nat × Bool)} (h : ∀ c ∈ checks, c.2 = true) : rangeAnswer checks = none := by
  have : checks.find? (fun c => !c.2) = none := List.find?_eq_none.mpr (by simpa using h)
  simp [rangeAnswer, firstFailing, this]

theorem station_decodes (e : StationEntry) (h : e.Sound) :
    rangeAnswer (stationChecks (stationOctets e)) = none ∧ stationOfOctets (stationOctets e) = e := by
  obtain ⟨hoff, hphi, hpl, hpl', hws, hwe, hmin, hmin', hfl, hfe, hfe', hpr, hpr', hse, hz, hdr, hj⟩ := h
  have f1 := octets2_value (n := e.phi) (by omega)
  have f2 := octets2_value (n := e.pulseLength) (by omega)
  have f3 := octets2_value (n := e.windowStart) (by omega)
  have f4 := octets2_value (n := e.windowEnd) (by omega)
  have f5 := octets2_value (n := e.zmax) (by omega)
  have f6 := octets2_value (n := e.jamLength) hj
  have g1 := octet_value (n := e.offset) (by omega)
  have g2 := octet_value (n := e.minDetect) hmin'
  have g3 := octet_value (n := e.faultLimit) (by omega)
  have g4 := octet_value (n := e.feeder) (by omega)
  have g5 := octet_value (n := e.printLead) (by omega)
  have g6 := octet_value (n := e.sampleExp) (by omega)
  have g7 := octet_value (n := e.driftLimit) (by omega)
  have c := finOrNoneOfCode_finOrNone (n := 4) (by decide) e.curve
  have se := finOrNoneOfCode_finOrNone (n := 16) (by decide) e.sensor
  have ch := boolOctet_le e.channel
  constructor
  · apply rangeAnswer_of_all
    simp only [stationChecks, stationOctets, octets2, octetAt, fieldAt2, List.cons_append, List.nil_append, List.getD_cons_succ,
      List.getD_cons_zero, kindOfCode_kindCode, c, se, f1, f2, f3, f4, f5, g1, g2, g3, g4, g5, g6, g7, List.forall_mem_cons,
      List.not_mem_nil, decide_eq_true_eq, Option.isSome_some, false_imp_iff, implies_true, and_true, true_and]
    omega
  · simp only [stationOfOctets, stationOctets, octets2, octetAt, fieldAt2, List.cons_append, List.nil_append, List.getD_cons_succ,
      List.getD_cons_zero, kindOfCode_kindCode, c, se, f1, f2, f3, f4, f5, f6, g1, g2, g3, g4, g5, g6, g7, decide_boolOctet,
      Option.getD_some]

theorem curve_decodes (c : Curve) (h : c.Sound) :
    rangeAnswer (curveChecks (curveOctets c)) = none ∧ curveOfOctets (curveOctets c) = c := by
  obtain ⟨h1, h2, h3, a0, a1, a2, a3, k0, k1, k2, k3, hm, hx⟩ := h
  have v (n : Nat) (hn : n ≤ 4095) := octets2_value (n := n) (by omega)
  have s1 := v c.s1 (by omega)
  have s2 := v c.s2 (by omega)
  have amin := v c.amin (by omega)
  constructor
  · apply rangeAnswer_of_all
    simp only [curveChecks, curveOctets, octets2, fieldAt2, octetAt, List.cons_append, List.nil_append, List.getD_cons_succ,
      List.getD_cons_zero, s1, s2, v _ h3, v _ a0, v _ a1, v _ a2, v _ a3, v _ k0, v _ k1, v _ k2, v _ k3, amin, v _ hx,
      List.forall_mem_cons, List.not_mem_nil, decide_eq_true_eq, false_imp_iff, implies_true, and_true]
    omega
  · simp only [curveOfOctets, curveOctets, octets2, fieldAt2, octetAt, List.cons_append, List.nil_append, List.getD_cons_succ,
      List.getD_cons_zero, s1, s2, v _ h3, v _ a0, v _ a1, v _ a2, v _ a3, v _ k0, v _ k1, v _ k2, v _ k3, amin, v _ hx]

theorem plan_decodes (p : PlanEntry) (h : p.Sound) :
    rangeAnswer (planChecks (planOctets p)) = none ∧ planOfOctets (planOctets p) = p := by
  obtain ⟨h1, h1', h2, h2'⟩ := h
  have l1 := octets2_value (n := p.values.low1) (by omega)
  have u1 := octets2_value (n := p.values.high1) (by omega)
  have l2 := octets2_value (n := p.values.low2) (by omega)
  have u2 := octets2_value (n := p.values.high2) (by omega)
  have b1 := boolOctet_le p.valid
  have b2 := boolOctet_le p.values.verify
  constructor
  · apply rangeAnswer_of_all
    simp only [planChecks, planOctets, octets2, fieldAt2, octetAt, List.cons_append, List.nil_append, List.getD_cons_succ,
      List.getD_cons_zero, l1, u1, l2, u2, List.forall_mem_cons, List.not_mem_nil, decide_eq_true_eq, false_imp_iff, implies_true, and_true]
    omega
  · simp only [planOfOctets, planOctets, octets2, fieldAt2, octetAt, List.cons_append, List.nil_append, List.getD_cons_succ,
      List.getD_cons_zero, l1, u1, l2, u2, decide_boolOctet, BitVec.ofNat_toNat, BitVec.setWidth_eq]

theorem output_decodes (e : OutputEntry) :
    rangeAnswer (outputChecks (outputOctets e)) = none ∧ outputOfOctets (outputOctets e) = e := by
  have b := boolOctet_le e.inverted
  constructor
  · apply rangeAnswer_of_all
    simp [outputChecks, outputOctets, octetAt, sourceOfCode_sourceCode, b]
  · simp [outputOfOctets, outputOctets, octetAt, sourceOfCode_sourceCode, decide_boolOctet]

theorem profile_decodes (p : LineProfile) (h : p.Sound) :
    rangeAnswer (profileChecks (profileOctets p)) = none ∧ profileOfOctets (profileOctets p) = p := by
  obtain ⟨hp, hp', hf, hr, hr'⟩ := h
  have fp := octets2_value (n := p.p) (by omega)
  have ff := octet_value hf
  have fr := octet_value hr'
  have hm : (motionSourceCode p.source).toNat ≤ 1 := by cases p.source <;> decide
  have hsrc : (if (motionSourceCode p.source).toNat = 1 then MotionSource.simulated else .encoder) = p.source := by
    cases p.source <;> rfl
  constructor
  · apply rangeAnswer_of_all
    simp only [profileChecks, profileOctets, octets2, fieldAt2, octetAt, List.cons_append, List.nil_append, List.getD_cons_succ,
      List.getD_cons_zero, fp, ff, fr, List.forall_mem_cons, List.not_mem_nil, decide_eq_true_eq, false_imp_iff, implies_true, and_true]
    omega
  · simp only [profileOfOctets, profileOctets, octets2, fieldAt2, octetAt, List.cons_append, List.nil_append, List.getD_cons_succ,
      List.getD_cons_zero, fp, ff, fr, hsrc]

/-- Settles O14. -/
theorem tableEntriesDecodeToThemselves : Obligations.TableEntriesDecodeToThemselves :=
  ⟨station_decodes, curve_decodes, plan_decodes, output_decodes, profile_decodes⟩

/-! ## Stored text -/

theorem Memory.readRun_eq {m m' : Memory} {a n : Nat} (h : ∀ j < n, m.read (a + j) = m'.read (a + j)) :
    m.readRun a n = m'.readRun a n := by
  induction n generalizing a with
  | zero => rfl
  | succ n ih =>
    have h0 := h 0 (by omega)
    have hrest := ih (a := a + 1) (fun j hj => by simpa [Nat.add_assoc, Nat.add_comm 1 j] using h (j + 1) (by omega))
    simp only [Memory.readRun, hrest]
    rw [show m.read a = m'.read a from h0]

/-- What a run of writes into a block reads back as begins with the octets written. -/
theorem Memory.prefix_readRun (octets : List Byte) {m : Memory} (a : Nat) (n : Nat) (hm : m.wf = true) (h : octets.length ≤ n) :
    octets <+: (m.writeRun a octets).readRun a n := by
  have key (m' : Memory) (a n : Nat) (l : List Byte) (hl : l.length ≤ n) (hr : ∀ j (hj : j < l.length), m'.read (a + j) = l[j]) :
      l <+: m'.readRun a n := by
    induction l generalizing a n with
    | nil => exact List.nil_prefix
    | cons b t ih =>
      cases n with
      | zero => simp at hl
      | succ n =>
        have h0 : m'.read a = b := hr 0 (by simp)
        rw [Memory.readRun, h0, List.cons_prefix_cons]
        refine ⟨rfl, ih (a + 1) n (by simpa using hl) fun j hj => ?_⟩
        have := hr (j + 1) (by simpa using hj)
        simpa [Nat.add_assoc, Nat.add_comm 1 j] using this
  exact key _ a n octets h fun j hj => Memory.read_writeRun_inside octets m a j hm hj

/-- The octets stored into distinct blocks that hold them stand at the front of what the blocks read back as. -/
theorem Memory.prefix_loadBlocks (blocks : List Nat) (octets : List Byte) (m : Memory) (hm : m.wf = true) (hd : blocks.Nodup)
    (hlen : octets.length ≤ blockSize * blocks.length) : octets <+: (m.storeBlocks octets blocks).loadBlocks blocks := by
  induction blocks generalizing m octets with
  | nil =>
    have : octets = [] := List.length_eq_zero_iff.mp (by simpa using hlen)
    simp [this]
  | cons b t ih =>
    obtain ⟨hb, ht⟩ := List.nodup_cons.mp hd
    have hwf := Memory.writeRun_wf (octets.take blockSize) m (blockSize * b) hm
    have hrun : ((m.writeRun (blockSize * b) (octets.take blockSize)).storeBlocks (octets.drop blockSize) t).readRun
        (blockSize * b) blockSize = (m.writeRun (blockSize * b) (octets.take blockSize)).readRun (blockSize * b) blockSize := by
      refine Memory.readRun_eq fun j hj => Memory.read_storeBlocks_outside t _ _ _ hwf ?_
      have : (blockSize * b + j) / blockSize = b := by
        rw [Nat.mul_add_div (by decide), Nat.div_eq_of_lt hj, Nat.add_zero]
      rwa [this]
    have hfront := Memory.prefix_readRun (octets.take blockSize) (blockSize * b) blockSize hm (by simp)
    have hrest : octets.drop blockSize <+:
        ((m.writeRun (blockSize * b) (octets.take blockSize)).storeBlocks (octets.drop blockSize) t).loadBlocks t := by
      refine ih _ _ hwf ht ?_
      simp only [List.length_drop, List.length_cons, Nat.mul_add] at *
      omega
    change octets <+: Memory.readRun _ _ _ ++ Memory.loadBlocks _ _
    rw [Memory.storeBlocks, hrun]
    by_cases hfull : blockSize ≤ octets.length
    · have heq := List.IsPrefix.eq_of_length hfront (by simp [hfull])
      rw [← heq]
      conv_lhs => rw [← List.take_append_drop blockSize octets]
      exact (List.prefix_append_right_inj _).mpr hrest
    · rw [List.take_of_length_le (by omega)] at hfront ⊢
      exact hfront.trans (List.prefix_append _ _)

theorem readText_storedText (lines : List (List Byte)) (rest : List Byte) (h : ∀ l ∈ lines, l.length ≤ 40) :
    readText lines.length (storedText lines ++ rest) = lines := by
  induction lines with
  | nil => rfl
  | cons l t ih =>
    have hl := octet_value (n := l.length) (by have := h l (by simp); omega)
    have hform : storedText (l :: t) ++ rest = BitVec.ofNat 8 l.length :: (l ++ (storedText t ++ rest)) := by
      simp [storedText]
    rw [hform, List.length_cons, readText, hl, List.take_left, List.drop_left, ih fun x hx => h x (by simp [hx])]

/-- Settles O16: what the blocks read back as begins with the stored form, which reads back as the lines. -/
theorem storedTextReadsBack : Obligations.StoredTextReadsBack := by
  rintro m lines blocks hm ⟨-, -, hlines⟩ hd hlen
  obtain ⟨rest, hrest⟩ := Memory.prefix_loadBlocks blocks (storedText lines) m hm hd hlen
  rw [← hrest, readText_storedText lines rest hlines]

end Sys2Proof.Machine
end

section
/-! PROOFS. The receive state of the line link: octets, whole frames and the frames that are discarded. -/

namespace Sys2Proof.Machine

/-- An event whose work holds no frame and leaves the backlog unreported ends with the transmitter alone. -/
theorem event_unreported {p : Pins} {work : State → State} {s u : State} (hs : s.inReset = false)
    (hwork : work (setPins p s) = u) (hr : u.ll.receive ≠ .held) (hu : u.Unreported) :
    event p work s = .next (beginSending u) := by
  rw [event_open p work s hs, hwork, finish_unreported hr hu]

/-- The backlog stays unreported where the queue and the hold causes stay. -/
theorem State.Unreported.of_units {s t : State} (h : s.Unreported) (hup : t.ll.upstream = s.ll.upstream)
    (hlc : t.lc = s.lc) : t.Unreported := by
  unfold State.Unreported at *
  rw [hup, hlc]; exact h

/-! ## A frame octet by octet -/

/-- A frame half received: the receive state and the buffer set. -/
def gathering (r : ReceiveState) (b : FrameBuffer) (s : State) : State := setReceive r (setBuffer (fun _ => b) s)

theorem reserveEntry_gathering (r : ReceiveState) (b : FrameBuffer) (s : State) :
    reserveEntry (gathering r b s) = gathering r b (reserveEntry s) := by
  have hfree : (gathering r b s).freeStaging = s.freeStaging := rfl
  unfold reserveEntry
  rw [hfree]
  cases s.freeStaging <;> rfl

/-- The payload's octets gathered up to the last. -/
theorem receive_payload (rest : List Byte) (b : FrameBuffer) (s : State) (hne : rest ≠ [])
    (hlen : b.payload.length + rest.length = b.length.toNat) :
    rest.foldl (fun s o => receiveOctet o s) (gathering .payload b s) =
      gathering .crcHigh { b with payload := b.payload ++ rest } s := by
  induction rest generalizing b with
  | nil => exact absurd rfl hne
  | cons o t ih =>
    rw [List.length_cons] at hlen
    have hstep : receiveOctet o (gathering .payload b s) =
        gathering (if b.payload.length + 1 < b.length.toNat then .payload else .crcHigh) { b with payload := b.payload ++ [o] } s := by
      change (if b.payload.length + 1 < b.length.toNat then _ else _) = _
      split <;> rfl
    rw [List.foldl_cons, hstep]
    cases t with
    | nil =>
      have hlast : ¬ b.payload.length + 1 < b.length.toNat := by simp only [List.length_nil] at hlen; omega
      rw [if_neg hlast]; rfl
    | cons o' t =>
      have hmore : b.payload.length + 1 < b.length.toNat := by rw [List.length_cons] at hlen; omega
      rw [if_pos hmore, ih _ (by simp) (by simp only [List.length_append, List.length_cons, List.length_nil] at *; omega)]
      simp only [List.append_assoc, List.cons_append, List.nil_append]

theorem crc_octets (c : BitVec 16) : BitVec.ofNat 8 (c.toNat / 256) = c.extractLsb' 8 8 ∧ BitVec.ofNat 8 c.toNat = c.extractLsb' 0 8 := by
  constructor <;> apply BitVec.eq_of_toNat_eq <;>
    simp [BitVec.extractLsb'_toNat, Nat.shiftRight_eq_div_pow]

theorem append_extracted (c : BitVec 16) : c.extractLsb' 8 8 ++ c.extractLsb' 0 8 = c := by
  apply BitVec.eq_of_getLsbD_eq
  intro i hi
  simp only [BitVec.getLsbD_append, BitVec.getLsbD_extractLsb']
  split
  · simp [*]
  · have : i - 8 < 8 := by omega
    have : 8 + (i - 8) = i := by omega
    simp [*]

theorem stagingFill_reserveEntry (s : State) : (reserveEntry s).stagingFill = s.stagingFill := by
  unfold reserveEntry
  cases hf : s.freeStaging with
  | none => rfl
  | some i =>
    have hi := freeStaging_eq_some hf
    simp only [State.stagingFill, setEntry, Vector.toList_set]
    rw [List.countP_set (by simp)]
    have : s.au.staging.toList[i.val]'(by simp) = .free := by simpa using hi
    simp [this, StagingEntry.staged]

theorem hasRoom_gathering (r : ReceiveState) (b : FrameBuffer) {s : State} (h : s.hasRoom = true) :
    (gathering r b s).hasRoom = true := h

theorem hasRoom_reserveEntry {s : State} (h : s.hasRoom = true) : (reserveEntry s).hasRoom = true := by
  have hll : (reserveEntry s).ll = s.ll := by simp
  unfold State.hasRoom at *
  rw [hll, stagingFill_reserveEntry]; exact h

/-- A good frame from SEARCH on is taken whole. -/
theorem receive_frame (kind : Byte) (payload : List Byte) (s : State) (h1 : 1 ≤ payload.length) (h2 : payload.length ≤ 250)
    (hr : s.ll.receive = .search) (hroom : s.hasRoom = true) :
    (frameOctets kind payload).foldl (fun s o => receiveOctet o s) s =
      takeFrame kind payload
        (gathering .search (bufferOf kind payload) (if kind = 0x01 then reserveEntry s else s)) := by
  have hlen := octet_value (n := payload.length) (by omega)
  generalize hu : (if kind = 0x01 then reserveEntry s else s) = u
  have huroom : u.hasRoom = true := by rw [← hu]; split; exacts [hasRoom_reserveEntry hroom, hroom]
  have hstart : receiveOctet 0xA5 s = gathering .length FrameBuffer.cleared s := by
    simp only [receiveOctet, hr, if_true]; rfl
  have hlength : receiveOctet (lengthOctet payload) (gathering .length FrameBuffer.cleared s) =
      gathering .kind { FrameBuffer.cleared with length := lengthOctet payload } s := by
    change (if 1 ≤ (lengthOctet payload).toNat ∧ (lengthOctet payload).toNat ≤ 250 then _ else _) = _
    rw [if_pos (by simpa [lengthOctet, hlen] using ⟨h1, h2⟩)]; rfl
  have hkind : receiveOctet kind (gathering .kind { FrameBuffer.cleared with length := lengthOctet payload } s) =
      gathering .payload { FrameBuffer.cleared with length := lengthOctet payload, kind := kind } u := by
    change (if kind = 0x01 then reserveEntry (gathering .payload _ s) else gathering .payload _ s) = _
    rw [← hu, reserveEntry_gathering]; split <;> rfl
  have hpayload := receive_payload payload { FrameBuffer.cleared with length := lengthOctet payload, kind := kind } u
    (by rintro rfl; simp at h1) (by simpa [FrameBuffer.cleared, lengthOctet] using hlen.symm)
  have htake (b : FrameBuffer) (o : Byte) (hb : b.crc = b.crcHigh ++ o) : receiveOctet o (gathering .crcLow b u) =
      takeFrame b.kind b.payload (gathering .search { b with crcLow := o } u) := by
    change checkFrame (gathering .crcLow { b with crcLow := o } u) = _
    unfold checkFrame takeOrHold
    exact (if_pos hb).trans (if_pos (hasRoom_gathering _ _ huroom))
  obtain ⟨hhi, hlo⟩ := crc_octets (crc16 (lengthOctet payload :: kind :: payload))
  have hsplit : frameOctets kind payload = 0xA5 :: lengthOctet payload :: kind :: (payload ++
      [(crc16 (lengthOctet payload :: kind :: payload)).extractLsb' 8 8,
       (crc16 (lengthOctet payload :: kind :: payload)).extractLsb' 0 8]) := by
    simp only [frameOctets, octets2, hhi, hlo, List.cons_append]
  rw [hsplit]
  simp only [List.foldl_cons, List.foldl_append, List.foldl_nil, hstart, hlength, hkind, hpayload]
  refine htake (b := { bufferOf kind payload with crcLow := 0 }) _ ?_
  exact (append_extracted (crc16 (lengthOctet payload :: kind :: payload))).symm

theorem setReceive_self {r : ReceiveState} {s : State} (h : s.ll.receive = r) : setReceive r s = s := by
  subst h; rfl

theorem reserveEntry_setBuffer (f : FrameBuffer → FrameBuffer) (s : State) :
    reserveEntry (setBuffer f s) = setBuffer f (reserveEntry s) := by
  have hfree : (setBuffer f s).freeStaging = s.freeStaging := rfl
  unfold reserveEntry
  rw [hfree]
  cases s.freeStaging <;> rfl

/-- Settles O15: `receive_frame`, and the same frame at one event. -/
theorem frameOctetsAreTakenWhole : Obligations.FrameOctetsAreTakenWhole := by
  refine ⟨receive_frame, fun kind payload s h1 h2 hr hroom hnone => ?_, fun p ref k rest s cmd kind payload h hs => ?_⟩
  · rw [receive_frame kind payload s h1 h2 hr hroom]
    have hheld : ¬ (setBuffer (fun _ => bufferOf kind payload) s).ll.receive = .held := by
      change ¬ s.ll.receive = .held
      rw [hr]; exact ReceiveState.noConfusion
    have hidle : (setBuffer (fun _ => bufferOf kind payload) s).copyArriving = false := by
      change (_ && decide (s.ll.receive = .payload ∨ s.ll.receive = .crcHigh ∨ s.ll.receive = .crcLow)) = false
      simp [hr]
    have hhold : holdEntry (setBuffer (fun _ => bufferOf kind payload) s) =
        setBuffer (fun _ => bufferOf kind payload) (reserveEntry s) := by
      have : (setBuffer (fun _ => bufferOf kind payload) s).receivingEntry = none := hnone
      rw [holdEntry, this, ← reserveEntry_setBuffer]; rfl
    have hll : (reserveEntry s).ll = s.ll := by simp
    rw [arriveFrame, if_neg hheld, hhold, hidle]
    refine ((if_pos hroom).trans ?_).symm
    rw [if_neg (by simp), gathering, setReceive_self]
    · split <;> rfl
    · split
      · change (reserveEntry s).ll.receive = _
        rw [hll, hr]
      · exact hr
  · simp only [List.mem_cons, Prod.mk.injEq, List.not_mem_nil, or_false] at h
    repeat (obtain ⟨rfl, rfl, rfl⟩ | h := h; · exact event_open p _ s hs)
    obtain ⟨rfl, rfl, rfl⟩ := h
    exact event_open p _ s hs

/-! ## Octets (R173) -/

theorem receiveOctet_kind {o : Byte} {s : State} (h : s.ll.receive = .kind) : receiveOctet o s =
    if o = 0x01 then reserveEntry (setReceive .payload (setBuffer (fun b => { b with kind := o }) s))
    else setReceive .payload (setBuffer (fun b => { b with kind := o }) s) := by
  simp only [receiveOctet, h]

theorem receiveOctet_payload {o : Byte} {s : State} (h : s.ll.receive = .payload) : receiveOctet o s =
    if s.ll.buffer.payload.length + 1 < s.ll.buffer.length.toNat then
      setBuffer (fun b => { b with payload := b.payload ++ [o] }) s
    else setReceive .crcHigh (setBuffer (fun b => { b with payload := b.payload ++ [o] }) s) := by
  simp only [receiveOctet, h]

theorem unreported_of_short {s : State} (hlen : s.ll.upstream.length ≤ 95) (hb : s.lc.holds.linkBacklog = false) : s.Unreported :=
  ⟨fun _ => hlen, fun h => by rw [hb] at h; cases h⟩

/-- An octet's event between two reports, where the octet leaves the queue and the Line Control Unit. -/
theorem exec_linkOctet {p : Pins} {o : Byte} {s u : State} (hs : s.inReset = false) (hlen : s.ll.upstream.length ≤ 32)
    (hb : s.lc.holds.linkBacklog = false) (hwork : receiveOctet o (setPins p s) = u) (hr : u.ll.receive ≠ .held)
    (hup : u.ll.upstream = s.ll.upstream) (hlc : u.lc = s.lc) : exec (.linkOctet p o) s = .next (beginSending u) :=
  event_unreported hs hwork hr ((unreported_of_short (s := s) (by omega) hb).of_units hup hlc)

/-- Settles O57, by the receive state. -/
theorem linkOctetsAdvanceTheReceiveState : Obligations.LinkOctetsAdvanceTheReceiveState := by
  intro p o s hs hlen hb
  refine ⟨fun hr => ?_, fun hr => ?_, fun hr ho => ?_, fun i hr ho hf => ?_, fun hr ho hf => ?_, fun hr => ?_, fun hr => ?_⟩
  · split <;> rename_i ho
    · exact exec_linkOctet hs hlen hb (by simp only [receiveOctet, setPins, hr, if_pos ho]; rfl) ReceiveState.noConfusion rfl rfl
    · refine exec_linkOctet (u := { s with pins := p }) hs hlen hb (by simp only [receiveOctet, setPins, hr, if_neg ho]) ?_ rfl rfl
      change s.ll.receive ≠ _
      rw [hr]; exact ReceiveState.noConfusion
  · split <;> rename_i ho
    · exact exec_linkOctet hs hlen hb (by simp only [receiveOctet, setPins, hr, if_pos ho]; rfl) ReceiveState.noConfusion rfl rfl
    · exact exec_linkOctet hs hlen hb (by simp only [receiveOctet, setPins, hr, if_neg ho]; rfl) ReceiveState.noConfusion rfl rfl
  · exact exec_linkOctet hs hlen hb ((receiveOctet_kind (s := setPins p s) hr).trans (if_neg ho)) ReceiveState.noConfusion rfl rfl
  · refine exec_linkOctet hs hlen hb ((receiveOctet_kind (s := setPins p s) hr).trans ((if_pos ho).trans ?_))
      ReceiveState.noConfusion rfl rfl
    have hfree : (setReceive .payload (setBuffer (fun b => { b with kind := o }) (setPins p s))).freeStaging = some i := hf
    rw [reserveEntry, hfree]; rfl
  · refine exec_linkOctet hs hlen hb ((receiveOctet_kind (s := setPins p s) hr).trans ((if_pos ho).trans ?_))
      ReceiveState.noConfusion rfl rfl
    have hfree : (setReceive .payload (setBuffer (fun b => { b with kind := o }) (setPins p s))).freeStaging = none := hf
    rw [reserveEntry, hfree]; rfl
  · split <;> rename_i ho
    · refine exec_linkOctet hs hlen hb ((receiveOctet_payload (s := setPins p s) hr).trans ((if_pos ho).trans ?_))
        ReceiveState.noConfusion rfl rfl
      simp only [setBuffer, setPins, hr]
    · exact exec_linkOctet hs hlen hb ((receiveOctet_payload (s := setPins p s) hr).trans (if_neg ho))
        ReceiveState.noConfusion rfl rfl
  · exact exec_linkOctet hs hlen hb (by simp only [receiveOctet, setPins, hr]; rfl) ReceiveState.noConfusion rfl rfl

/-! ## Frames that are discarded (R38, R174, R175) -/

theorem raiseNotice_ll_room (n : Notice) {s : State} (h : s.hasRoom = true) :
    (raiseNotice n s).ll = { s.ll with
      flags := setFlag s.ll.flags (noticeCode n)
      upstream := if s.ll.mask.getLsbD (noticeCode n) = true then s.ll.upstream ++ [.notice n s.mu.pitch] else s.ll.upstream } := by
  rw [raiseNotice_ll]
  simp [h]

theorem freeReceiving_eq {s : State} {i : Fin 16} (h : s.receivingEntry = some i) : freeReceiving s = freeEntry i s := by
  rw [freeReceiving, h]

theorem freeReceiving_none {s : State} (h : s.receivingEntry = none) : freeReceiving s = s := by
  rw [freeReceiving, h]

/-- The Admission Unit after the entry of a discarded COPY frame has returned to FREE. -/
theorem freeCopyEntry_au (s : State) : (freeCopyEntry s).au = if s.ll.buffer.kind = 0x01 then (freeReceiving s).au else s.au := by
  unfold freeCopyEntry
  split <;> rfl

theorem freeEntry_au (i : Fin 16) (s : State) : (freeEntry i s).au = { s.au with
    staging := s.au.staging.set i.val .free, order := s.au.order.filter (fun j => decide (j ≠ i)) } := rfl

theorem freeReceiving_au_congr {s t : State} (h : t.au = s.au) : (freeReceiving t).au = (freeReceiving s).au := by
  have he : t.receivingEntry = s.receivingEntry := by unfold State.receivingEntry; rw [h]
  unfold freeReceiving
  rw [he]
  cases s.receivingEntry with
  | none => exact h
  | some i => rw [freeEntry_au, freeEntry_au, h]

theorem discardCrc_ll {s : State} (h : s.hasRoom = true) : (discardCrc s).ll = { s.ll with
    receive := .search, crcErrors := bump s.ll.crcErrors, flags := setFlag s.ll.flags 7
    upstream := if s.ll.mask.getLsbD 7 = true then
      s.ll.upstream ++ [.notice (.crcDiscard s.ll.buffer.length s.ll.buffer.kind) s.mu.pitch] else s.ll.upstream } := by
  simp only [discardCrc, setReceive, freeCopyEntry_ll]
  rw [raiseNotice_ll_room _ (s := { s with ll := { s.ll with crcErrors := bump s.ll.crcErrors } }) h]
  rfl

theorem discardCrc_au (s : State) : (discardCrc s).au = if s.ll.buffer.kind = 0x01 then (freeReceiving s).au else s.au := by
  have hb (u : State) (n : Notice) : (raiseNotice n u).ll.buffer = u.ll.buffer := by rw [raiseNotice_ll]
  simp only [discardCrc, setReceive_au, freeCopyEntry_au, hb]
  split
  · exact freeReceiving_au_congr (by simp)
  · simp

/-- The last octet of a frame whose CRC differs. -/
theorem exec_badCrc {p : Pins} {o : Byte} {s : State} (hs : s.Calm) (hr : s.ll.receive = .crcLow)
    (hcrc : s.ll.buffer.crc ≠ s.ll.buffer.crcHigh ++ o) :
    exec (.linkOctet p o) s = .next (beginSending (discardCrc (setBuffer (fun b => { b with crcLow := o }) (setPins p s)))) := by
  obtain ⟨hres, -, hlen, hb⟩ := hs
  have hroom : (setBuffer (fun b => { b with crcLow := o }) (setPins p s)).hasRoom = true :=
    hasRoom_of_short (s := s) (by omega)
  have hll := discardCrc_ll hroom
  refine event_unreported hres ?_ (by rw [hll]; exact ReceiveState.noConfusion) (unreported_of_short ?_ ?_)
  · simp only [receiveOctet, setPins, hr]
    exact if_neg hcrc
  · rw [hll]
    change (if _ then s.ll.upstream ++ [_] else s.ll.upstream).length ≤ 95
    split
    · rw [List.length_append, List.length_singleton]; omega
    · omega
  · simpa [setBuffer] using hb

/-- A break inside a frame. -/
theorem exec_frameTimeout {p : Pins} {s : State} (hs : s.Calm) (hr : s.ll.receive ≠ .search) :
    exec (.frameTimeout p) s = .next (beginSending (setReceive .search (freeCopyEntry
      { s with pins := p, ll := { s.ll with frameTimeouts := bump s.ll.frameTimeouts } }))) := by
  obtain ⟨hres, hheld, hlen, hb⟩ := hs
  refine event_unreported hres ?_ ReceiveState.noConfusion
    ((unreported_of_short (s := s) (by omega) hb).of_units (by simp [setReceive]) (by simp))
  unfold frameGap
  split
  · exact absurd ‹_› hr
  · exact absurd ‹_› hheld
  · rfl

/-- Settles O58: the discard's effect on the link and on staging, by the kind of the frame. -/
theorem badFramesAreDiscarded : Obligations.BadFramesAreDiscarded := by
  intro p o s hs
  have hroom : (setBuffer (fun b => { b with crcLow := o }) (setPins p s)).hasRoom = true :=
    hasRoom_of_short (s := s) (by have := hs.2.2.1; omega)
  have hflag (f : BitVec 11) : (setFlag f 7).getLsbD 7 = true := by simp [setFlag]
  refine ⟨fun hr hcrc hk => ⟨_, exec_badCrc hs hr hcrc, ?_⟩, fun hr hcrc hk => ⟨_, exec_badCrc hs hr hcrc, ?_⟩,
    fun hr hk => ?_, fun i hr hk hi => ⟨_, exec_frameTimeout hs hr, ?_⟩, fun hr => ?_⟩
  · rw [beginSending_ll, discardCrc_ll hroom]
    refine ⟨rfl, rfl, hflag _, rfl, ?_, by simp [setBuffer, setPins], by simp [setBuffer, setPins], by simp [setBuffer, setPins],
      by simp [setBuffer, setPins]⟩
    rw [beginSending_au, discardCrc_au]
    exact if_neg hk
  · rw [beginSending_ll, discardCrc_ll hroom]
    have hau : (discardCrc (setBuffer (fun b => { b with crcLow := o }) (setPins p s))).au = (freeReceiving s).au := by
      rw [discardCrc_au]
      exact (if_pos hk).trans (freeReceiving_au_congr rfl)
    refine ⟨rfl, rfl, hflag _, rfl, fun i hi => ?_, fun hnone => ?_, by simp [setBuffer, setPins], by simp [setBuffer, setPins],
      by simp [setBuffer, setPins], by simp [setBuffer, setPins]⟩
    · rw [beginSending_au, hau, freeReceiving_eq hi]; rfl
    · rw [beginSending_au, hau, freeReceiving_none hnone]
  · rw [exec_frameTimeout hs hr, freeCopyEntry]
    exact congrArg _ (congrArg _ (congrArg _ (if_neg hk)))
  · have hau : (freeCopyEntry { s with pins := p, ll := { s.ll with frameTimeouts := bump s.ll.frameTimeouts } }).au =
        (freeEntry i s).au := by
      rw [freeCopyEntry_au]
      refine (if_pos hk).trans ?_
      rw [freeReceiving_au_congr (s := s) (by rfl), freeReceiving_eq hi]
    rw [beginSending_ll, beginSending_au, setReceive_au, hau]
    refine ⟨rfl, freeEntry_staging i s, by simp [freeEntry_order], ?_, ?_⟩ <;> simp [setReceive, bump]
  · obtain ⟨hres, hheld, hlen, hb⟩ := hs
    refine event_unreported hres ?_ (u := { s with pins := p }) hheld (unreported_of_short (s := s) (by omega) hb)
    simp only [frameGap, setPins, hr]

end Sys2Proof.Machine
end

section
/-! PROOFS. The reader and printer ports: octets gathered, messages taken and discarded. -/

namespace Sys2Proof.Machine

/-! ## A port's octets (R191) -/

theorem portOctet_begin (o : Byte) (h : 250 < o.toNat) : portOctet o (.arriving []) = (.idle, .discard) := if_pos h

theorem portOctet_length (o : Byte) (h : ¬ 250 < o.toNat) : portOctet o (.arriving []) = (.arriving [o], .nothing) := if_neg h

theorem portOctet_more {o l : Byte} {t : List Byte} (h : t.length + 2 < l.toNat + 4) :
    portOctet o (.arriving (l :: t)) = (.arriving (l :: t ++ [o]), .nothing) :=
  if_pos (by simp only [List.length_append, List.length_cons, List.length_nil]; omega)

theorem extracted_append (hi lo : BitVec 8) : (hi ++ lo).extractLsb' 8 8 = hi ∧ (hi ++ lo).extractLsb' 0 8 = lo := by
  constructor <;> apply BitVec.eq_of_getLsbD_eq <;> intro i h
  · rw [BitVec.getLsbD_extractLsb', BitVec.getLsbD_append]; simp; omega
  · rw [BitVec.getLsbD_extractLsb', BitVec.getLsbD_append]; simp [h]

/-- The check of a message that has become whole: its two check octets are its CRC. -/
theorem portCheck_eq (l kind hi lo : Byte) (t : List Byte) (h : t.length = l.toNat) :
    portCheck (l :: kind :: t ++ [hi, lo]) = if crc16 (l :: kind :: t) = hi ++ lo then .message kind t else .discard := by
  have hlen : (l :: kind :: t).length = octetAt (l :: kind :: t ++ [hi, lo]) 0 + 2 := by
    change t.length + 1 + 1 = l.toNat + 2
    omega
  have hcheck : [hi, lo] = octets2 (crc16 (l :: kind :: t)).toNat ↔ crc16 (l :: kind :: t) = hi ++ lo := by
    obtain ⟨hhi, hlo⟩ := crc_octets (crc16 (l :: kind :: t))
    constructor
    · intro he
      rw [octets2, hhi, hlo, List.cons.injEq, List.cons.injEq] at he
      rw [he.1, he.2.1, append_extracted]
    · intro he
      obtain ⟨h1, h2⟩ := extracted_append hi lo
      rw [octets2, hhi, hlo, he, h1, h2]
  have hmsg : ((l :: kind :: t ++ [hi, lo]).drop 2).take (octetAt (l :: kind :: t ++ [hi, lo]) 0) = t := by
    change (t ++ [hi, lo]).take l.toNat = t
    rw [← h, List.take_left]
  unfold portCheck
  dsimp only
  rw [← hlen, List.drop_left, List.take_left, hmsg]
  simp only [hcheck]
  rfl

theorem portOctet_last {l kind hi : Byte} {t : List Byte} (o : Byte) (h : t.length = l.toNat) :
    portOctet o (.arriving (l :: kind :: t ++ [hi])) =
      (.idle, if crc16 (l :: kind :: t) = hi ++ o then .message kind t else .discard) := by
  have hlast : ¬ (l :: (kind :: t ++ [hi]) ++ [o]).length < l.toNat + 4 := by
    simp only [List.length_append, List.length_cons, List.length_nil]; omega
  rw [← portCheck_eq l kind hi o t h]
  refine (if_neg hlast).trans ?_
  simp

/-- The last octet of a frame is its message. -/
theorem portOctet_frame {kind o : Byte} {payload front : List Byte} (hlen : payload.length ≤ 250)
    (h : frameOctets kind payload = 0xA5 :: front ++ [o]) : portOctet o (.arriving front) = (.idle, .message kind payload) := by
  have hval : payload.length = (lengthOctet payload).toNat := (octet_value (by omega)).symm
  obtain ⟨hhi, hlo⟩ := crc_octets (crc16 (lengthOctet payload :: kind :: payload))
  have hsplit : (lengthOctet payload :: kind :: payload ++ [(crc16 (lengthOctet payload :: kind :: payload)).extractLsb' 8 8]) ++
      [(crc16 (lengthOctet payload :: kind :: payload)).extractLsb' 0 8] = front ++ [o] := by
    have := List.cons.inj h
    simp only [octets2, hhi, hlo] at this
    simpa using this.2
  obtain ⟨rfl, ho⟩ := List.append_inj' hsplit rfl
  rw [portOctet_last o hval, ← List.singleton_inj.mp ho, append_extracted, if_pos rfl]

/-! ## The reader port -/

theorem event_congr {p : Pins} {work work' : State → State} {s : State} (h : work (setPins p s) = work' (setPins p s)) :
    event p work s = event p work' s := by
  unfold event
  rw [h]

/-- An event of a calm state whose work leaves the link and the Line Control Unit. -/
theorem event_calm {p : Pins} {work : State → State} {s u : State} (hs : s.Calm) (hwork : work (setPins p s) = u)
    (hll : u.ll = s.ll) (hlc : u.lc = s.lc) : event p work s = .next (beginSending u) :=
  event_unreported hs.1 hwork (by rw [hll]; exact hs.2.1) ((unreported_of_calm hs).of_units (by rw [hll]) hlc)

theorem readerOctet_nothing {o : Byte} {r : PortReceive} {s : State} (h : portOctet o s.cu.reader = (r, .nothing)) :
    readerOctet o s = setReader r s := by simp only [readerOctet, h]

theorem readerOctet_discard {o : Byte} {r : PortReceive} {s : State} (h : portOctet o s.cu.reader = (r, .discard)) :
    readerOctet o s = countReaderError (setReader r s) := by simp only [readerOctet, h]

theorem readerOctet_message {o kind : Byte} {payload : List Byte} {r : PortReceive} {s : State}
    (h : portOctet o s.cu.reader = (r, .message kind payload)) : readerOctet o s = readerMessage kind payload (setReader r s) := by
  simp only [readerOctet, h]

theorem readerMessage_value (w : BitVec 16) (s : State) :
    readerMessage 0x21 (octets2 w.toNat) s = readerArrival (.value w) s := by
  obtain ⟨hhi, hlo⟩ := crc_octets w
  rw [octets2, hhi, hlo]
  change readerArrival (.value (w.extractLsb' 8 8 ++ w.extractLsb' 0 8)) s = _
  rw [append_extracted]

theorem readerMessage_discard {kind : Byte} {payload : List Byte} (s : State)
    (h1 : kind = 0x21 → payload.length ≠ 2) (h2 : kind = 0x22 → payload ≠ []) :
    readerMessage kind payload s = countReaderError s := by
  unfold readerMessage
  split
  · rename_i hk; exact absurd rfl (h1 (BitVec.eq_of_toNat_eq hk))
  · rename_i hk; exact absurd rfl (h2 (BitVec.eq_of_toNat_eq hk))
  · rfl

theorem exec_readerPortOctet_discard {p : Pins} {o : Byte} {s : State}
    (h : readerOctet o (setPins p s) = countReaderError (setReader .idle (setPins p s))) :
    exec (.readerPortOctet p o) s = exec (.readerMessageDiscard p) s :=
  event_congr (work := readerOctet o) (work' := fun s => countReaderError (setReader .idle s)) h

theorem exec_readerPortOctet_read {p : Pins} {o : Byte} {w : BitVec 16} {s : State}
    (h : readerOctet o (setPins p s) = readerArrival (.value w) (setReader .idle (setPins p s))) :
    exec (.readerPortOctet p o) s = exec (.read p w) s :=
  event_congr (work := readerOctet o) (work' := fun s => readerArrival (.value w) (setReader .idle s)) h

theorem exec_readerPortOctet_noRead {p : Pins} {o : Byte} {s : State}
    (h : readerOctet o (setPins p s) = readerArrival .noRead (setReader .idle (setPins p s))) :
    exec (.readerPortOctet p o) s = exec (.noRead p) s :=
  event_congr (work := readerOctet o) (work' := fun s => readerArrival .noRead (setReader .idle s)) h

/-- The reader port of O40. -/
theorem readerPort_gathers (p : Pins) (s : State) (o : Byte) (hs : s.Calm) :
     exec (.readerMessageDiscard p) s = .next (beginSending { s with
       pins := p, cu := { s.cu with reader := .idle, readerErrors := min (s.cu.readerErrors + 1) 65535 } }) ∧
     (s.cu.reader = .idle → exec (.readerOctetTimeout p) s = .next (beginSending { s with pins := p })) ∧
     (∀ l, s.cu.reader = .arriving l → exec (.readerOctetTimeout p) s = .next (beginSending { s with
       pins := p, cu := { s.cu with reader := .idle, readerErrors := min (s.cu.readerErrors + 1) 65535 } })) ∧
     (s.cu.reader = .idle → exec (.readerPortOctet p o) s = .next (beginSending { s with
       pins := p, cu := { s.cu with reader := if o = 0xA5 then .arriving [] else .idle } })) ∧
     (s.cu.reader = .arriving [] → exec (.readerPortOctet p o) s = .next (beginSending { s with
       pins := p
       cu := if 250 < o.toNat then { s.cu with reader := .idle, readerErrors := min (s.cu.readerErrors + 1) 65535 }
             else { s.cu with reader := .arriving [o] } })) ∧
     (∀ (l : Byte) (t : List Byte), s.cu.reader = .arriving (l :: t) → t.length + 2 < l.toNat + 4 →
       exec (.readerPortOctet p o) s = .next (beginSending { s with
         pins := p, cu := { s.cu with reader := .arriving (l :: t ++ [o]) } })) ∧
     (∀ (l kind high : Byte) (t : List Byte), s.cu.reader = .arriving (l :: kind :: t ++ [high]) → t.length = l.toNat →
       crc16 (l :: kind :: t) ≠ high ++ o → exec (.readerPortOctet p o) s = exec (.readerMessageDiscard p) s) ∧
     (∀ (kind : Byte) (payload front : List Byte), payload.length ≤ 250 →
       frameOctets kind payload = 0xA5 :: front ++ [o] → s.cu.reader = .arriving front →
       (kind ≠ 0x21 → kind ≠ 0x22 → exec (.readerPortOctet p o) s = exec (.readerMessageDiscard p) s) ∧
       (∀ w : BitVec 16, kind = 0x21 → payload = octets2 w.toNat → exec (.readerPortOctet p o) s = exec (.read p w) s) ∧
       (kind = 0x22 → payload = [] → exec (.readerPortOctet p o) s = exec (.noRead p) s) ∧
       (kind = 0x21 ∧ payload.length ≠ 2 ∨ kind = 0x22 ∧ payload ≠ [] →
         exec (.readerPortOctet p o) s = exec (.readerMessageDiscard p) s)) := by
  refine ⟨?_, fun hr => ?_, fun l hr => ?_, fun hr => ?_, fun hr => ?_, fun l t hr ht => ?_,
    fun l kind high t hr ht hcrc => ?_, fun kind payload front hlen hf hr => ?_⟩
  · exact event_calm (work := fun s => countReaderError (setReader .idle s)) hs (by rfl) rfl rfl
  · exact event_calm (work := readerGap) hs (by simp only [readerGap, setPins, hr]) rfl rfl
  · exact event_calm (work := readerGap) hs (by simp only [readerGap, setPins, hr]; rfl) rfl rfl
  · have hport : portOctet o (setPins p s).cu.reader = (if o = 0xA5 then .arriving [] else .idle, .nothing) := by
      change portOctet o s.cu.reader = _
      rw [hr, portOctet]; split <;> rfl
    exact event_calm (work := readerOctet o) hs (readerOctet_nothing hport) rfl rfl
  · by_cases ho : 250 < o.toNat
    · rw [if_pos ho]
      have hport : portOctet o (setPins p s).cu.reader = _ := (congrArg (portOctet o) hr).trans (portOctet_begin o ho)
      exact event_calm (work := readerOctet o) hs (readerOctet_discard hport) rfl rfl
    · rw [if_neg ho]
      have hport : portOctet o (setPins p s).cu.reader = _ := (congrArg (portOctet o) hr).trans (portOctet_length o ho)
      exact event_calm (work := readerOctet o) hs (readerOctet_nothing hport) rfl rfl
  · have hport : portOctet o (setPins p s).cu.reader = _ := (congrArg (portOctet o) hr).trans (portOctet_more ht)
    exact event_calm (work := readerOctet o) hs (readerOctet_nothing hport) rfl rfl
  · have hport : portOctet o (setPins p s).cu.reader = (.idle, .discard) := by
      refine (congrArg (portOctet o) hr).trans ?_
      rw [portOctet_last o ht, if_neg hcrc]
    exact exec_readerPortOctet_discard (readerOctet_discard hport)
  · have hport : portOctet o (setPins p s).cu.reader = (.idle, .message kind payload) := by
      rw [← portOctet_frame hlen hf]; exact congrArg (portOctet o) hr
    have hwork := readerOctet_message hport
    refine ⟨fun h1 h2 => ?_, fun w hk hp => ?_, fun hk hp => ?_, fun h => ?_⟩
    · exact exec_readerPortOctet_discard (hwork.trans (readerMessage_discard _ (fun h => absurd h h1) (fun h => absurd h h2)))
    · subst hk hp; exact exec_readerPortOctet_read (hwork.trans (readerMessage_value w _))
    · subst hk hp; exact exec_readerPortOctet_noRead hwork
    · refine exec_readerPortOctet_discard (hwork.trans (readerMessage_discard _ (fun hk => ?_) (fun hk => ?_)))
      · rcases h with h | h
        · exact h.2
        · rw [hk] at h; exact absurd h.1 (by decide)
      · rcases h with h | h
        · rw [hk] at h; exact absurd h.1 (by decide)
        · exact h.2

/-! ## The printer port -/

theorem printerOctet_nothing {o : Byte} {r : PortReceive} {s : State} (h : portOctet o s.pp.receive = (r, .nothing)) :
    printerOctet o s = setPrinterReceive r s := by simp only [printerOctet, h]

theorem printerOctet_discard {o : Byte} {r : PortReceive} {s : State} (h : portOctet o s.pp.receive = (r, .discard)) :
    printerOctet o s = countPrinterError (setPrinterReceive r s) := by simp only [printerOctet, h]

theorem printerOctet_message {o kind : Byte} {payload : List Byte} {r : PortReceive} {s : State}
    (h : portOctet o s.pp.receive = (r, .message kind payload)) :
    printerOctet o s = printerMessage kind payload (setPrinterReceive r s) := by
  simp only [printerOctet, h]

/-- The tag of a message, from its octet. -/
theorem tag_octet (tag : Tag) : (BitVec.ofNat 8 tag.toNat).toNat ≤ 15 ∧ (BitVec.ofNat 8 tag.toNat).setWidth 4 = tag := by
  revert tag; decide

theorem printerMessage_taken (tag : Tag) (s : State) :
    printerMessage 0x12 [BitVec.ofNat 8 tag.toNat] s = printerTaken tag s := by
  obtain ⟨hle, hback⟩ := tag_octet tag
  refine (if_pos hle).trans ?_
  rw [hback]

theorem printerMessage_done (tag : Tag) (result : PrintResult) (r : Byte) (s : State)
    (h : result = .ok ∧ r = 0 ∨ result = .fail ∧ r = 1) :
    printerMessage 0x13 [BitVec.ofNat 8 tag.toNat, r] s = printerDone tag result s := by
  obtain ⟨hle, hback⟩ := tag_octet tag
  rcases h with ⟨rfl, rfl⟩ | ⟨rfl, rfl⟩
  · refine (if_pos ⟨hle, rfl⟩).trans ?_
    rw [hback]
  · refine (if_neg (by simp)).trans ((if_pos ⟨hle, rfl⟩).trans ?_)
    rw [hback]

/-- A printer message that is none: its kind, its length or its codes (R97, R191). -/
theorem printerMessage_discard {kind : Byte} {payload : List Byte} (s : State) (h1 : kind = 0x11 → payload ≠ [])
    (h2 : ∀ t, kind = 0x12 → payload = [t] → 15 < t.toNat)
    (h3 : ∀ t r, kind = 0x13 → payload = [t, r] → 15 < t.toNat ∨ 1 < r.toNat) :
    printerMessage kind payload s = countPrinterError s := by
  unfold printerMessage
  split
  · rename_i hk; exact absurd rfl (h1 (BitVec.eq_of_toNat_eq hk))
  · rename_i t hk
    have := h2 t (BitVec.eq_of_toNat_eq hk) rfl
    exact if_neg (by omega)
  · rename_i t r hk
    have hcode := h3 t r (BitVec.eq_of_toNat_eq hk) rfl
    have hno (n : Byte) (hn : n.toNat ≤ 1) : ¬ (t.toNat ≤ 15 ∧ r = n) := by
      rintro ⟨ht, rfl⟩; omega
    exact (if_neg (hno 0 (by decide))).trans (if_neg (hno 1 (by decide)))
  · rfl

theorem exec_printerPortOctet_discard {p : Pins} {o : Byte} {s : State}
    (h : printerOctet o (setPins p s) = countPrinterError (setPrinterReceive .idle (setPins p s))) :
    exec (.printerPortOctet p o) s = exec (.printerMessageDiscard p) s :=
  event_congr (work := printerOctet o) (work' := fun s => countPrinterError (setPrinterReceive .idle s)) h

theorem exec_printerPortOctet_cleared {p : Pins} {o : Byte} {s : State}
    (h : printerOctet o (setPins p s) = printerCleared (setPrinterReceive .idle (setPins p s))) :
    exec (.printerPortOctet p o) s = exec (.cleared p) s :=
  event_congr (work := printerOctet o) (work' := fun s => printerCleared (setPrinterReceive .idle s)) h

theorem exec_printerPortOctet_taken {p : Pins} {o : Byte} {tag : Tag} {s : State}
    (h : printerOctet o (setPins p s) = printerTaken tag (setPrinterReceive .idle (setPins p s))) :
    exec (.printerPortOctet p o) s = exec (.taken p tag) s :=
  event_congr (work := printerOctet o) (work' := fun s => printerTaken tag (setPrinterReceive .idle s)) h

theorem exec_printerPortOctet_done {p : Pins} {o : Byte} {tag : Tag} {result : PrintResult} {s : State}
    (h : printerOctet o (setPins p s) = printerDone tag result (setPrinterReceive .idle (setPins p s))) :
    exec (.printerPortOctet p o) s = exec (.done p tag result) s :=
  event_congr (work := printerOctet o) (work' := fun s => printerDone tag result (setPrinterReceive .idle s)) h

/-- The last octet of a printer message. -/
theorem printerPort_message {p : Pins} {s : State} {o kind : Byte} {payload front : List Byte} (hlen : payload.length ≤ 250)
    (hf : frameOctets kind payload = 0xA5 :: front ++ [o]) (hr : s.pp.receive = .arriving front) :
    (kind ≠ 0x11 → kind ≠ 0x12 → kind ≠ 0x13 → exec (.printerPortOctet p o) s = exec (.printerMessageDiscard p) s) ∧
    (kind = 0x11 → payload = [] → exec (.printerPortOctet p o) s = exec (.cleared p) s) ∧
    (∀ tag : Tag, kind = 0x12 → payload = [BitVec.ofNat 8 tag.toNat] →
      exec (.printerPortOctet p o) s = exec (.taken p tag) s) ∧
    (∀ tag : Tag, kind = 0x13 → payload = [BitVec.ofNat 8 tag.toNat, 0x00] →
      exec (.printerPortOctet p o) s = exec (.done p tag .ok) s) ∧
    (∀ tag : Tag, kind = 0x13 → payload = [BitVec.ofNat 8 tag.toNat, 0x01] →
      exec (.printerPortOctet p o) s = exec (.done p tag .fail) s) ∧
    (kind = 0x11 ∧ payload ≠ [] ∨ kind = 0x12 ∧ payload.length ≠ 1 ∨ kind = 0x13 ∧ payload.length ≠ 2 →
      exec (.printerPortOctet p o) s = exec (.printerMessageDiscard p) s) ∧
    (∀ tag result : Byte, kind = 0x12 ∧ payload = [tag] ∧ 15 < tag.toNat ∨
        kind = 0x13 ∧ payload = [tag, result] ∧ (15 < tag.toNat ∨ 1 < result.toNat) →
      exec (.printerPortOctet p o) s = exec (.printerMessageDiscard p) s) := by
  have hport : portOctet o (setPins p s).pp.receive = (.idle, .message kind payload) := by
    rw [← portOctet_frame hlen hf]; exact congrArg (portOctet o) hr
  have hwork := printerOctet_message hport
  have hdiscard (h1 : kind = 0x11 → payload ≠ []) (h2 : ∀ t, kind = 0x12 → payload = [t] → 15 < t.toNat)
      (h3 : ∀ t r, kind = 0x13 → payload = [t, r] → 15 < t.toNat ∨ 1 < r.toNat) :
      exec (.printerPortOctet p o) s = exec (.printerMessageDiscard p) s :=
    exec_printerPortOctet_discard (hwork.trans (printerMessage_discard _ h1 h2 h3))
  refine ⟨fun h1 h2 h3 => ?_, fun hk hp => ?_, fun tag hk hp => ?_, fun tag hk hp => ?_, fun tag hk hp => ?_, fun h => ?_,
    fun tag result h => ?_⟩
  · exact hdiscard (fun h => absurd h h1) (fun _ h => absurd h h2) (fun _ _ h => absurd h h3)
  · subst hk hp; exact exec_printerPortOctet_cleared hwork
  · subst hk hp; exact exec_printerPortOctet_taken (hwork.trans (printerMessage_taken tag _))
  · subst hk hp; exact exec_printerPortOctet_done (hwork.trans (printerMessage_done tag .ok 0 _ (.inl ⟨rfl, rfl⟩)))
  · subst hk hp; exact exec_printerPortOctet_done (hwork.trans (printerMessage_done tag .fail 1 _ (.inr ⟨rfl, rfl⟩)))
  · rcases h with ⟨rfl, hp⟩ | ⟨rfl, hp⟩ | ⟨rfl, hp⟩
    · exact hdiscard (fun _ => hp) (fun _ h => absurd h (by decide)) (fun _ _ h => absurd h (by decide))
    · exact hdiscard (fun h => absurd h (by decide)) (fun t _ h => absurd (by rw [h]; rfl) hp)
        (fun _ _ h => absurd h (by decide))
    · exact hdiscard (fun h => absurd h (by decide)) (fun _ h => absurd h (by decide))
        (fun t r _ h => absurd (by rw [h]; rfl) hp)
  · rcases h with ⟨rfl, rfl, ht⟩ | ⟨rfl, rfl, hc⟩
    · refine hdiscard (fun h => absurd h (by decide)) (fun t _ h => ?_) (fun _ _ h => absurd h (by decide))
      rw [← List.singleton_inj.mp h]; exact ht
    · refine hdiscard (fun h => absurd h (by decide)) (fun _ h => absurd h (by decide)) (fun t r _ h => ?_)
      obtain ⟨rfl, hresult⟩ := List.cons.inj h
      rw [← List.singleton_inj.mp hresult]; exact hc

/-- The last octet of a printer message whose check fails. -/
theorem printerPort_badCheck {p : Pins} {s : State} {o l kind high : Byte} {t : List Byte}
    (hr : s.pp.receive = .arriving (l :: kind :: t ++ [high])) (ht : t.length = l.toNat) (hcrc : crc16 (l :: kind :: t) ≠ high ++ o) :
    exec (.printerPortOctet p o) s = exec (.printerMessageDiscard p) s := by
  have hport : portOctet o (setPins p s).pp.receive = (.idle, .discard) := by
    refine (congrArg (portOctet o) hr).trans ?_
    rw [portOctet_last o ht, if_neg hcrc]
  exact exec_printerPortOctet_discard (printerOctet_discard hport)

/-- Settles O40: each port by its receive state, and a message by its kind. -/
theorem portsGatherMessages : Obligations.PortsGatherMessages := by
  refine ⟨readerPort_gathers, fun p s o hs => ⟨?_, fun hr => ?_, fun l hr => ?_, fun hr => ?_, fun hr => ?_, fun l t hr ht => ?_,
    fun l kind high t hr ht hcrc => printerPort_badCheck hr ht hcrc,
    fun kind payload front hlen hf hr => printerPort_message hlen hf hr, ?_⟩⟩
  · exact event_calm (work := fun s => countPrinterError (setPrinterReceive .idle s)) hs (by rfl) rfl rfl
  · exact event_calm (work := printerGap) hs (by simp only [printerGap, setPins, hr]) rfl rfl
  · exact event_calm (work := printerGap) hs (by simp only [printerGap, setPins, hr]; rfl) rfl rfl
  · have hport : portOctet o (setPins p s).pp.receive = (if o = 0xA5 then .arriving [] else .idle, .nothing) := by
      change portOctet o s.pp.receive = _
      rw [hr, portOctet]; split <;> rfl
    exact event_calm (work := printerOctet o) hs (printerOctet_nothing hport) rfl rfl
  · by_cases ho : 250 < o.toNat
    · rw [if_pos ho]
      have hport : portOctet o (setPins p s).pp.receive = _ := (congrArg (portOctet o) hr).trans (portOctet_begin o ho)
      exact event_calm (work := printerOctet o) hs (printerOctet_discard hport) rfl rfl
    · rw [if_neg ho]
      have hport : portOctet o (setPins p s).pp.receive = _ := (congrArg (portOctet o) hr).trans (portOctet_length o ho)
      exact event_calm (work := printerOctet o) hs (printerOctet_nothing hport) rfl rfl
  · have hport : portOctet o (setPins p s).pp.receive = _ := (congrArg (portOctet o) hr).trans (portOctet_more ht)
    exact event_calm (work := printerOctet o) hs (printerOctet_nothing hport) rfl rfl
  · exact event_calm (work := printerSent) hs (by rfl) rfl rfl

end Sys2Proof.Machine
end

section
/-! PROOFS. The configuration checks of START (section 2.2). -/

namespace Sys2Proof.Machine

/-! ## The stations of a kind -/

theorem stationNos_eq : stationNos = List.finRange 16 := by decide

theorem kindCount_eq (s : State) (k : StationKind) : s.kindCount k = (s.stationsOf k).length := by
  rw [State.kindCount, State.stationsOf, List.countP_eq_length_filter, stationNos_eq]

/-- The one station of a kind that has no other. -/
theorem stationsOf_single {s : State} {k : StationKind} {i : StationNo} (h : (s.stationsOf k).length ≤ 1)
    (hi : (s.station i).kind = k) : s.stationsOf k = [i] := by
  have hmem := (mem_stationsOf s k i).mpr hi
  rcases hl : s.stationsOf k with _ | ⟨a, _ | ⟨b, t⟩⟩
  · rw [hl] at hmem; cases hmem
  · rw [hl] at hmem; rw [List.mem_singleton.mp hmem]
  · rw [hl] at h; simp at h

theorem offsetOf_single {s : State} {k : StationKind} {i : StationNo} (h : (s.stationsOf k).length ≤ 1)
    (hi : (s.station i).kind = k) : s.offsetOf k = (s.station i).offset := by
  simp [State.offsetOf, State.firstOf, stationsOf_single h hi]

theorem exists_of_stationsOf {s : State} {k : StationKind} (h : (s.stationsOf k).length = 1) :
    ∃ i, ∀ j, (s.station j).kind = k ↔ j = i := by
  obtain ⟨i, hi⟩ := List.length_eq_one_iff.mp h
  exact ⟨i, fun j => by rw [← mem_stationsOf, hi, List.mem_singleton]⟩

theorem firstOf_isSome (s : State) (k : StationKind) : (s.firstOf k).isSome = true ↔ ∃ i, (s.station i).kind = k := by
  simp only [State.firstOf, List.isSome_head?, ← mem_stationsOf]
  exact ⟨fun h => by simpa using List.exists_mem_of_ne_nil _ (by simpa using h), fun ⟨i, hi⟩ => by simpa using List.ne_nil_of_mem hi⟩

/-! ## Each check against its reason -/

/-- A check of START is the n-th reason of the table: its code, when it fails, and which stations break it. -/
structure ConfigCheck.Judges (c : ConfigCheck) (s : State) (n : Nat) : Prop where
  reason : c.reason = BitVec.ofNat 8 n
  fails : c.fails = true ↔ s.configFails n
  stations : ∃ b : StationNo → Bool, c.stations = stationNos.filter b ∧ ∀ i, b i = true ↔ s.breaks n i

theorem countCheck_judges {s : State} {n : Nat} {k : StationKind} {f : Nat → Bool} (hf : f (s.kindCount k) = true ↔ s.configFails n)
    (hb : ∀ i, s.breaks n i ↔ (s.station i).kind = k) : (countCheck (BitVec.ofNat 8 n) k f s).Judges s n where
  reason := rfl
  fails := by rw [← hf, kindCount_eq]; rfl
  stations := ⟨fun i => decide ((s.station i).kind = k), rfl, fun i => by rw [hb, decide_eq_true_eq]⟩

theorem eachCheck_judges {s : State} {n : Nat} {b : StationNo → Bool} (hb : ∀ i, b i = true ↔ s.breaks n i)
    (hf : s.configFails n ↔ ∃ i, s.breaks n i) : (eachCheck (BitVec.ofNat 8 n) b).Judges s n where
  reason := rfl
  fails := by
    rw [hf]
    simp only [eachCheck, List.any_eq_true, hb]
    exact ⟨fun ⟨i, _, h⟩ => ⟨i, h⟩, fun ⟨i, h⟩ => ⟨i, mem_stationNos i, h⟩⟩
  stations := ⟨b, rfl, hb⟩

theorem orderCheck_judges {s : State} {n : Nat} {a b : StationKind} {f : Bool} (hf : f = true ↔ s.configFails n)
    (hb : ∀ i, s.breaks n i ↔ (s.station i).kind = a ∨ (s.station i).kind = b) :
    (orderCheck (BitVec.ofNat 8 n) a b f s).Judges s n where
  reason := rfl
  fails := hf
  stations := ⟨fun i => decide ((s.station i).kind = a ∨ (s.station i).kind = b), rfl, fun i => by rw [hb, decide_eq_true_eq]⟩

theorem sharesFeeder_iff (s : State) (i : StationNo) : s.sharesFeeder i = true ↔ s.breaks 10 i := by
  simp only [State.sharesFeeder, Bool.and_eq_true, decide_eq_true_eq, List.any_eq_true, mem_stationsOf]
  exact ⟨fun ⟨hi, j, hj, hne, hf⟩ => ⟨hi, j, hne, hj, hf⟩, fun ⟨hi, j, hne, hj, hf⟩ => ⟨hi, j, hj, hne, hf⟩⟩

theorem curveBeyond_iff (s : State) (i : StationNo) : s.curveBeyond i = true ↔ s.breaks 16 i := by
  simp only [State.curveBeyond, State.breaks, Bool.and_eq_true]
  cases (s.station i).curve with
  | none => simp
  | some k => simp

/-- With one GATE station, the stations at or beyond it. -/
theorem beyondGate_iff {s : State} (h : s.kindCount .gate = 1) (i : StationNo) : s.beyondGate i = true ↔ s.breaks 11 i := by
  rw [kindCount_eq] at h
  obtain ⟨g, hg⟩ := exists_of_stationsOf h
  have hoff := offsetOf_single (le_of_eq h) ((hg g).mpr rfl)
  simp only [State.beyondGate, State.breaks, Bool.and_eq_true, decide_eq_true_eq, hoff, and_assoc]
  refine and_congr_right fun _ => and_congr_right fun _ => and_congr_right fun _ => ⟨fun hle => ⟨g, (hg g).mpr rfl, hle⟩, ?_⟩
  rintro ⟨g', hg', hle⟩
  rwa [(hg g').mp hg'] at hle

/-- An order between the stations of two kinds that have one each. -/
theorem offsetOf_le_iff {s : State} {a b : StationKind} {i j : StationNo} (hna : (s.stationsOf a).length ≤ 1)
    (hnb : (s.stationsOf b).length ≤ 1) (ha : (s.station i).kind = a) (hb : (s.station j).kind = b) :
    s.offsetOf b ≤ s.offsetOf a ↔
      ∃ i j, (s.station i).kind = a ∧ (s.station j).kind = b ∧ (s.station j).offset ≤ (s.station i).offset := by
  rw [offsetOf_single hna ha, offsetOf_single hnb hb]
  refine ⟨fun h => ⟨i, j, ha, hb, h⟩, ?_⟩
  rintro ⟨i', j', ha', hb', h⟩
  have hi := offsetOf_single hna ha
  have hj := offsetOf_single hnb hb
  rw [offsetOf_single hna ha'] at hi
  rw [offsetOf_single hnb hb'] at hj
  omega

theorem printAfterVerify_iff {s : State} (hp : s.kindCount .print ≤ 1) (hv : s.kindCount .verify ≤ 1) :
    ((s.firstOf .print).isSome && (s.firstOf .verify).isSome && decide (s.offsetOf .verify ≤ s.offsetOf .print)) = true ↔
      s.configFails 12 := by
  rw [kindCount_eq] at hp hv
  simp only [Bool.and_eq_true, firstOf_isSome, decide_eq_true_eq]
  constructor
  · rintro ⟨⟨⟨i, hi⟩, j, hj⟩, hle⟩
    exact (offsetOf_le_iff hp hv hi hj).mp hle
  · rintro ⟨i, j, hi, hj, hle⟩
    exact ⟨⟨⟨i, hi⟩, j, hj⟩, (offsetOf_le_iff hp hv hi hj).mpr ⟨i, j, hi, hj, hle⟩⟩

theorem stackBeforeGate_iff {s : State} (hg : s.kindCount .gate = 1) (hk : s.kindCount .stack = 1) :
    decide (s.offsetOf .stack ≤ s.offsetOf .gate) = true ↔ s.configFails 5 := by
  rw [kindCount_eq] at hg hk
  obtain ⟨g, hgg⟩ := exists_of_stationsOf hg
  obtain ⟨k, hkk⟩ := exists_of_stationsOf hk
  rw [decide_eq_true_eq]
  exact offsetOf_le_iff (le_of_eq hg) (le_of_eq hk) ((hgg g).mpr rfl) ((hkk k).mpr rfl)

/-- The conditions of the table that come before the n-th hold. -/
def State.PassesBefore (s : State) (n : Nat) : Prop := ∀ m, 1 ≤ m → m < n → ¬ s.configFails m

/-- The n-th check of the list is the n-th reason of the table, where the conditions before it hold. -/
theorem configChecks_judge (s : State) (k : Nat) (hk : k < (configChecks s).length) (hpass : s.PassesBefore (k + 1)) :
    (configChecks s)[k].Judges s (k + 1) := by
  have hk17 : k < 17 := hk
  have one (m : Nat) (h1 : 1 ≤ m) (h2 : m < k + 1) := hpass m h1 h2
  have hgate (h : 3 < k + 1) : s.kindCount .gate = 1 := not_not.mp (one 3 (by omega) h)
  have hstack (h : 4 < k + 1) : s.kindCount .stack = 1 := not_not.mp (one 4 (by omega) h)
  interval_cases k
  · exact countCheck_judges (n := 1) (k := .feed) (f := fun n => decide (n ≠ 1)) decide_eq_true_iff (fun _ => Iff.rfl)
  · exact eachCheck_judges (n := 2) (fun i => by simp [State.breaks]) Iff.rfl
  · exact countCheck_judges (n := 3) (k := .gate) (f := fun n => decide (n ≠ 1)) decide_eq_true_iff (fun _ => Iff.rfl)
  · exact countCheck_judges (n := 4) (k := .stack) (f := fun n => decide (n ≠ 1)) decide_eq_true_iff (fun _ => Iff.rfl)
  · exact orderCheck_judges (n := 5) (stackBeforeGate_iff (hgate (by omega)) (hstack (by omega))) (fun _ => Iff.rfl)
  · exact countCheck_judges (n := 6) (k := .print) (f := fun n => decide (1 < n)) decide_eq_true_iff (fun _ => Iff.rfl)
  · exact countCheck_judges (n := 7) (k := .verify) (f := fun n => decide (1 < n)) decide_eq_true_iff (fun _ => Iff.rfl)
  · exact countCheck_judges (n := 8) (k := .caliper) (f := fun n => decide (2 < n)) decide_eq_true_iff (fun _ => Iff.rfl)
  · exact countCheck_judges (n := 9) (k := .insert) (f := fun n => decide (8 < n)) decide_eq_true_iff (fun _ => Iff.rfl)
  · exact eachCheck_judges (n := 10) (sharesFeeder_iff s) Iff.rfl
  · exact eachCheck_judges (n := 11) (beyondGate_iff (hgate (by omega))) Iff.rfl
  · exact orderCheck_judges (n := 12)
      (printAfterVerify_iff (not_lt.mp (one 6 (by omega) (by omega))) (not_lt.mp (one 7 (by omega) (by omega)))) (fun _ => Iff.rfl)
  · exact eachCheck_judges (n := 13) (fun i => by simp [State.breaks]) Iff.rfl
  · exact eachCheck_judges (n := 14) (fun i => by simp [State.breaks, State.phaseBeyond]) Iff.rfl
  · exact eachCheck_judges (n := 15) (fun i => by simp [State.breaks, State.windowBeyond]) Iff.rfl
  · exact eachCheck_judges (n := 16) (curveBeyond_iff s) Iff.rfl
  · exact ⟨rfl, by
      change ((s.firstOf .print).isSome && !s.pp.synchronised) = true ↔ _
      rw [Bool.and_eq_true, firstOf_isSome, Bool.not_eq_true']; rfl, fun _ => false, by simp [configChecks], fun i => by
      simp [State.breaks]⟩

/-! ## The answer -/

theorem stationNos_split (i : StationNo) :
    stationNos = stationNos.take i.val ++ i :: stationNos.drop (i.val + 1) ∧ ∀ j ∈ stationNos.take i.val, j < i := by
  revert i; decide

theorem head?_filter_lowest {b : StationNo → Bool} {i : StationNo} (hi : b i = true) (hlow : ∀ j < i, ¬ b j = true) :
    (stationNos.filter b).head? = some i := by
  rw [List.head?_filter, List.find?_eq_some_iff_append]
  exact ⟨hi, _, _, (stationNos_split i).1, fun j hj => by simpa using hlow j ((stationNos_split i).2 j hj)⟩

/-- The answer of the first condition that fails. -/
theorem configRefusal_of_fails {s : State} {n : Nat} (h1 : 1 ≤ n) (h17 : n ≤ 17) (hpass : s.PassesBefore n) (hf : s.configFails n) :
    ∃ c : ConfigCheck, c.Judges s n ∧
      configRefusal s = some { status := .config, detail := BitVec.ofNat 8 n, data := [stationOrNone c.stations.head?] } := by
  obtain ⟨k, rfl⟩ : ∃ k, n = k + 1 := ⟨n - 1, by omega⟩
  have hk : k < (configChecks s).length := by change k < 17; omega
  have hj := configChecks_judge s k hk hpass
  have hfind : (configChecks s).find? ConfigCheck.fails = some (configChecks s)[k] := by
    rw [List.find?_eq_some_iff_getElem]
    refine ⟨hj.fails.mpr hf, k, hk, rfl, fun j hjk => ?_⟩
    have := configChecks_judge s j (by omega) (fun m hm1 hm2 => hpass m hm1 (by omega))
    simpa using mt this.fails.mp (hpass (j + 1) (by omega) (by omega))
  exact ⟨_, hj, by rw [configRefusal, hfind, Option.map_some, hj.reason]⟩

theorem configFails_of_refusal_none {s : State} (h : configRefusal s = none) : ∀ n, 1 ≤ n → n ≤ 17 → ¬ s.configFails n := by
  intro n
  induction n using Nat.strong_induction_on with
  | _ n ih =>
    intro h1 h17 hf
    obtain ⟨c, -, hc⟩ := configRefusal_of_fails h1 h17 (fun m hm1 hm2 => ih m hm2 hm1 (by omega)) hf
    rw [h] at hc; cases hc

theorem configRefusal_eq_none {s : State} (h : ∀ n, 1 ≤ n → n ≤ 17 → ¬ s.configFails n) : configRefusal s = none := by
  have hfind : (configChecks s).find? ConfigCheck.fails = none := by
    rw [List.find?_eq_none]
    intro c hc
    obtain ⟨k, hk, rfl⟩ := List.mem_iff_getElem.mp hc
    have hk17 : k < 17 := hk
    have := configChecks_judge s k hk (fun m hm1 hm2 => h m hm1 (by omega))
    exact mt this.fails.mp (h (k + 1) (by omega) (by omega))
  rw [configRefusal, hfind, Option.map_none]

/-- What an accepted configuration has. -/
theorem sound_of_accepted {s : State} (h : configRefusal s = none) :
    (∃ f g k : StationNo, (∀ i, (s.station i).kind = .feed ↔ i = f) ∧ (∀ i, (s.station i).kind = .gate ↔ i = g) ∧
       (∀ i, (s.station i).kind = .stack ↔ i = k) ∧ (s.station f).offset = 0 ∧
       (s.station g).offset < (s.station k).offset ∧
       (∀ i, (s.station i).kind ≠ .none → i ≠ g → i ≠ k → (s.station i).offset < (s.station g).offset)) ∧
     (∀ i, (s.station i).kind ≠ .none →
       (s.station i).phi ≤ s.mu.profile.p - 1 ∧ (s.station i).windowEnd ≤ s.mu.profile.p - 1) ∧
     (∀ i j, (s.station i).kind = .insert → (s.station j).kind = .insert →
       (s.station i).feeder = (s.station j).feeder → i = j) ∧
     ((∃ i, (s.station i).kind = .print) → s.pp.synchronised = true) := by
  have pass := configFails_of_refusal_none h
  have count (k : StationKind) (hk : ¬ s.kindCount k ≠ 1) : ∃ i, ∀ j, (s.station j).kind = k ↔ j = i :=
    exists_of_stationsOf (by rw [← kindCount_eq]; exact not_not.mp hk)
  obtain ⟨f, hf⟩ := count .feed (pass 1 (by decide) (by decide))
  obtain ⟨g, hg⟩ := count .gate (pass 3 (by decide) (by decide))
  obtain ⟨k, hk⟩ := count .stack (pass 4 (by decide) (by decide))
  refine ⟨⟨f, g, k, hf, hg, hk, ?_, ?_, fun i hi hig hik => ?_⟩, fun i hi => ⟨?_, ?_⟩, fun i j hi hj he => ?_, fun hp => ?_⟩
  · by_contra hne
    exact pass 2 (by decide) (by decide) ⟨f, (hf f).mpr rfl, hne⟩
  · by_contra hle
    exact pass 5 (by decide) (by decide) ⟨g, k, (hg g).mpr rfl, (hk k).mpr rfl, not_lt.mp hle⟩
  · by_contra hle
    exact pass 11 (by decide) (by decide)
      ⟨i, fun h => hig ((hg i).mp h), fun h => hik ((hk i).mp h), hi, g, (hg g).mpr rfl, not_lt.mp hle⟩
  · by_contra hle
    exact pass 14 (by decide) (by decide) ⟨i, hi, not_le.mp hle⟩
  · by_contra hle
    exact pass 15 (by decide) (by decide) ⟨i, hi, not_le.mp hle⟩
  · by_contra hne
    exact pass 10 (by decide) (by decide) ⟨i, hi, j, fun h => hne h.symm, hj, he.symm⟩
  · by_contra hsync
    exact pass 17 (by decide) (by decide) ⟨hp, by simpa using hsync⟩

/-- Settles O53: each check of the list is the reason of its place in the table. -/
theorem acceptedConfigurationsAreSound : Obligations.AcceptedConfigurationsAreSound := by
  refine ⟨fun s h => sound_of_accepted h, fun s n h1 h17 hpass hf => ?_, fun s h => configRefusal_eq_none h⟩
  obtain ⟨c, ⟨-, -, b, hst, hb⟩, hanswer⟩ := configRefusal_of_fails h1 h17 hpass hf
  refine ⟨fun i hi hlow => ?_, fun hnone => ?_⟩
  · rw [hanswer, hst, head?_filter_lowest ((hb i).mpr hi) fun j hj h => hlow j hj ((hb j).mp h)]; rfl
  · have : stationNos.filter b = [] := List.filter_eq_nil_iff.mpr fun i _ h => hnone i ((hb i).mp h)
    rw [hanswer, hst, this]; rfl

end Sys2Proof.Machine
end

section
/-! PROOFS. The line commands: HOLD, RESUME, SET_OVERRIDE, RUN_OUT, STOP_NOW and START. -/

namespace Sys2Proof.Machine

/-! ## A record under Steady -/

/-- A record that places at most one record besides its reply and leaves LINK_BACKLOG, under Steady. -/
theorem event_record_steady {p : Pins} {kind : Byte} {payload : List Byte} {s u : State} {a : Answer} (hs : s.Steady)
    (hk : kind ≠ 0x01) (hown : ownFrame kind payload (setPins p s) = (u, a))
    (hup : s.ll.upstream.length ≤ u.ll.upstream.length ∧ u.ll.upstream.length ≤ s.ll.upstream.length + 1)
    (hb : u.lc.holds.linkBacklog = s.lc.holds.linkBacklog) :
    event p (arriveFrame kind payload) s = .next (answered kind payload a u) := by
  obtain ⟨hres, hrec, hlen, hlow, hhigh⟩ := hs
  refine event_record hk hres hrec (by omega) hown ⟨fun h => ?_, fun h => ?_⟩
  · have := hlow (hb ▸ h)
    simp only [place_upstream, List.length_append, List.length_singleton]; omega
  · have := hhigh (hb ▸ h)
    simp only [place_upstream, List.length_append, List.length_singleton]; omega

/-- A record that is answered and places none but its reply, under Steady. -/
theorem event_record_steady_quiet {p : Pins} {kind : Byte} {payload : List Byte} {s u : State} {a : Answer} (hs : s.Steady)
    (hk : kind ≠ 0x01) (hown : ownFrame kind payload (setPins p s) = (u, a)) (hll : u.ll = s.ll)
    (hb : u.lc.holds.linkBacklog = s.lc.holds.linkBacklog) :
    event p (arriveFrame kind payload) s = .next (answered kind payload a u) :=
  event_record_steady hs hk hown (by rw [hll]; exact ⟨le_rfl, Nat.le_succ _⟩) hb

theorem hasRoom_of_steady {s : State} (hs : s.Steady) : s.hasRoom = true := hasRoom_of_short (by have := hs.2.2.1; omega)

theorem getLsbD_setFlag (f : BitVec 11) (n : Nat) (hn : n < 11) : (setFlag f n).getLsbD n = true := by
  simp [setFlag, hn]

theorem raiseNotice_length_le (n : Notice) (s : State) : s.ll.upstream.length ≤ (raiseNotice n s).ll.upstream.length ∧
    (raiseNotice n s).ll.upstream.length ≤ s.ll.upstream.length + 1 := by
  rcases raiseNotice_length n s with h | ⟨h, -⟩ <;> omega

/-! ## Hold causes -/

/-- The Line Link Controller at a joining hold cause: HOLD_ENTERED where RUNNING becomes HOLDING. -/
theorem addHold_ll (c : HoldCause) (s : State) : (addHold c s).ll =
    if s.lc.line = .running ∧ s.lc.holds = HoldSet.empty then (raiseNotice (.holdEntered (s.lc.holds.add c)) s).ll else s.ll := by
  unfold addHold
  simp only [HoldSet.isEmpty_iff, and_comm (a := s.lc.holds = HoldSet.empty)]
  split
  · rw [raiseNotice_ll, raiseNotice_ll]; rfl
  · rfl

/-- The Line Link Controller at the removal of hold causes: HOLD_LEFT where HOLDING becomes RUNNING. -/
theorem reduceHolds_ll (h : HoldSet) (s : State) : (reduceHolds h s).ll =
    if h = HoldSet.empty ∧ s.lc.holds ≠ HoldSet.empty ∧ s.lc.line = .holding then (raiseNotice .holdLeft s).ll else s.ll := by
  unfold reduceHolds
  simp only [HoldSet.isEmpty_iff]
  split
  · rw [raiseNotice_ll, raiseNotice_ll]; rfl
  · rfl

theorem HoldSet.isEmpty_eq_false_iff (h : HoldSet) : h.isEmpty = false ↔ h ≠ HoldSet.empty := by
  rw [ne_eq, ← HoldSet.isEmpty_iff, Bool.not_eq_true]

theorem resumed_eq_empty_iff (h : HoldSet) : h.resumed = HoldSet.empty ↔ h.linkBacklog = false := by
  cases h; simp [HoldSet.resumed, HoldSet.empty]

/-- HOLD in every line state. -/
theorem hold_taken (p : Pins) (ref : Byte) (s : State) (hs : s.Steady) :
     ∃ u, exec (.hold p ref []) s = .next (answered 0x05 [ref, 0x02] (.ok (lineCode u.lc.line) []) u) ∧
       u.lc = { s.lc with
         holds := { s.lc.holds with command := true }
         line := if s.lc.line = .running ∧ s.lc.holds = HoldSet.empty then .holding else s.lc.line } ∧
       (s.lc.line = .running → s.lc.holds = HoldSet.empty → u.ll.flags.getLsbD 1 = true ∧
         (s.ll.mask.getLsbD 1 = true →
           u.ll.upstream = s.ll.upstream ++ [.notice (.holdEntered u.lc.holds) s.mu.pitch])) ∧
       (s.lc.line ≠ .running ∨ s.lc.holds ≠ HoldSet.empty → u.ll = s.ll) ∧
       u.mu = s.mu ∧ u.fu = s.fu ∧ u.au = s.au ∧ u.tu = s.tu ∧ u.cu = s.cu ∧ u.pp = s.pp ∧ u.gm = s.gm ∧ u.bu = s.bu := by
  have hlc := addHold_lc .command (setPins p s)
  have hll := addHold_ll .command (setPins p s)
  have hroom : (setPins p s).hasRoom = true := hasRoom_of_steady hs
  have hlen := raiseNotice_length_le (.holdEntered (s.lc.holds.add .command)) (setPins p s)
  refine ⟨addHold .command (setPins p s), event_record_steady (kind := 0x05) hs (by decide) rfl ?_ (by rw [hlc]; rfl), ?_,
    fun hr he => ?_, fun h => ?_, by simp [setPins], by simp [setPins], by simp [setPins], by simp [setPins], by simp [setPins],
    by simp [setPins], by simp [setPins], by simp [setPins]⟩
  · rw [hll]
    split
    · exact hlen
    · exact ⟨le_rfl, Nat.le_succ _⟩
  · rw [hlc]
    simp only [HoldSet.isEmpty_iff, and_comm (a := (setPins p s).lc.holds = HoldSet.empty)]
    rfl
  · rw [hll, if_pos ⟨hr, he⟩, raiseNotice_ll_room _ hroom, hlc]
    exact ⟨getLsbD_setFlag _ 1 (by decide), fun hm => if_pos hm⟩
  · rw [hll, if_neg (fun hc => h.elim (fun hne => hne hc.1) (fun hne => hne hc.2))]; rfl

/-- RESUME in every line state. -/
theorem resume_taken (p : Pins) (ref : Byte) (s : State) (hs : s.Steady) :
     ∃ u, exec (.resume p ref []) s = .next (answered 0x05 [ref, 0x03] (.ok (lineCode u.lc.line) [holdOctet u.lc.holds]) u) ∧
       u.lc = { s.lc with
         holds := { s.lc.holds with command := false, stationLimit := false, caliperDrift := false }
         line := if s.lc.line = .holding ∧ s.lc.holds ≠ HoldSet.empty ∧ s.lc.holds.linkBacklog = false then .running
           else s.lc.line } ∧
       (s.lc.line = .holding → s.lc.holds ≠ HoldSet.empty → s.lc.holds.linkBacklog = false → u.ll.flags.getLsbD 2 = true ∧
         (s.ll.mask.getLsbD 2 = true → u.ll.upstream = s.ll.upstream ++ [.notice .holdLeft s.mu.pitch])) ∧
       (s.lc.line ≠ .holding ∨ s.lc.holds = HoldSet.empty ∨ s.lc.holds.linkBacklog = true → u.ll = s.ll) ∧
       u.mu = s.mu ∧ u.fu = s.fu ∧ u.au = s.au ∧ u.tu = s.tu ∧ u.cu = s.cu ∧ u.pp = s.pp ∧ u.gm = s.gm ∧ u.bu = s.bu := by
  have hlc := reduceHolds_lc s.lc.holds.resumed (setPins p s)
  have hll := reduceHolds_ll s.lc.holds.resumed (setPins p s)
  simp only [resumed_eq_empty_iff] at hll
  have hroom : (setPins p s).hasRoom = true := hasRoom_of_steady hs
  have hlen := raiseNotice_length_le .holdLeft (setPins p s)
  have hown : ownFrame 0x05 [ref, 0x03] (setPins p s) = (reduceHolds s.lc.holds.resumed (setPins p s),
      .ok (lineCode (reduceHolds s.lc.holds.resumed (setPins p s)).lc.line)
        [holdOctet (reduceHolds s.lc.holds.resumed (setPins p s)).lc.holds]) := by
    have hholds : (reduceHolds s.lc.holds.resumed (setPins p s)).lc.holds = s.lc.holds.resumed := by rw [hlc]
    rw [hholds]; rfl
  refine ⟨reduceHolds s.lc.holds.resumed (setPins p s), event_record_steady (kind := 0x05) hs (by decide) hown ?_ (by rw [hlc]; rfl),
    ?_, fun hl he hb => ?_, fun h => ?_, by simp [setPins], by simp [setPins], by simp [setPins], by simp [setPins],
    by simp [setPins], by simp [setPins], by simp [setPins], by simp [setPins]⟩
  · rw [hll]
    split
    · exact hlen
    · exact ⟨le_rfl, Nat.le_succ _⟩
  · have hcond : (s.lc.holds.resumed.isEmpty = true ∧ s.lc.holds.isEmpty = false ∧ s.lc.line = .holding) ↔
        (s.lc.line = .holding ∧ s.lc.holds ≠ HoldSet.empty ∧ s.lc.holds.linkBacklog = false) := by
      rw [HoldSet.isEmpty_iff, resumed_eq_empty_iff, HoldSet.isEmpty_eq_false_iff]
      tauto
    rw [hlc]
    simp only [setPins, hcond]
    rfl
  · rw [hll, if_pos ⟨hb, he, hl⟩, raiseNotice_ll_room _ hroom]
    exact ⟨getLsbD_setFlag _ 2 (by decide), fun hm => if_pos hm⟩
  · rw [hll, if_neg]
    · rfl
    · rintro ⟨hb, he, hl⟩
      rcases h with h | h | h
      · exact h hl
      · exact he h
      · exact absurd (hb.symm.trans h) Bool.false_ne_true

theorem lineSetOverride_good (ref : Byte) (d a : Bool) (s : State) : ownLineCommand [ref, 0x07, boolOctet d, boolOctet a] s =
    (setOverrides d a s, .ok (lineCode s.lc.line) []) := by
  cases d <;> cases a <;> rfl

theorem lineSetOverride_bad (ref x y : Byte) (s : State) (h : 1 < x.toNat ∨ 1 < y.toNat) :
    ownLineCommand [ref, 0x07, x, y] s = (s, .refusal .range (if 1 < x.toNat then 2 else 3)) := by
  change lineSetOverride [ref, 0x07, x, y] s = _
  have hchecks : rangeAnswer [(2, decide (octetAt [ref, 0x07, x, y] 2 ≤ 1)), (3, decide (octetAt [ref, 0x07, x, y] 3 ≤ 1))] =
      some (.refusal .range (if 1 < x.toNat then 2 else 3)) := by
    change (firstFailing [(2, decide (x.toNat ≤ 1)), (3, decide (y.toNat ≤ 1))]).map _ = _
    by_cases hx : 1 < x.toNat
    · have : ¬ x.toNat ≤ 1 := by omega
      simp [firstFailing, this, hx]
    · have hx' : x.toNat ≤ 1 := by omega
      have hy : ¬ y.toNat ≤ 1 := by omega
      simp [firstFailing, hx', hy, hx]
  rw [lineSetOverride, hchecks]

/-- Settles O50. -/
theorem commandsTakenInEveryLineState : Obligations.CommandsTakenInEveryLineState := by
  refine ⟨hold_taken, resume_taken, fun p ref s hs => ⟨fun d a => ?_, fun x y h => ?_⟩⟩
  · exact event_record_steady_quiet (kind := 0x05) hs (by decide) (lineSetOverride_good ref d a _) rfl rfl
  · exact event_record_steady_quiet (kind := 0x05) hs (by decide) (lineSetOverride_bad ref x y _ h) rfl rfl

end Sys2Proof.Machine
end

section
/-! PROOFS. The line commands that leave and enter the firing states: RUN_OUT, STOP_NOW and START. -/

namespace Sys2Proof.Machine

/-! ## Leaving the firing states (R32, R85) -/

/-- A CALIPER station measures. -/
abbrev State.measuring (s : State) (i : StationNo) : Prop := (s.station i).kind = .caliper ∧ (s.checkWork i).measure = .measuring

theorem mapContext_suspect_twice (c : Content) :
    (c.mapContext (Context.mark .suspect)).mapContext (Context.mark .suspect) = c.mapContext (Context.mark .suspect) := by
  cases c <;> rfl

theorem abandonMeasurement_checkWork_self {s : State} {i : StationNo} (h : s.measuring i) :
    (abandonMeasurement i s).checkWork i = { s.checkWork i with measure := .notTaken } := by
  rw [abandonMeasurement, if_pos h]
  exact checkWork_setCheckWork i _ s

theorem abandonMeasurement_checkWork_other {s : State} {i j : StationNo} (h : j ≠ i ∨ ¬ s.measuring i) :
    (abandonMeasurement i s).checkWork j = s.checkWork j := by
  unfold abandonMeasurement
  split
  · exact checkWork_setCheckWork_other i j _ s (h.resolve_right (not_not.mpr ‹_›))
  · rfl

theorem abandonMeasurement_contentAt (s : State) (i : StationNo) (pos : Nat) :
    (s.measuring i → (s.station i).offset = pos →
      (abandonMeasurement i s).contentAt pos = (s.contentAt pos).mapContext (Context.mark .suspect)) ∧
    (¬ s.measuring i ∨ (s.station i).offset ≠ pos → (abandonMeasurement i s).contentAt pos = s.contentAt pos) := by
  unfold abandonMeasurement
  split
  · rename_i hm
    refine ⟨fun _ hpos => ?_, fun h => ?_⟩
    · subst hpos; exact contentAt_modifyContext_self _ _ _
    · exact contentAt_modifyContext_other _ _ _ _ (h.resolve_left (not_not.mpr hm)).symm
  · rename_i hm
    exact ⟨fun h => absurd h hm, fun _ => rfl⟩

/-- The measurements of a list of stations abandoned. -/
theorem abandonAll_spec (l : List StationNo) (hl : l.Nodup) (s : State) :
    (∀ i, (i ∈ l → s.measuring i →
        (l.foldl (fun s i => abandonMeasurement i s) s).checkWork i = { s.checkWork i with measure := .notTaken }) ∧
      (i ∉ l ∨ ¬ s.measuring i → (l.foldl (fun s i => abandonMeasurement i s) s).checkWork i = s.checkWork i)) ∧
    (∀ pos, ((∃ i ∈ l, s.measuring i ∧ (s.station i).offset = pos) →
        (l.foldl (fun s i => abandonMeasurement i s) s).contentAt pos =
          (s.contentAt pos).mapContext (Context.mark .suspect)) ∧
      ((∀ i ∈ l, s.measuring i → (s.station i).offset ≠ pos) →
        (l.foldl (fun s i => abandonMeasurement i s) s).contentAt pos = s.contentAt pos)) := by
  induction l generalizing s with
  | nil =>
    refine ⟨fun i => ⟨fun h => (by cases h), fun _ => rfl⟩, fun pos => ⟨?_, fun _ => rfl⟩⟩
    rintro ⟨i, hi, -⟩; cases hi
  | cons a l ih =>
    obtain ⟨ha, hl⟩ := List.nodup_cons.mp hl
    obtain ⟨ihwork, ihpos⟩ := ih hl (abandonMeasurement a s)
    have hstation (i : StationNo) : (abandonMeasurement a s).station i = s.station i := by
      simp only [State.station, abandonMeasurement_fu]
    have hmeasuring (i : StationNo) (hi : i ≠ a) : (abandonMeasurement a s).measuring i ↔ s.measuring i := by
      rw [State.measuring, State.measuring, hstation, abandonMeasurement_checkWork_other (.inl hi)]
    have hne (i : StationNo) (hi : i ∈ l) : i ≠ a := fun h => ha (h ▸ hi)
    obtain ⟨hhit, hmiss⟩ : _ ∧ _ := ⟨fun pos => (abandonMeasurement_contentAt s a pos).1,
      fun pos => (abandonMeasurement_contentAt s a pos).2⟩
    rw [List.foldl_cons]
    refine ⟨fun i => ⟨fun hi hm => ?_, fun h => ?_⟩, fun pos => ⟨?_, fun h => ?_⟩⟩
    · rcases List.mem_cons.mp hi with rfl | hi
      · rw [(ihwork i).2 (.inl ha), abandonMeasurement_checkWork_self hm]
      · rw [(ihwork i).1 hi ((hmeasuring i (hne i hi)).mpr hm), abandonMeasurement_checkWork_other (.inl (hne i hi))]
    · by_cases hia : i = a
      · subst hia
        have hm := h.resolve_left (not_not.mpr (List.mem_cons_self ..))
        rw [(ihwork i).2 (.inl ha), abandonMeasurement_checkWork_other (.inr hm)]
      · rw [(ihwork i).2 (h.imp (fun h hi => h (List.mem_cons_of_mem _ hi)) (mt (hmeasuring i hia).mp)),
          abandonMeasurement_checkWork_other (.inl hia)]
    · rintro ⟨i, hi, hm, hpos⟩
      by_cases hrest : ∃ j ∈ l, s.measuring j ∧ (s.station j).offset = pos
      · have hrest' : ∃ j ∈ l, (abandonMeasurement a s).measuring j ∧ ((abandonMeasurement a s).station j).offset = pos := by
          obtain ⟨j, hj, hmj, hpj⟩ := hrest
          exact ⟨j, hj, (hmeasuring j (hne j hj)).mpr hmj, by rw [hstation]; exact hpj⟩
        rw [(ihpos pos).1 hrest']
        by_cases hat : s.measuring a ∧ (s.station a).offset = pos
        · rw [hhit pos hat.1 hat.2, mapContext_suspect_twice]
        · rw [hmiss pos (not_and_or.mp hat)]
      · have hia : i = a := by
          rcases List.mem_cons.mp hi with h | h
          · exact h
          · exact absurd ⟨i, h, hm, hpos⟩ hrest
        subst hia
        rw [(ihpos pos).2 fun j hj hmj hpj => hrest ⟨j, hj, (hmeasuring j (hne j hj)).mp hmj, hstation j ▸ hpj⟩, hhit pos hm hpos]
    · rw [(ihpos pos).2 fun j hj hmj => by
        rw [hstation]; exact h j (List.mem_cons_of_mem _ hj) ((hmeasuring j (hne j hj)).mp hmj)]
      refine hmiss pos ?_
      by_cases hm : s.measuring a
      · exact .inr (h a (List.mem_cons_self ..) hm)
      · exact .inl hm

/-- What leaving the firing states does to the measurements in progress and to the track. -/
theorem stopLine_abandons (l : LineState) {s : State} (hf : s.firing = true) :
    (∀ i, (s.measuring i → (stopLine l s).checkWork i = { s.checkWork i with measure := .notTaken }) ∧
      (¬ s.measuring i → (stopLine l s).checkWork i = s.checkWork i)) ∧
    (∀ pos, ((∃ i, s.measuring i ∧ (s.station i).offset = pos) →
        (stopLine l s).contentAt pos = (s.contentAt pos).mapContext (Context.mark .suspect)) ∧
      ((∀ i, s.measuring i → (s.station i).offset ≠ pos) → (stopLine l s).contentAt pos = s.contentAt pos)) := by
  obtain ⟨hwork, hpos⟩ := abandonAll_spec stationNos (by decide) (endPulses (setLine l s))
  have hwork' (i : StationNo) : (stopLine l s).checkWork i =
      (stationNos.foldl (fun s i => abandonMeasurement i s) (endPulses (setLine l s))).checkWork i := by
    simp only [stopLine, if_pos hf, leaveFiring, forStations, State.checkWork]
  have hpos' (pos : Nat) : (stopLine l s).contentAt pos =
      (stationNos.foldl (fun s i => abandonMeasurement i s) (endPulses (setLine l s))).contentAt pos := by
    simp only [stopLine, if_pos hf, leaveFiring, forStations, State.contentAt]
  have hsame (i : StationNo) : (endPulses (setLine l s)).measuring i ↔ s.measuring i := Iff.rfl
  have hstation (i : StationNo) : (endPulses (setLine l s)).station i = s.station i := rfl
  have hcheck (i : StationNo) : (endPulses (setLine l s)).checkWork i = s.checkWork i := by simp [State.checkWork]
  have hcontent (pos : Nat) : (endPulses (setLine l s)).contentAt pos = s.contentAt pos := by simp [State.contentAt]
  refine ⟨fun i => ⟨fun hm => ?_, fun hm => ?_⟩, fun pos => ⟨?_, fun h => ?_⟩⟩
  · rw [hwork', (hwork i).1 (mem_stationNos i) ((hsame i).mpr hm), hcheck]
  · rw [hwork', (hwork i).2 (.inr (mt (hsame i).mp hm)), hcheck]
  · rintro ⟨i, hm, ho⟩
    rw [hpos', (hpos pos).1 ⟨i, mem_stationNos i, (hsame i).mpr hm, by rw [hstation]; exact ho⟩, hcontent]
  · have hmiss : ∀ i ∈ stationNos, (endPulses (setLine l s)).measuring i → ((endPulses (setLine l s)).station i).offset ≠ pos := by
      intro i _ hm
      rw [hstation]; exact h i ((hsame i).mp hm)
    rw [hpos', (hpos pos).2 hmiss, hcontent]

theorem stopLine_trackLen (l : LineState) (s : State) : (stopLine l s).trackLen = s.trackLen := by
  have := congrArg List.length (stopLine_cores (s := s) l)
  simpa [State.trackLen] using this

theorem stopLine_outputs (l : LineState) {s : State} (hf : s.firing = true) :
    (∀ i, ((stopLine l s).fireWork i).pulse = false) ∧ (stopLine l s).fu.bundleKick = false ∧
    (stopLine l s).fu.trayKick = false ∧ (stopLine l s).mu = { s.mu with sim := .stopped } := by
  rw [stopLine, if_pos hf]
  exact leaveFiring_outputs (setLine l s)

theorem occupied_mapContext (f : Context → Context) (c : Content) : (c.mapContext f).occupied = c.occupied := by
  cases c <;> rfl

theorem stopLine_occupied (l : LineState) (s : State) (pos : Nat) :
    ((stopLine l s).contentAt pos).occupied = (s.contentAt pos).occupied := by
  by_cases hf : s.firing = true
  · obtain ⟨-, hpos⟩ := stopLine_abandons l hf
    by_cases h : ∃ i, s.measuring i ∧ (s.station i).offset = pos
    · rw [(hpos pos).1 h, occupied_mapContext]
    · rw [(hpos pos).2 fun i hm ho => h ⟨i, hm, ho⟩]
  · rw [stopLine, if_neg hf]; rfl

/-! ## RUN_OUT and STOP_NOW -/

theorem firing_of_running {s : State} (h : s.lc.line = .running ∨ s.lc.line = .holding) : s.firing = true := by
  rcases h with h | h <;> simp [State.firing, h, LineState.firing]

/-- RUN_OUT in every line state. -/
theorem runOut_taken (p : Pins) (ref : Byte) (s : State) (hs : s.Steady) :
     (s.lc.line = .running ∨ s.lc.line = .holding → s.trackOccupied = true → exec (.runOut p ref []) s =
       .next (answered 0x05 [ref, 0x04] (.ok 0x03 []) { s with pins := p, lc := { s.lc with line := .runOut } })) ∧
     (s.lc.line = .running ∨ s.lc.line = .holding → s.trackOccupied = false →
       ∃ u, exec (.runOut p ref []) s = .next (answered 0x05 [ref, 0x04] (.ok 0x00 []) u) ∧
         u.lc = { s.lc with line := .stopped } ∧ (∀ i, (u.fireWork i).pulse = false) ∧ u.mu.sim = .stopped ∧ u.ll = s.ll) ∧
     (¬ (s.lc.line = .running ∨ s.lc.line = .holding) → exec (.runOut p ref []) s =
       .next (answered 0x05 [ref, 0x04] (.refusal .state 0x02) { s with pins := p })) := by
  refine ⟨fun hl ho => ?_, fun hl ho => ?_, fun hl => ?_⟩
  · refine event_record_steady_quiet (kind := 0x05) hs (by decide) ?_ rfl rfl
    exact (if_pos hl).trans (if_pos ho)
  · have hlc := stopLine_lc .stopped (setPins p s)
    have hown : ownFrame 0x05 [ref, 0x04] (setPins p s) = (stopLine .stopped (setPins p s), .ok 0x00 []) := by
      refine (if_pos hl).trans ((if_neg (by rw [Bool.not_eq_true]; exact ho)).trans ?_)
      rw [lineOk, hlc]; rfl
    obtain ⟨hpulse, -, -, hmu⟩ := stopLine_outputs .stopped (s := setPins p s) (firing_of_running hl)
    exact ⟨_, event_record_steady_quiet (kind := 0x05) hs (by decide) hown (by simp [setPins]) (by rw [hlc]; rfl), hlc, hpulse,
      by rw [hmu], by simp [setPins]⟩
  · exact event_record_steady_quiet (kind := 0x05) hs (by decide) (if_neg hl) rfl rfl

/-- STOP_NOW in every line state. -/
theorem stopNow_taken (p : Pins) (ref : Byte) (s : State) (hs : s.Steady) :
     (s.firing = true →
       ∃ u, exec (.stopNow p ref []) s = .next (answered 0x05 [ref, 0x05] (.ok 0x00 []) u) ∧
         u.lc = { s.lc with line := .stopped } ∧ (∀ i, (u.fireWork i).pulse = false) ∧ u.fu.bundleKick = false ∧
         u.fu.trayKick = false ∧ u.mu = { s.mu with sim := .stopped } ∧
         (∀ i, (s.station i).kind = .caliper → (s.checkWork i).measure = .measuring → (u.checkWork i).measure = .notTaken ∧
           ∀ c, s.contentAt (s.station i).offset = .copy c →
             u.contentAt (s.station i).offset = .copy { c with marks := c.marks.add .suspect }) ∧
         (∀ i, (s.station i).kind ≠ .caliper ∨ (s.checkWork i).measure ≠ .measuring → u.checkWork i = s.checkWork i) ∧
         (∀ pos, (∀ i, (s.station i).kind = .caliper → (s.checkWork i).measure = .measuring → (s.station i).offset ≠ pos) →
           u.contentAt pos = s.contentAt pos) ∧
         u.trackLen = s.trackLen ∧ (∀ pos, (u.contentAt pos).occupied = (s.contentAt pos).occupied) ∧
         u.au = s.au ∧ u.pp = s.pp ∧ u.gm = s.gm ∧ u.bu = s.bu ∧ u.ll = s.ll) ∧
     (s.firing = false → exec (.stopNow p ref []) s =
       .next (answered 0x05 [ref, 0x05] (.refusal .state 0x02) { s with pins := p })) := by
  refine ⟨fun hf => ?_, fun hf => ?_⟩
  · have hlc := stopLine_lc .stopped (setPins p s)
    have hown : ownFrame 0x05 [ref, 0x05] (setPins p s) = (stopLine .stopped (setPins p s), .ok 0x00 []) := by
      refine (if_pos hf).trans ?_
      rw [lineOk, hlc]; rfl
    obtain ⟨hpulse, hkick, htray, hmu⟩ := stopLine_outputs .stopped (s := setPins p s) hf
    obtain ⟨hwork, hpos⟩ := stopLine_abandons .stopped (s := setPins p s) hf
    refine ⟨_, event_record_steady_quiet (kind := 0x05) hs (by decide) hown (by simp [setPins]) (by rw [hlc]; rfl), hlc, hpulse,
      hkick, htray, hmu, fun i hk hm => ⟨by rw [(hwork i).1 ⟨hk, hm⟩], fun c hc => ?_⟩, fun i h => (hwork i).2 fun hm => ?_,
      fun pos h => (hpos pos).2 fun i hm => h i hm.1 hm.2, stopLine_trackLen _ _, stopLine_occupied _ _,
      by simp [setPins], by simp [setPins], by simp [setPins], by simp [setPins], by simp [setPins]⟩
    · exact ((hpos _).1 ⟨i, ⟨hk, hm⟩, rfl⟩).trans (congrArg (Content.mapContext _) hc)
    · exact h.elim (fun hk => hk hm.1) (fun hn => hn hm.2)
  · exact event_record_steady_quiet (kind := 0x05) hs (by decide) (if_neg (by rw [Bool.not_eq_true]; exact hf)) rfl rfl

/-- Settles O51. -/
theorem commandsThatEndFiring : Obligations.CommandsThatEndFiring := ⟨runOut_taken, stopNow_taken⟩

/-! ## START -/

theorem contentAt_unoccupied {s : State} (h : s.trackOccupied = false) (pos : Nat) : s.contentAt pos = .empty := by
  by_contra hne
  have hpos := lt_trackLen_of_occupied s pos hne
  have hmem : s.tu.track[pos] ∈ s.tu.track := List.getElem_mem hpos
  have hat : s.contentAt pos = s.tu.track[pos] := by
    simp [State.contentAt, List.getElem?_eq_getElem hpos]
  have hall : s.tu.track[pos].occupied = false := by
    simpa using (List.any_eq_false.mp h) _ hmem
  rw [hat] at hne
  revert hne hall
  cases s.tu.track[pos] <;> simp [Content.occupied]

theorem contentAt_latchTrack (s : State) (pos : Nat) : (latchTrack s).contentAt pos = s.contentAt pos := by
  unfold latchTrack State.contentAt
  dsimp only
  split
  · rfl
  · rename_i h
    have := contentAt_unoccupied (by simpa using h) pos
    rw [State.contentAt] at this
    rw [this, List.getD_eq_getElem?_getD, List.getElem?_replicate]
    split <;> rfl

theorem latchTrack_trackLen {s : State} (h : s.geometryFits = true) : (latchTrack s).trackLen = s.offsetOf .stack + 1 := by
  unfold latchTrack State.trackLen
  unfold State.geometryFits at h
  dsimp only
  split at h
  · rename_i ho
    rw [if_pos ho]
    simp only [Bool.and_eq_true, decide_eq_true_eq] at h
    exact h.1.symm
  · rename_i ho
    rw [if_neg ho, List.length_replicate]

theorem enterLine_lc (s : State) : (enterLine s).lc = { s.lc with
    line := if s.lc.holds = HoldSet.empty then .running else .holding } := by
  unfold enterLine
  simp only [HoldSet.isEmpty_iff]
  split <;> simp [setLine]

theorem enterLine_ll (s : State) : (enterLine s).ll =
    if s.lc.holds = HoldSet.empty then s.ll else (raiseNotice (.holdEntered s.lc.holds) s).ll := by
  unfold enterLine
  simp only [HoldSet.isEmpty_iff]
  split
  · rfl
  · rw [raiseNotice_ll, raiseNotice_ll]; rfl

theorem acceptStart_lc (s : State) : (acceptStart s).lc = { s.lc with
    line := if s.lc.holds = HoldSet.empty then .running else .holding, displaced := false } := by
  have h : (acceptStart s).lc = { (enterLine (latchTrack s)).lc with displaced := false } := by
    simp [acceptStart, clearDisplaced]
  rw [h, enterLine_lc]; rfl

theorem acceptStart_ll (s : State) : (acceptStart s).ll =
    if s.lc.holds = HoldSet.empty then s.ll else (raiseNotice (.holdEntered s.lc.holds) s).ll := by
  have h : (acceptStart s).ll = (enterLine (latchTrack s)).ll := by simp [acceptStart]
  rw [h, enterLine_ll, raiseNotice_ll, raiseNotice_ll]; rfl

theorem acceptStart_source (s : State) : (acceptStart s).mu = { s.mu with
    sim := if s.mu.profile.source = .simulated then .generating s.mu.profile.rate 0 else s.mu.sim } := by
  have h : (acceptStart s).mu = (startSource (enterLine (latchTrack s))).mu := rfl
  have hm : (enterLine (latchTrack s)).mu = s.mu := by simp
  rw [h, startSource, hm]
  split
  · dsimp only
  · exact hm

/-- Settles O52: START by the line state, the configuration and the geometry. -/
theorem startLeavesStopped : Obligations.StartLeavesStopped := by
  intro p ref s hs
  have hroom : (setPins p s).hasRoom = true := hasRoom_of_steady hs
  have hown (hl : s.lc.line = .stopped) : ownFrame 0x05 [ref, 0x01] (setPins p s) =
      match configRefusal (setPins p s) with
      | some a => (setPins p s, a)
      | none => if (setPins p s).geometryFits then lineOk [boolOctet s.lc.displaced] (acceptStart (setPins p s))
          else stateRefusal 0x04 (setPins p s) := if_neg (not_not.mpr hl)
  refine ⟨fun hl hc hg => ?_, fun hl a ha => ?_, fun hl hc hg => ?_, fun hl => ?_⟩
  · have hc' : configRefusal (setPins p s) = none := hc
    have hg' : (setPins p s).geometryFits = true := hg
    have hlc := acceptStart_lc (setPins p s)
    have hll := acceptStart_ll (setPins p s)
    have htu := acceptStart_tu (setPins p s)
    have haccept := hown hl
    rw [hc', hg'] at haccept
    refine ⟨acceptStart (setPins p s), event_record_steady (kind := 0x05) hs (by decide) haccept ?_ (by rw [hlc]; rfl), hlc,
      fun he => ?_, fun he => ?_, by rw [htu]; rfl, ?_, fun pos => ?_, acceptStart_source _, by simp [setPins], by simp [setPins],
      by simp [setPins], by simp [setPins], by simp [setPins], by simp [setPins]⟩
    · rw [hll]
      split
      · exact ⟨le_rfl, Nat.le_succ _⟩
      · exact raiseNotice_length_le _ (setPins p s)
    · rw [hll, if_pos (show (setPins p s).lc.holds = HoldSet.empty from he)]; rfl
    · rw [hll, if_neg (show ¬ (setPins p s).lc.holds = HoldSet.empty from he), raiseNotice_ll_room _ hroom]
      exact ⟨getLsbD_setFlag _ 1 (by decide), fun hm => if_pos hm⟩
    · rw [State.trackLen, htu]; exact latchTrack_trackLen hg'
    · rw [contentAt_acceptStart, contentAt_latchTrack]; rfl
  · have ha' : configRefusal (setPins p s) = some a := ha
    have := hown hl
    rw [ha'] at this
    exact event_record_steady_quiet (kind := 0x05) hs (by decide) this rfl rfl
  · have hc' : configRefusal (setPins p s) = none := hc
    have hg' : (setPins p s).geometryFits = false := hg
    have := hown hl
    rw [hc', hg'] at this
    exact event_record_steady_quiet (kind := 0x05) hs (by decide) this rfl rfl
  · exact event_record_steady_quiet (kind := 0x05) hs (by decide) (if_pos hl) rfl rfl

end Sys2Proof.Machine
end

section
/-! PROOFS. Faults: CLEAR_FAULT, ESTOP, an illegal transition, and RUN_RESET. -/

namespace Sys2Proof.Machine

/-! ## CLEAR_FAULT (R165) -/

theorem contentAt_suspectAll (s : State) (pos : Nat) :
    (suspectAll s).contentAt pos = (s.contentAt pos).mapContext (Context.mark .suspect) := by
  simp only [suspectAll, State.contentAt, List.getD_eq_getElem?_getD, List.getElem?_map]
  cases s.tu.track[pos]? <;> rfl

theorem mapContext_of_not_isCopy (f : Context → Context) {c : Content} (h : c.isCopy = false) : c.mapContext f = c := by
  cases c with
  | copy => cases h
  | _ => rfl

/-- Settles O54: CLEAR_FAULT by the line state, ESTOP and the jam inputs. -/
theorem clearFaultEndsTheEpisode : Obligations.ClearFaultEndsTheEpisode := by
  intro p ref s hs
  refine ⟨fun hl he hj => ?_, fun hl => ?_, fun hl he => ?_, fun hl he hj => ?_⟩
  · have hown : ownFrame 0x05 [ref, 0x06] (setPins p s) = (endEpisode (suspectAll (setPins p s)),
        .ok 0x00 [faultOctet s.lc.faults, BitVec.ofNat 8 s.lc.further]) :=
      (if_neg (not_not.mpr hl)).trans ((if_neg (by simpa [setPins] using he)).trans (if_neg (by simpa using hj)))
    refine ⟨_, event_record_calm hs (by decide) hown (Nat.le_add_right _ _) hs.2.2.2, rfl, ?_, fun pos c hc => ?_, fun pos hc => ?_,
      rfl, rfl, rfl, rfl, rfl, rfl, rfl, rfl⟩
    · exact List.length_map ..
    · exact (contentAt_suspectAll (setPins p s) pos).trans (congrArg (Content.mapContext _) hc)
    · exact (contentAt_suspectAll (setPins p s) pos).trans (mapContext_of_not_isCopy _ hc)
  · exact event_record_same hs (by decide) (if_pos hl)
  · exact event_record_same hs (by decide) ((if_neg (not_not.mpr hl)).trans (if_pos he))
  · exact event_record_same hs (by decide) ((if_neg (not_not.mpr hl)).trans ((if_neg (by simpa [setPins] using he)).trans (if_pos hj)))

/-! ## Stop-class faults (R162, R163) -/

theorem raiseNotice_ll_congr (n : Notice) {s t : State} (hll : t.ll = s.ll) (hau : t.au = s.au) (hp : t.mu.pitch = s.mu.pitch) :
    (raiseNotice n t).ll = (raiseNotice n s).ll := by
  have hroom : t.hasRoom = s.hasRoom := by unfold State.hasRoom State.stagingFill; rw [hll, hau]
  rw [raiseNotice_ll, raiseNotice_ll, hll, hroom, hp]

theorem stopLine_pitch (l : LineState) (s : State) : (stopLine l s).mu.pitch = s.mu.pitch :=
  congrArg MotionTiming.pitch (stopLine_timing l s)

/-- The FAULT notice of a stop-class fault. -/
theorem stopFault_ll (c : FaultCause) (st : Option StationNo) (s : State) : (stopFault c st s).ll =
    (raiseNotice (.fault c st (st.bind (fun i => s.seqAt (s.station i).offset))
      (if s.lc.line = .faulted then bump255 s.lc.further else 0)) s).ll := by
  unfold stopFault
  split
  · exact raiseNotice_ll_congr _ rfl rfl rfl
  · unfold beginEpisode
    exact raiseNotice_ll_congr _ (by simp) (by simp) (stopLine_pitch _ s)

theorem stopFault_lc (c : FaultCause) (st : Option StationNo) (s : State) :
    (s.lc.line ≠ .faulted → (stopFault c st s).lc = { s.lc with
      line := .faulted, faults := FaultSet.empty.add c, further := 0, armed := false
      locator := if s.lc.armed = true then
        some { cause := c, station := st, pitch := s.mu.pitch, seq := st.bind (fun i => s.seqAt (s.station i).offset) }
        else s.lc.locator }) ∧
    (s.lc.line = .faulted → (stopFault c st s).lc = { s.lc with
      faults := s.lc.faults.add c, further := bump255 s.lc.further }) := by
  unfold stopFault
  refine ⟨fun h => ?_, fun h => ?_⟩
  · rw [if_neg h, beginEpisode_lc]
  · rw [if_pos h, furtherFault_lc]

theorem stopFault_trackLen (c : FaultCause) (st : Option StationNo) (s : State) : (stopFault c st s).trackLen = s.trackLen := by
  have := congrArg List.length (stopFault_cores c st s)
  simpa [State.trackLen] using this

theorem stopFault_tu_faulted (c : FaultCause) (st : Option StationNo) {s : State} (h : s.lc.line = .faulted) :
    (stopFault c st s).tu = s.tu ∧ (stopFault c st s).mu = s.mu ∧ (stopFault c st s).fu = s.fu := by
  unfold stopFault
  rw [if_pos h]
  simp [furtherFault]

theorem stopFault_line (c : FaultCause) (st : Option StationNo) (s : State) : (stopFault c st s).lc.line = .faulted := by
  by_cases h : s.lc.line = .faulted
  · rw [(stopFault_lc c st s).2 h]; exact h
  · rw [(stopFault_lc c st s).1 h]

theorem stopFault_sim (c : FaultCause) (st : Option StationNo) {s : State} (h : s.firing = true) :
    (stopFault c st s).mu = { s.mu with sim := .stopped } := by
  have hl : s.lc.line ≠ .faulted := fun hl => by simp [State.firing, hl, LineState.firing] at h
  rw [stopFault, if_neg hl, beginEpisode]
  simp [(stopLine_outputs .faulted h).2.2.2]

theorem unreported_of_placed {s u : State} (hs : s.Calm) (hlen : u.ll.upstream.length ≤ s.ll.upstream.length + 62)
    (hb : u.lc.holds = s.lc.holds) : u.Unreported := by
  obtain ⟨-, -, hshort, hback⟩ := hs
  exact unreported_of_short (by omega) (by rw [hb]; exact hback)

/-- Settles O56: the fault itself, at the end of a quiet event. -/
theorem estopFaultsTheLine : Obligations.EstopFaultsTheLine := by
  intro p s hs
  have hroom : (setPins (estopPins p) s).hasRoom = true := hasRoom_of_short (s := s) (by have := hs.2.2.1; omega)
  have hll := stopFault_ll .estop none (setPins (estopPins p) s)
  have hlc := stopFault_lc .estop none (setPins (estopPins p) s)
  have hholds : (estopFault (setPins (estopPins p) s)).lc.holds = s.lc.holds := by
    by_cases h : s.lc.line = .faulted
    · exact (congrArg LineControl.holds (hlc.2 h)).trans rfl
    · exact (congrArg LineControl.holds (hlc.1 h)).trans rfl
  have hlen := raiseNotice_length_le (.fault .estop none ((none : Option StationNo).bind
    (fun i => (setPins (estopPins p) s).seqAt ((setPins (estopPins p) s).station i).offset))
    (if (setPins (estopPins p) s).lc.line = .faulted then bump255 (setPins (estopPins p) s).lc.further else 0))
    (setPins (estopPins p) s)
  have hrec : (estopFault (setPins (estopPins p) s)).ll.receive = s.ll.receive := by
    rw [estopFault, hll, raiseNotice_ll]; rfl
  have hun : (estopFault (setPins (estopPins p) s)).Unreported := by
    refine unreported_of_placed hs ?_ hholds
    rw [estopFault, hll]
    exact le_trans hlen.2 (Nat.add_le_add_left (by decide) _)
  refine ⟨_, event_unreported (work := estopFault) hs.1 rfl (by rw [hrec]; exact hs.2.1) hun, by simp [estopFault, setPins, estopPins],
    ?_, fun hl => ⟨?_, fun hf => ?_, fun hm => ?_⟩, fun hl => ⟨?_, ?_, ?_, ?_⟩, by simp [estopFault], by simp [estopFault],
    by simp [estopFault], by simp [estopFault], ?_⟩
  · rw [beginSending_ll, estopFault, hll, raiseNotice_ll_room _ hroom]
    exact getLsbD_setFlag _ 0 (by decide)
  · rw [beginSending_lc]; exact hlc.1 hl
  · have hfu := stopFault_fu .estop none (setPins (estopPins p) s)
    rw [if_pos (show (setPins (estopPins p) s).firing = true from hf)] at hfu
    simp only [State.fireWork, beginSending_fu, beginSending_mu, estopFault, hfu, stopFault_sim .estop none
      (show (setPins (estopPins p) s).firing = true from hf)]
    exact ⟨fun i => by have := fireWork_endPulses i (setPins (estopPins p) s); simp only [State.fireWork] at this; rw [this],
      rfl, rfl, trivial⟩
  · rw [beginSending_ll, estopFault, hll, raiseNotice_ll_room _ hroom,
      if_neg (show ¬ (setPins (estopPins p) s).lc.line = .faulted from hl)]
    exact if_pos hm
  · rw [beginSending_lc]; exact hlc.2 hl
  · rw [beginSending_fu]; exact (stopFault_tu_faulted .estop none (s := setPins (estopPins p) s) hl).2.2
  · rw [beginSending_tu]; exact (stopFault_tu_faulted .estop none (s := setPins (estopPins p) s) hl).1
  · rw [beginSending_mu]; exact (stopFault_tu_faulted .estop none (s := setPins (estopPins p) s) hl).2.1
  · rw [State.trackLen, beginSending_tu]; exact stopFault_trackLen .estop none (setPins (estopPins p) s)

/-! ## An illegal transition (R4) -/

/-- The end of an event that holds no frame leaves every unit but the link and the Line Control Unit, whose line state changes
between HOLDING and RUNNING alone. -/
theorem finish_open {s : State} (h : s.ll.receive ≠ .held) : finish s = beginSending (reportBacklog s) := by
  rw [finish, takeHeld_open s h]

theorem reportBacklog_lc_faults (s : State) : (reportBacklog s).lc.faults = s.lc.faults ∧
    (reportBacklog s).lc.further = s.lc.further ∧ (reportBacklog s).lc.locator = s.lc.locator ∧
    (reportBacklog s).lc.displaced = s.lc.displaced ∧ (reportBacklog s).lc.armed = s.lc.armed ∧
    (s.lc.line ≠ .running → s.lc.line ≠ .holding → (reportBacklog s).lc.line = s.lc.line) ∧
    (reportBacklog s).firing = s.firing := by
  unfold reportBacklog
  split
  · rw [addHold_firing, addHold_lc]
    exact ⟨rfl, rfl, rfl, rfl, rfl, fun h _ => if_neg (fun hc => h hc.2), rfl⟩
  · split
    · rw [reduceHolds_firing, reduceHolds_lc]
      exact ⟨rfl, rfl, rfl, rfl, rfl, fun _ h => if_neg (fun hc => h hc.2.2), rfl⟩
    · exact ⟨rfl, rfl, rfl, rfl, rfl, fun _ _ => rfl, rfl⟩

/-- Settles O19: the fault MOTION, at the end of an event that may report the backlog. -/
theorem illegalTransitionFaultsTheLine : Obligations.IllegalTransitionFaultsTheLine := by
  intro p a b s hs hsrc hedge
  obtain ⟨hres, hrec⟩ := hs
  have hwork : encoderState a b (setPins p s) = illegalTransition (setEncoder a b (setPins p s)) := by
    have hk := edgeKind_of_mem_illegalEdges _ _ _ _ hedge
    unfold encoderState
    simp only [setPins, hsrc, hk]
  generalize hu : ({ setEncoder a b (setPins p s) with
    mu := { (setEncoder a b (setPins p s)).mu with motionErrors := bump s.mu.motionErrors } } : State) = u
  have hill : illegalTransition (setEncoder a b (setPins p s)) = stopFault .motion none u := by rw [← hu]; rfl
  have hlcu : u.lc = s.lc := by rw [← hu]; rfl
  have hmuu : u.mu = { s.mu with motionErrors := bump s.mu.motionErrors, encA := a, encB := b } := by rw [← hu]; rfl
  obtain ⟨hout, hin⟩ := stopFault_lc .motion none u
  have hline := stopFault_line .motion none u
  have hrec' : (stopFault .motion none u).ll.receive ≠ .held := by
    rw [stopFault_ll, raiseNotice_ll]
    change u.ll.receive ≠ _
    rw [← hu]; exact hrec
  have hexec : exec (.encoderEdge p a b) s = .next (beginSending (reportBacklog (stopFault .motion none u))) := by
    rw [← finish_open hrec', ← hill, ← hwork]
    exact event_open p _ s hres
  obtain ⟨hfaults, hfurther, hlocator, -, -, hkeep, -⟩ := reportBacklog_lc_faults (stopFault .motion none u)
  have hkeep' := hkeep (by rw [hline]; exact LineState.noConfusion) (by rw [hline]; exact LineState.noConfusion)
  obtain ⟨sim, hmu⟩ := stopFault_mu .motion none u
  rw [hlcu] at hout hin
  refine ⟨_, hexec, ?_, ?_, ?_, ?_, ?_, ?_, ?_, ?_, ?_, ?_⟩
  · simp [← hu]
  · rw [beginSending_lc, hkeep', hline]
  · rw [beginSending_lc, hfaults]
    by_cases h : s.lc.line = .faulted
    · rw [hin h]; rfl
    · rw [hout h]; rfl
  · rw [beginSending_lc, hfurther]
    by_cases h : s.lc.line = .faulted
    · rw [hin h, if_pos h]; rfl
    · rw [hout h, if_neg h]
  · rw [beginSending_lc, hlocator]
    by_cases h : s.lc.line = .faulted
    · rw [hin h, if_neg (fun hc => hc.1 h)]
    · rw [hout h, hmuu]
      simp only [h, ne_eq, not_false_eq_true, true_and]
      rfl
  · simp [← hu, setPins, setEncoder]
  · simp [← hu, setPins, setEncoder]
  · simp [← hu, setPins, setEncoder]
  · simp [← hu, setPins, setEncoder]
  · rw [beginSending_mu, reportBacklog_mu, hmu, hmuu]; rfl

end Sys2Proof.Machine
end

section
/-! PROOFS. RUN_RESET. -/

namespace Sys2Proof.Machine

theorem runResetAll_mu (s : State) : (runResetAll s).mu = (resetMotion s).mu := by simp [runResetAll]

theorem runResetAll_fu (s : State) : (runResetAll s).fu = (resetFiring s).fu := by simp [runResetAll, resetFiring]

theorem runResetAll_cu (s : State) : (runResetAll s).cu = (resetChecks s).cu := by simp [runResetAll, resetChecks]

theorem runResetAll_lc (s : State) : (runResetAll s).lc = (resetLine s).lc := by simp [runResetAll, resetLine]

theorem fireWork_runReset (i : StationNo) (s : State) :
    (runResetAll s).fireWork i = { s.fireWork i with pulse := false, pulseEnd := 0 } := by
  have : (runResetAll s).fireWork i = (resetFiring s).fireWork i := by simp only [State.fireWork, runResetAll_fu]
  rw [this, fireWork_resetFiring]

theorem checkWork_runReset (i : StationNo) (s : State) :
    (runResetAll s).checkWork i = { s.checkWork i with faultRun := 0, drift := 0 } := by
  have : (runResetAll s).checkWork i = (resetChecks s).checkWork i := by simp only [State.checkWork, runResetAll_cu]
  rw [this]
  simp only [State.checkWork, resetChecks]
  exact mapAll_get _ _ i

theorem staging_runReset (s : State) (j : Fin 16) :
    (runResetAll s).au.staging[j] = if s.au.staging[j] = .receiving then .receiving else .free := by
  have : (runResetAll s).au.staging = (resetAdmission s).au.staging := by rw [runResetAll_au]
  rw [this]
  refine (mapAll_get s.au.staging (fun _ e => e.discarded) j).trans ?_
  cases s.au.staging[j] <;> rfl

theorem contentAt_runReset (s : State) (pos : Nat) : (runResetAll s).contentAt pos = .empty := by
  have : (runResetAll s).contentAt pos = (List.replicate s.tu.track.length Content.empty).getD pos .empty := by
    rw [State.contentAt, runResetAll_tu]; rfl
  rw [this, List.getD_eq_getElem?_getD, List.getElem?_replicate]
  split <;> rfl

/-- The arrival order keeps the one entry RECEIVING alone. -/
theorem filter_receiving_single {s : State} {i : Fin 16} (hs : s.StagingSound)
    (h : ∀ j : Fin 16, s.au.staging[j] = .receiving ↔ j = i) :
    s.au.order.filter (fun j => decide (s.au.staging[j] = .receiving)) = [i] := by
  have hmem : i ∈ s.au.order := (hs.2.1 i).mpr (by rw [(h i).mpr rfl]; exact StagingEntry.noConfusion)
  have hcount : s.au.order.count i = 1 := List.count_eq_one_of_mem hs.1 hmem
  simp only [h]
  rw [List.filter_eq, hcount]; rfl

theorem isClear_eq : PrinterMessage.isClear = fun m => decide (m = .clear) := by
  funext m; cases m <;> rfl

theorem dropJobs_tail (q : List PrinterMessage) : (dropJobs q).tail = q.tail.filter (fun m => decide (m = .clear)) := by
  cases q with
  | nil => rfl
  | cons m t => simp [dropJobs, isClear_eq]

theorem dropJobs_eq (q : List PrinterMessage) : dropJobs q = q.take 1 ++ q.tail.filter (fun m => decide (m = .clear)) := by
  rw [dropJobs, isClear_eq]

/-- What a CLEAR to be sent does to the port whose unsent jobs are dropped (R98). -/
theorem sendClear_dropped {s : State} {q : List PrinterMessage} (hq : s.pp.transmit = dropJobs q) :
    (s.pp.clears ≠ 255 → PrinterMessage.clear ∉ q.tail →
      (sendClear s).pp.clears = s.pp.clears + 1 ∧ (sendClear s).pp.transmit = q.take 1 ++ [.clear]) ∧
    (s.pp.clears = 255 ∨ PrinterMessage.clear ∈ q.tail → (sendClear s).pp.clears = max s.pp.clears 1 ∧
      (sendClear s).pp.transmit = q.take 1 ++ q.tail.filter (fun m => decide (m = .clear))) := by
  have hmem : PrinterMessage.clear ∈ s.pp.transmit.tail ↔ PrinterMessage.clear ∈ q.tail := by
    rw [hq, dropJobs_tail, List.mem_filter]; simp
  unfold sendClear
  refine ⟨fun hn hc => ?_, fun h => ?_⟩
  · rw [if_neg hn, if_neg (mt hmem.mp hc)]
    refine ⟨rfl, ?_⟩
    have : q.tail.filter (fun m => decide (m = .clear)) = [] := List.filter_eq_nil_iff.mpr fun m hm hmc => hc (by simp_all)
    change s.pp.transmit ++ [.clear] = _
    rw [hq, dropJobs_eq, this, List.append_nil]
  · by_cases hn : s.pp.clears = 255
    · rw [if_pos hn, hq, dropJobs_eq, hn]
      exact ⟨rfl, rfl⟩
    · rw [if_neg hn, if_pos (hmem.mpr (h.resolve_left hn))]
      exact ⟨rfl, hq.trans (dropJobs_eq q)⟩

theorem sendClear_rest (s : State) : (sendClear s).pp = { s.pp with
    transmit := (sendClear s).pp.transmit, clears := (sendClear s).pp.clears } := by
  obtain ⟨q, n, h, -⟩ := sendClear_pp (s := s)
  rw [h]

/-- The printer port at a run reset, before its CLEAR. -/
def jobsGiven (s : State) : State :=
  { s with pp := { s.pp with
      transmit := dropJobs s.pp.transmit, jobs := [], nextTag := 0, errors := 0, stray := 0, synchronised := false } }

theorem resetPrinter_eq (s : State) : resetPrinter s = sendClear (jobsGiven s) := rfl

/-- Settles O55: RUN_RESET unit by unit. -/
theorem runResetClearsTheJob : Obligations.RunResetClearsTheJob := by
  intro p ref s hs
  refine ⟨fun hl => ?_, fun hl => event_record_same hs (by decide) (if_neg hl)⟩
  generalize hu : runResetAll (setPins p s) = u
  have hlc : u.lc = (resetLine (setPins p s)).lc := by rw [← hu, runResetAll_lc]
  have hll : u.ll = (resetLink (setPins p s)).ll := by rw [← hu, runResetAll_ll]
  have hau : u.au = (resetAdmission (setPins p s)).au := by rw [← hu, runResetAll_au]
  have htu : u.tu = (resetTrack (setPins p s)).tu := by rw [← hu, runResetAll_tu]
  have hfu : u.fu = (resetFiring (setPins p s)).fu := by rw [← hu, runResetAll_fu]
  have hcu : u.cu = (resetChecks (setPins p s)).cu := by rw [← hu, runResetAll_cu]
  have hpp : u.pp = (resetPrinter (setPins p s)).pp := by rw [← hu, runResetAll_pp]
  have hown : ownFrame 0x05 [ref, 0x08] (setPins p s) = (u,
      .ok 0x00 [BitVec.ofNat 8 (s.stagingFill + s.trackCopies + s.gm.queue.length), BitVec.ofNat 8 s.bu.table.length]) := by
    refine (if_pos hl).trans ?_
    rw [lineOk, hu, hlc]
    change (u, Answer.ok (lineCode s.lc.line) _) = _
    rw [hl]; rfl
  obtain ⟨hclear, hwaits⟩ := sendClear_dropped (s := jobsGiven (setPins p s)) (q := s.pp.transmit) rfl
  have hrest := sendClear_rest (jobsGiven (setPins p s))
  rw [← resetPrinter_eq, ← hpp] at hclear hwaits hrest
  have hmu : u.mu = (resetMotion (setPins p s)).mu := by rw [← hu, runResetAll_mu]
  refine ⟨u, event_record_calm hs (by decide) hown (by rw [hll]; exact Nat.le_add_right _ _) (by rw [hlc]; exact hs.2.2.2),
    hmu, by rw [hfu]; rfl, by rw [hfu]; rfl, by rw [hfu]; rfl, by rw [hfu]; rfl, by rw [hfu]; rfl, by rw [hfu]; rfl,
    fun i => ?_, fun j => ?_, ?_, fun hnone => ?_, fun i hst hi => ?_, by rw [hcu]; rfl, fun i => ?_,
    by rw [hau]; rfl, by rw [hau]; rfl, by rw [hau]; rfl, by rw [hau]; simp only [resetAdmission, setPins], ?_, ?_, fun pos => ?_, ?_,
    ?_, ?_, ?_, by rw [hrest]; rfl, by rw [hrest]; rfl, by rw [hrest]; rfl, by rw [hrest]; rfl, hclear, hwaits, hlc, by rw [hll]; rfl,
    by rw [hll]; rfl, by rw [hll]; rfl, by rw [hll]; rfl, by rw [hll]; rfl, by rw [hll]; rfl, ?_⟩
  · rw [← hu, fireWork_runReset]; exact ⟨rfl, rfl, rfl⟩
  · rw [← hu, staging_runReset]; rfl
  · rw [hau]; rfl
  · have hno := fun i => (receivingEntry_eq_none (s := s)).mp hnone i
    rw [hau]
    exact List.filter_eq_nil_iff.mpr fun i _ hi => hno i (of_decide_eq_true hi)
  · rw [hau]; exact filter_receiving_single hst hi
  · rw [← hu, checkWork_runReset]; rfl
  · rw [State.trackLen, htu]; exact List.length_replicate
  · rw [htu]; rfl
  · rw [← hu, contentAt_runReset]
  · rw [htu]; rfl
  · rw [htu]; rfl
  · rw [← hu, runResetAll_gm]; rfl
  · rw [← hu, runResetAll_bu]; rfl
  · rw [← hu, runResetAll_counters]
    exact fun n hn => List.eq_of_mem_replicate hn

end Sys2Proof.Machine
end

section
/-! PROOFS. Table writes: the checks in front of them, the output map and the line profile, and the plan table. -/

namespace Sys2Proof.Machine

/-! ## The checks in front of a write -/

theorem exec_writeOf (tb : Table) (p : Pins) (ref : Byte) (rest : List Byte) (s : State) :
    exec (writeOf tb p ref rest) s = event p (arriveFrame 0x03 (ref :: BitVec.ofNat 8 (tableCode tb) :: rest)) s := by
  cases tb <;> rfl

theorem tableOfCode_tableCode (tb : Table) : tableOfCode (BitVec.ofNat 8 (tableCode tb)).toNat = some tb := by cases tb <;> rfl

theorem tableOfCode_eq_none {n : Nat} (h : n = 0 ∨ 5 < n) : tableOfCode n = none := by
  unfold tableOfCode
  split <;> first | omega | rfl

/-- A TABLE-WRITE whose code names a table. -/
theorem ownTableWrite_named (ref : Byte) (tb : Table) (rest : List Byte) (s : State) :
    ownTableWrite (ref :: BitVec.ofNat 8 (tableCode tb) :: rest) s =
      if (ref :: BitVec.ofNat 8 (tableCode tb) :: rest).length ≠ tableWriteLength tb then (s, .refusal .format 0x04)
      else if s.ll.lock then (s, .refusal .locked 0x00)
      else if s.writeEnabled tb then ownerWrite tb (octetAt rest 0) (rest.drop 1) s
      else (setLock s, .refusal .protectedTable (BitVec.ofNat 8 (tableCode tb))) := by
  have hlen : ¬ (ref :: BitVec.ofNat 8 (tableCode tb) :: rest).length < 2 := by simp
  have hcode : octetAt (ref :: BitVec.ofNat 8 (tableCode tb) :: rest) 1 = (BitVec.ofNat 8 (tableCode tb)).toNat := rfl
  simp only [ownTableWrite, if_neg hlen, hcode, tableOfCode_tableCode]
  rfl

/-- What an unlocked write to an enabled table does. -/
theorem ownTableWrite_open {ref : Byte} {tb : Table} {rest : List Byte} {s : State}
    (hlen : (ref :: BitVec.ofNat 8 (tableCode tb) :: rest).length = tableWriteLength tb) (hlock : s.ll.lock = false)
    (hen : s.ll.writeEnable.getLsbD (tableCode tb - 1) = true) :
    ownTableWrite (ref :: BitVec.ofNat 8 (tableCode tb) :: rest) s = ownerWrite tb (octetAt rest 0) (rest.drop 1) s := by
  rw [ownTableWrite_named, if_neg (not_not_intro hlen), if_neg (by simp [hlock]), if_pos (by simpa [State.writeEnabled] using hen)]

theorem rangeAnswer_first (checks : List (Nat × Bool)) : rangeAnswer ((1, false) :: checks) = some (.refusal .range 0x01) := rfl

theorem rangeAnswer_passed (n : Nat) (checks : List (Nat × Bool)) : rangeAnswer ((n, true) :: checks) = rangeAnswer checks := rfl

/-- A table written in STOPPED alone. -/
theorem ownerWrite_notStopped {tb : Table} (htb : tb = .station ∨ tb = .outputMap ∨ tb = .lineProfile) (index : Nat)
    (entry : List Byte) {s : State} (hl : s.lc.line ≠ .stopped) : ownerWrite tb index entry s = (s, .refusal .state 0x01) := by
  rcases htb with rfl | rfl | rfl <;> exact if_neg hl

theorem checkedWrite_refused {checks : List (Nat × Bool)} (effect : State → State) (s : State) (a : Answer)
    (h : rangeAnswer checks = some a) : checkedWrite checks effect s = (s, a) := by
  simp only [checkedWrite, h]

theorem checkedWrite_taken {checks : List (Nat × Bool)} (effect : State → State) (s : State)
    (h : rangeAnswer checks = none) : checkedWrite checks effect s = (effect s, .ok 0 []) := by
  simp only [checkedWrite, h]

theorem stoppedWrite_stopped (checks : List (Nat × Bool)) (effect : State → State) {s : State} (h : s.lc.line = .stopped) :
    stoppedWrite checks effect s = checkedWrite checks effect s := if_pos h

/-- An index beyond the table is field 1 of its record. -/
theorem ownerWrite_beyond {tb : Table} {index : Nat} (h : tableSize tb ≤ index) (entry : List Byte) {s : State}
    (hl : s.lc.line = .stopped ∨ tb = .curve ∨ tb = .plan) : ownerWrite tb index entry s = (s, .refusal .range 0x01) := by
  have first (bound : Nat) (hb : ¬ index ≤ bound) (checks : List (Nat × Bool)) :
      rangeAnswer ((1, decide (index ≤ bound)) :: checks) = some (.refusal .range 0x01) := by
    rw [decide_eq_false hb]; exact rangeAnswer_first checks
  cases tb with
  | station =>
    have hst : s.lc.line = .stopped := by simpa using hl
    exact (stoppedWrite_stopped _ _ hst).trans (checkedWrite_refused _ s _ (first 15 (by simp only [tableSize] at h; omega) _))
  | curve => exact checkedWrite_refused _ s _ (first 3 (by simp only [tableSize] at h; omega) _)
  | plan => exact checkedWrite_refused _ s _ (first 63 (by simp only [tableSize] at h; omega) _)
  | outputMap =>
    have hst : s.lc.line = .stopped := by simpa using hl
    exact (stoppedWrite_stopped _ _ hst).trans (checkedWrite_refused _ s _ (first 23 (by simp only [tableSize] at h; omega) _))
  | lineProfile =>
    have hst : s.lc.line = .stopped := by simpa using hl
    have h0 : ¬ index = 0 := by simp only [tableSize] at h; omega
    refine (stoppedWrite_stopped _ _ hst).trans (checkedWrite_refused _ s _ ?_)
    rw [decide_eq_false h0]
    exact rangeAnswer_first _

/-- Settles O29: the refusals of `ownTableWrite` in their order, then those of the table's owner. -/
theorem tableWritesMeetTheProtection : Obligations.TableWritesMeetTheProtection := by
  intro p ref s hs
  refine ⟨event_record_same hs (by decide) rfl, fun code rest hcode => ?_, fun tb rest payload hpay => ?_⟩
  · refine event_record_same hs (by decide) ?_
    have hlen : ¬ (ref :: code :: rest).length < 2 := by simp
    have hc : octetAt (ref :: code :: rest) 1 = code.toNat := rfl
    change ownTableWrite _ _ = _
    simp only [ownTableWrite, if_neg hlen, hc, tableOfCode_eq_none hcode]
  · subst hpay
    have own : ownFrame 0x03 (ref :: BitVec.ofNat 8 (tableCode tb) :: rest) (setPins p s) =
        ownTableWrite (ref :: BitVec.ofNat 8 (tableCode tb) :: rest) (setPins p s) := rfl
    rw [exec_writeOf]
    refine ⟨rfl, fun hlen => ?_, fun hlen hlock => ?_, fun hlen hlock hen => ?_, fun hlen hlock hen hl htb => ?_,
      fun hlen hlock hen hl hix => ?_⟩
    · exact event_record_same hs (by decide) (by rw [own, ownTableWrite_named, if_pos hlen])
    · refine event_record_same hs (by decide) ?_
      rw [own, ownTableWrite_named, if_neg (not_not_intro hlen), if_pos (show (setPins p s).ll.lock = true from hlock)]
    · refine event_record_calm (u := setLock (setPins p s)) hs (by decide) ?_ (Nat.le_add_right _ _) hs.2.2.2
      have hen : (setPins p s).writeEnabled tb = false := hen
      have hlock : (setPins p s).ll.lock = false := hlock
      rw [own, ownTableWrite_named, if_neg (not_not_intro hlen), if_neg (by rw [hlock]; exact Bool.false_ne_true),
        if_neg (by rw [hen]; exact Bool.false_ne_true)]
    · refine event_record_same hs (by decide) ?_
      rw [own, ownTableWrite_open (s := setPins p s) hlen hlock hen]
      exact ownerWrite_notStopped htb _ _ (s := setPins p s) hl
    · refine event_record_same hs (by decide) ?_
      rw [own, ownTableWrite_open (s := setPins p s) hlen hlock hen]
      exact ownerWrite_beyond hix _ (s := setPins p s) hl

/-! ## OUTPUT_MAP and LINE_PROFILE -/

/-- The output lines by their sources: a line follows its source, turned over by INVERTED. -/
theorem outLevel_eq {s : State} (hr : s.inReset = false) (k : Fin 24) (active : Bool)
    (h : s.sourceActive s.fu.outputs[k].source = active) :
    s.outLevel k = (if s.fu.outputs[k].inverted then !active else active) := by
  simp only [State.outLevel, hr, h]
  cases active <;> cases s.fu.outputs[k].inverted <;> rfl

theorem firing_eq (s : State) : s.firing = decide (s.lc.line = .running ∨ s.lc.line = .holding ∨ s.lc.line = .runOut) := by
  cases h : s.lc.line <;> simp [State.firing, LineState.firing, h]

/-- Settles O26: each write by the checks it passes; a line's level by its source. -/
theorem stoppedTablesAreWritten : Obligations.StoppedTablesAreWritten := by
  refine ⟨fun p ref s k e hs hlock hen => ?_, fun p ref s e hs he hlock hen => ?_, fun s k i active hr h => ?_⟩
  · obtain ⟨hpass, hdec⟩ := output_decodes e
    have hk : octetAt (BitVec.ofNat 8 k.val :: outputOctets e) 0 = k.val := toNat_ofNat_fin (by decide) k
    have own : ownFrame 0x03 (ref :: 0x04 :: BitVec.ofNat 8 k.val :: outputOctets e) (setPins p s) =
        writeOutput k.val (outputOctets e) (setPins p s) :=
      (ownTableWrite_open (tb := .outputMap) (rest := BitVec.ofNat 8 k.val :: outputOctets e) (s := setPins p s) rfl hlock
        hen).trans (by rw [hk]; rfl)
    by_cases hl : s.lc.line = .stopped
    · rw [if_pos hl]
      refine event_record_calm (u := putOutput k e (setPins p s)) hs (by decide) (own.trans ?_) (Nat.le_add_right _ _) hs.2.2.2
      refine (stoppedWrite_stopped _ _ (s := setPins p s) hl).trans ?_
      rw [checkedWrite_taken _ _ (by rw [decide_eq_true (by have := k.isLt; omega), rangeAnswer_passed]; exact hpass), hdec,
        Fin.ofNat_val_eq_self]
    · rw [if_neg hl]
      exact event_record_same hs (by decide) (own.trans (ownerWrite_notStopped (.inr (.inl rfl)) _ _ (s := setPins p s) hl))
  · obtain ⟨hpass, hdec⟩ := profile_decodes e he
    have own : ownFrame 0x03 (ref :: 0x05 :: 0x00 :: profileOctets e) (setPins p s) =
        writeProfile 0 (profileOctets e) (setPins p s) :=
      ownTableWrite_open (tb := .lineProfile) (rest := 0x00 :: profileOctets e) (s := setPins p s) rfl hlock hen
    by_cases hl : s.lc.line = .stopped
    · rw [if_pos hl]
      refine event_record_calm (u := setProfile e (setPins p s)) hs (by decide) (own.trans ?_) (Nat.le_add_right _ _) hs.2.2.2
      refine (stoppedWrite_stopped _ _ (s := setPins p s) hl).trans ?_
      rw [checkedWrite_taken _ _ (by rw [decide_eq_true rfl, rangeAnswer_passed]; exact hpass), hdec]
    · rw [if_neg hl]
      exact event_record_same hs (by decide) (own.trans (ownerWrite_notStopped (.inr (.inr rfl)) _ _ (s := setPins p s) hl))
  · refine outLevel_eq hr k active ?_
    rcases h with ⟨h, rfl⟩ | ⟨h, rfl⟩ | ⟨h, rfl⟩ | ⟨h, rfl⟩ | ⟨h, rfl⟩ | ⟨h, rfl⟩ | ⟨h, rfl⟩ | ⟨h, rfl⟩ <;> rw [h]
    case inr.inr.inr.inl => exact firing_eq s
    all_goals rfl

/-! ## The idle resolver -/

theorem resolvePointer_isArrived (s : State) : s.resolvePointer = s.au.order.find? (fun i => s.au.staging[i].isArrived) := rfl

/-- A busy resolver, and one that no copy waits for, goes on. -/
theorem startResolver_rests {s : State} (h : s.au.resolver ≠ none ∨ ∀ j ∈ s.au.order, s.au.staging[j].isArrived = false) :
    startResolver s = s := by
  unfold startResolver
  split
  · rename_i i hr hp
    rcases h with h | h
    · exact absurd hr h
    · have hi := List.find?_some (resolvePointer_isArrived s ▸ hp)
      have := h i (List.mem_of_find?_eq_some (resolvePointer_isArrived s ▸ hp))
      simp_all
  · rfl

theorem resolvePointer_oldest {s : State} {i : Fin 16} {c : StagedCopy} (h : oldestArrived s.au.order s.au.staging i c) :
    s.resolvePointer = some i := by
  obtain ⟨hi, front, back, ho, hfront⟩ := h
  have hnone : front.find? (fun j => s.au.staging[j].isArrived) = none :=
    List.find?_eq_none.mpr fun j hj => by rw [hfront j hj]; exact Bool.false_ne_true
  have hat : s.au.staging[i].isArrived = true := by rw [hi]; rfl
  rw [resolvePointer_isArrived, ho, List.find?_append, hnone, Option.none_or]
  exact List.find?_cons_of_pos hat

/-- An idle resolver takes the oldest ARRIVED entry, with the plan entry of its copy's code. -/
theorem startResolver_takes {s : State} {i : Fin 16} {c : StagedCopy} (hr : s.au.resolver = none)
    (h : oldestArrived s.au.order s.au.staging i c) : startResolver s = { s with au := { s.au with
      staging := s.au.staging.set i.val (.resolving c false) i.isLt
      resolver := some { entry := i, read := s.au.plans[c.plan] } } } := by
  have hp := resolvePointer_oldest h
  have hi := h.1
  simp only [startResolver, hr, hp, hi]
  rfl

/-- The resolver changes its own entry alone: an ARRIVED one, which it makes RESOLVING. -/
theorem startResolver_entry (s : State) (j : Fin 16) : (startResolver s).au.staging[j] = s.au.staging[j] ∨
    ∃ c, s.au.resolver = none ∧ s.au.staging[j] = .arrived c ∧ (startResolver s).au.staging[j] = .resolving c false := by
  rcases startResolver_cases s with he | ⟨i, c, hr, -, hc, he⟩
  · rw [he]; exact .inl rfl
  · rw [he]
    dsimp only
    rw [vector_get_set]
    split
    · rename_i hj; subst hj; exact .inr ⟨c, hr, hc, rfl⟩
    · exact .inl rfl

/-- What the resolver's start leaves of the Admission Unit. -/
theorem startResolver_keeps (s : State) : (startResolver s).au.plans = s.au.plans ∧ (startResolver s).au.order = s.au.order ∧
    (startResolver s).au.blocksUsed = s.au.blocksUsed ∧ (startResolver s).au.pool = s.au.pool ∧
    (startResolver s).au.lastSeq = s.au.lastSeq := by
  rcases startResolver_cases s with he | ⟨i, c, -, -, -, he⟩ <;> rw [he] <;> exact ⟨rfl, rfl, rfl, rfl, rfl⟩

/-! ## PLAN -/

/-- Settles O27: the checks pass, staging is replanned, and the resolver looks at what now waits. -/
theorem planWriteSendsCopiesBack : Obligations.PlanWriteSendsCopiesBack := by
  intro p ref s code e hs he hlock hen
  obtain ⟨hpass, hdec⟩ := plan_decodes e he
  have hk : octetAt (BitVec.ofNat 8 code.val :: planOctets e) 0 = code.val := toNat_ofNat_fin (by decide) code
  have own : ownFrame 0x03 (ref :: 0x03 :: BitVec.ofNat 8 code.val :: planOctets e) (setPins p s) =
      (setPlan code e (setPins p s), .ok 0 []) := by
    refine (ownTableWrite_open (tb := .plan) (rest := BitVec.ofNat 8 code.val :: planOctets e) (s := setPins p s) rfl hlock
      hen).trans ?_
    rw [hk]
    refine (checkedWrite_taken _ _ ?_).trans ?_
    · rw [decide_eq_true (by have := code.isLt; omega), rangeAnswer_passed]; exact hpass
    · change (setPlan _ (planOfOctets (planOctets e)) _, _) = _
      rw [hdec, Fin.ofNat_val_eq_self]
  obtain ⟨kplans, korder, kblocks, kpool, kseq⟩ := startResolver_keeps (putPlan code e (setPins p s))
  have hll : (setPlan code e (setPins p s)).ll = s.ll := setPlan_ll code e (setPins p s)
  have hlc : (setPlan code e (setPins p s)).lc = s.lc := setPlan_lc code e (setPins p s)
  have entry (j : Fin 16) := startResolver_entry (putPlan code e (setPins p s)) j
  have put (j : Fin 16) : (putPlan code e (setPins p s)).au.staging[j] = replanEntry code s.au.staging[j] :=
    putPlan_staging code e (setPins p s) j
  have hres : (putPlan code e (setPins p s)).au.resolver = s.au.resolver := putPlan_resolver code e (setPins p s)
  have hord : (putPlan code e (setPins p s)).au.order = s.au.order := putPlan_order code e (setPins p s)
  simp only [put, hres] at entry
  refine ⟨setPlan code e (setPins p s), event_record_calm hs (by decide) own (by rw [hll]; omega) (by rw [hlc]; exact hs.2.2.2),
    kplans.trans (by simp only [putPlan, setPins]), korder.trans hord, kblocks.trans (by simp only [putPlan, setPins]),
    fun j c v hj hc => ?_, fun j c v hj hc => ?_, fun j c a hj => ?_, fun j c hj => ?_, fun j hj => ?_, fun j hj => ?_,
    fun now hnow => ?_, kpool.trans (by simp only [putPlan, setPins]), kseq.trans (by simp only [putPlan, setPins]),
    setPlan_mu _ _ _, setPlan_fu _ _ _, setPlan_tu _ _ _, setPlan_gm _ _ _, setPlan_bu _ _ _, hlc, hll⟩
  · rcases entry j with h | ⟨d, -, hd, h⟩
    · rw [hj, replanEntry, if_pos hc] at h; exact .inl h
    · rw [hj, replanEntry, if_pos hc] at hd
      obtain rfl : c = d := StagingEntry.arrived.inj hd
      exact .inr h
  · rcases entry j with h | ⟨d, -, hd, -⟩
    · rwa [hj, replanEntry, if_neg hc] at h
    · rw [hj, replanEntry, if_neg hc] at hd; cases hd
  · rcases entry j with h | ⟨d, -, hd, -⟩
    · rwa [hj] at h
    · rw [hj] at hd; cases hd
  · rcases entry j with h | ⟨d, hnone, hd, h⟩
    · rw [hj] at h; exact .inl h
    · rw [hj] at hd
      obtain rfl : c = d := StagingEntry.arrived.inj hd
      exact .inr ⟨hnone, h⟩
  · rcases entry j with h | ⟨d, -, hd, -⟩
    · rwa [hj] at h
    · rw [hj] at hd; cases hd
  · rcases entry j with h | ⟨d, -, hd, -⟩
    · rwa [hj] at h
    · rw [hj] at hd; cases hd
  · have hput : (putPlan code e (setPins p s)).au.staging = now := by
      refine Vector.ext fun j hj => ?_
      have h := (put ⟨j, hj⟩).trans (c := now[(⟨j, hj⟩ : Fin 16)]) (by
        rw [hnow ⟨j, hj⟩]
        cases s.au.staging[(⟨j, hj⟩ : Fin 16)] <;> rfl)
      exact h
    refine ⟨fun hrest => ?_, fun j c hnone hold => ?_⟩
    · have := startResolver_rests (s := putPlan code e (setPins p s)) (by rwa [hres, hord, hput])
      exact ⟨(congrArg (fun u => u.au.staging) this).trans hput, (congrArg (fun u => u.au.resolver) this).trans hres⟩
    · have := startResolver_takes (s := putPlan code e (setPins p s)) (i := j) (c := c) (hres.trans hnone) (by rwa [hord, hput])
      refine ⟨(congrArg (fun u => u.au.staging) this).trans (by rw [← hput]), (congrArg (fun u => u.au.resolver) this).trans ?_⟩
      simp only [putPlan, setPins]

end Sys2Proof.Machine
end

section
/-! PROOFS. What marks and withdrawals keep of a position's content, and an action station that did not act. -/

namespace Sys2Proof.Machine

/-! ## What is kept of a context -/

/-- A context that has got marks, or lost its tag: the rest stays, and SUSPECT stays on it. -/
structure Context.Kept (c d : Context) : Prop where
  copy : d.copy = c.copy
  values : d.values = c.values
  origin : d.origin = c.origin
  attempts : d.attempts = c.attempts
  faulted : d.faulted = c.faulted
  verifyResult : d.verifyResult = c.verifyResult
  suspect : c.marks.suspect = true → d.marks.suspect = true

theorem Context.Kept.refl (c : Context) : c.Kept c := ⟨rfl, rfl, rfl, rfl, rfl, rfl, id⟩

theorem Context.Kept.trans {c d e : Context} (h : c.Kept d) (k : d.Kept e) : c.Kept e :=
  ⟨k.copy.trans h.copy, k.values.trans h.values, k.origin.trans h.origin, k.attempts.trans h.attempts,
    k.faulted.trans h.faulted, k.verifyResult.trans h.verifyResult, k.suspect ∘ h.suspect⟩

theorem add_suspect (m : MarkSet) (k : Mark) (h : m.suspect = true) : (m.add k).suspect = true := by
  cases k <;> first | exact h | rfl

theorem Context.Kept.mark (c : Context) (m : Mark) : c.Kept (c.mark m) := ⟨rfl, rfl, rfl, rfl, rfl, rfl, add_suspect c.marks m⟩

/-- A content whose context is kept; a gap stays a gap and a ghost a ghost. -/
def Content.Kept : Content → Content → Prop
  | .empty, d => d = .empty
  | .ghost _, d => d.isGhost = true
  | .copy c, d => ∃ e, d = .copy e ∧ c.Kept e

theorem Content.Kept.refl (c : Content) : c.Kept c := by
  cases c with
  | empty => rfl
  | ghost t => rfl
  | copy c => exact ⟨c, rfl, .refl c⟩

theorem Content.Kept.trans {c d e : Content} (h : c.Kept d) (k : d.Kept e) : c.Kept e := by
  cases c with
  | empty => subst h; exact k
  | ghost t =>
    cases d with
    | ghost u => exact k
    | _ => cases h
  | copy c =>
    obtain ⟨d, rfl, hd⟩ := h
    obtain ⟨e, rfl, he⟩ := k
    exact ⟨e, rfl, hd.trans he⟩

theorem Content.Kept.mapContext (f : Context → Context) (hf : ∀ c : Context, c.Kept (f c)) (c : Content) :
    c.Kept (c.mapContext f) := by
  cases c with
  | copy c => exact ⟨f c, rfl, hf c⟩
  | empty => rfl
  | ghost t => rfl

theorem Content.Kept.withdrawn (jobs : List Job) (c : Content) : c.Kept (withdrawContent jobs c) := by
  cases c with
  | empty => rfl
  | ghost t => simp only [withdrawContent, Content.Kept]; split <;> rfl
  | copy c =>
    simp only [withdrawContent, Content.Kept]
    split
    · exact ⟨_, rfl, rfl, rfl, rfl, rfl, rfl, rfl, fun _ => rfl⟩
    · exact ⟨c, rfl, .refl c⟩

/-- Every position's content is kept. -/
def State.ContentsKept (s t : State) : Prop := ∀ pos, (s.contentAt pos).Kept (t.contentAt pos)

theorem State.ContentsKept.refl (s : State) : s.ContentsKept s := fun _ => .refl _

theorem State.ContentsKept.trans {s t u : State} (h : s.ContentsKept t) (k : t.ContentsKept u) : s.ContentsKept u :=
  fun pos => (h pos).trans (k pos)

theorem State.ContentsKept.of_tu {s t : State} (h : t.tu = s.tu) : s.ContentsKept t := fun pos => by
  rw [contentAt_of_tu h]; exact .refl _

theorem modifyContext_kept (pos : Nat) (f : Context → Context) (hf : ∀ c : Context, c.Kept (f c)) (s : State) :
    s.ContentsKept (modifyContext pos f s) := by
  intro q
  by_cases h : q = pos
  · subst h; rw [contentAt_modifyContext_self]; exact .mapContext f hf _
  · rw [contentAt_modifyContext_other pos q f s h]; exact .refl _

theorem markAt_kept (pos : Nat) (m : Mark) (s : State) : s.ContentsKept (markAt pos m s) :=
  modifyContext_kept pos _ (fun c => .mark c m) s

theorem contentAt_suspectAt (pos : Nat) (s : State) :
    (suspectAt pos s).contentAt pos = (s.contentAt pos).mapContext (Context.mark .suspect) :=
  contentAt_modifyContext_self pos _ s

/-- A request for SUSPECT where no context stands has no effect. -/
theorem suspectAt_of_not_isCopy {pos : Nat} {s : State} (h : (s.contentAt pos).isCopy = false) : suspectAt pos s = s := by
  have : s.tu.track.modify pos (Content.mapContext (Context.mark .suspect)) = s.tu.track := by
    refine List.ext_getElem? fun k => ?_
    rw [List.getElem?_modify]
    by_cases hk : pos = k
    · subst hk
      simp only [State.contentAt, List.getD_eq_getElem?_getD] at h
      cases hc : s.tu.track[pos]? with
      | none => rfl
      | some c =>
        rw [hc] at h
        exact congrArg some ((if_pos rfl).trans (mapContext_of_not_isCopy _ h))
    · simp [hk]
  change { s with tu := { s.tu with track := s.tu.track.modify pos _ } } = s
  rw [this]

/-! ## Withdrawals -/

theorem contentAt_withdraw (s : State) (pos : Nat) :
    (withdraw s).contentAt pos = withdrawContent s.pp.jobs (s.contentAt pos) := by
  have htu : (withdraw s).tu = { s.tu with track := s.tu.track.map (withdrawContent s.pp.jobs) } :=
    congrArg State.tu (withdraw_eq s)
  simp only [State.contentAt, htu, List.getD_eq_getElem?_getD, List.getElem?_map]
  cases s.tu.track[pos]? <;> rfl

theorem withdraw_tu (s : State) : (withdraw s).tu = { s.tu with track := s.tu.track.map (withdrawContent s.pp.jobs) } :=
  congrArg State.tu (withdraw_eq s)

/-- A withdrawal's effect on the Printer Port is of the Printer Port alone. -/
theorem withdraw_pp_congr {s t : State} (h : t.pp = s.pp) : (withdraw t).pp = (withdraw s).pp := by
  unfold withdraw sendClear
  dsimp only
  rw [h]
  split
  · split
    · rfl
    · split <;> rfl
  · rfl

theorem withdraw_kept (s : State) : s.ContentsKept (withdraw s) := fun pos => by
  rw [contentAt_withdraw]; exact .withdrawn _ _

theorem hasJob_iff (jobs : List Job) (t : Tag) : hasJob jobs t = true ↔ ∃ j ∈ jobs, j.tag = t := by
  simp [hasJob]

/-! ## The PRINT station that did not act (R105) -/

theorem printNotTaken_untagged {i : StationNo} {s : State} (h : (s.contentAt (s.station i).offset).tag = none) :
    printNotTaken i s = suspectAt (s.station i).offset s := by
  simp only [printNotTaken, h, Option.isSome_none, Bool.false_eq_true, if_false]

theorem printNotTaken_tagged {i : StationNo} {s : State} {t : Tag} (h : (s.contentAt (s.station i).offset).tag = some t) :
    printNotTaken i s = withdraw (suspectAt (s.station i).offset s) := by
  simp only [printNotTaken, h, Option.isSome_some, if_true]

theorem printNotTaken_kept (i : StationNo) (s : State) : s.ContentsKept (printNotTaken i s) := by
  unfold printNotTaken
  dsimp only
  split
  · exact (markAt_kept _ _ s).trans (withdraw_kept _)
  · exact markAt_kept _ _ s

theorem printNotTaken_suspect {i : StationNo} {s : State} {c : Context} (h : s.contentAt (s.station i).offset = .copy c) :
    ∃ d, (printNotTaken i s).contentAt (s.station i).offset = .copy d ∧ c.Kept d ∧ d.marks.suspect = true := by
  have hs : (suspectAt (s.station i).offset s).contentAt (s.station i).offset = .copy (c.mark .suspect) := by
    rw [contentAt_suspectAt, h]; rfl
  unfold printNotTaken
  dsimp only
  split
  · obtain ⟨d, hd, hk⟩ := hs ▸ withdraw_kept (suspectAt (s.station i).offset s) (s.station i).offset
    exact ⟨d, hd, (Context.Kept.mark c .suspect).trans hk, hk.suspect rfl⟩
  · exact ⟨_, hs, .mark c .suspect, rfl⟩

/-! ## An action station that did not act (R70) -/

/-- The kinds that serve a context when they act. -/
def StationEntry.Serves (e : StationEntry) (c : Context) : Prop :=
  e.kind = .feed ∨ e.kind = .carrier ∨ e.kind = .seal ∨ e.kind = .insert ∧ c.values.callsFor e.feeder = true

theorem actionMissed_served {i : StationNo} {s : State} {c : Context} (hc : s.contentAt (s.station i).offset = .copy c)
    (h : (s.station i).Serves c) : actionMissed i s = suspectAt (s.station i).offset s := by
  rcases h with h | h | h | ⟨h, hcall⟩
  · simp only [actionMissed, h]
  · simp only [actionMissed, h]
  · simp only [actionMissed, h]
  · simp only [actionMissed, h, hc, hcall, if_true]

theorem actionMissed_rests {i : StationNo} {s : State} (h : (s.contentAt (s.station i).offset).isCopy = false ∨
    (∃ c, s.contentAt (s.station i).offset = .copy c ∧ (s.station i).kind = .insert ∧
      c.values.callsFor (s.station i).feeder = false)) : actionMissed i s = s := by
  rcases h with h | ⟨c, hc, hk, hcall⟩
  · unfold actionMissed
    dsimp only
    split
    · split
      · rename_i hc; rw [hc] at h; cases h
      · rfl
    · exact suspectAt_of_not_isCopy h
    · exact suspectAt_of_not_isCopy h
    · exact suspectAt_of_not_isCopy h
    · rfl
  · simp only [actionMissed, hk, hc, hcall, Bool.false_eq_true, if_false]

theorem actionMissed_other {i : StationNo} {s : State} (h : (s.station i).kind = .gate ∨ (s.station i).kind = .stack) :
    actionMissed i s = s := by
  rcases h with h | h <;> simp only [actionMissed, h]

/-- What an action station that did not act changes: the context at its position, by SUSPECT. -/
theorem actionMissed_cases (i : StationNo) (s : State) :
    actionMissed i s = s ∨ actionMissed i s = suspectAt (s.station i).offset s := by
  unfold actionMissed
  dsimp only
  (repeat' split) <;> first | exact .inl rfl | exact .inr rfl

theorem actionMissed_kept (i : StationNo) (s : State) : s.ContentsKept (actionMissed i s) := by
  rcases actionMissed_cases i s with h | h <;> rw [h]
  · exact .refl s
  · exact markAt_kept _ _ s

/-- Whether a station did not act is asked of its entry and the content at its position alone. -/
theorem stationMissed_print {i : StationNo} {s : State} (h : (s.station i).kind = .print) :
    stationMissed i s = printNotTaken i s := by
  simp only [stationMissed, h]

theorem stationMissed_action {i : StationNo} {s : State} (h : (s.station i).kind ≠ .print) :
    stationMissed i s = actionMissed i s := by
  unfold stationMissed
  split
  · rename_i hk; exact absurd hk h
  · rfl

theorem stationMissed_kept (i : StationNo) (s : State) : s.ContentsKept (stationMissed i s) := by
  by_cases h : (s.station i).kind = .print
  · rw [stationMissed_print h]; exact printNotTaken_kept i s
  · rw [stationMissed_action h]; exact actionMissed_kept i s

/-! ## A station's E anew (R22) -/

/-- A station whose kind has no fire point, on a new E: the flag and the outcome are cleared. -/
theorem recomputeStation_idle {i : StationNo} {s : State} (h : (s.station i).kind.fires = false) :
    recomputeStation i s = setFireWork i (fun w => { w with fired := false, outcome := .none }) s := by
  simp only [recomputeStation, h, Bool.false_eq_true, if_false]

theorem setFireWork_setFireWork (i : StationNo) (f g : FireWork → FireWork) (s : State) :
    setFireWork i g (setFireWork i f s) = setFireWork i (g ∘ f) s := by
  simp only [setFireWork, modifyAt, Vector.getElem_set_self, Vector.set_set, Function.comp, Fin.getElem_fin]

/-- A station not fired whose new E the phase has reached is SKIPPED. -/
theorem recomputeStation_skipped {i : StationNo} {s : State} (h : (s.station i).kind.fires = true)
    (hf : (s.fireWork i).fired = false) (he : s.firePointOf (s.station i) ≤ s.mu.phase) :
    recomputeStation i s = stationMissed i (setFireWork i (fun w =>
      { w with e := s.firePointOf (s.station i), fired := true, outcome := .skipped }) s) := by
  have hc : ¬ (s.fireWork i).fired = true ∧ s.firePointOf (s.station i) ≤ s.mu.phase :=
    ⟨by rw [hf]; exact Bool.false_ne_true, he⟩
  rw [recomputeStation, if_pos h, if_pos hc, setFireWork_setFireWork]
  rfl

theorem recomputeStation_set {i : StationNo} {s : State} (h : (s.station i).kind.fires = true)
    (hf : (s.fireWork i).fired = true ∨ s.mu.phase < s.firePointOf (s.station i)) :
    recomputeStation i s = setFireWork i (fun w => { w with e := s.firePointOf (s.station i) }) s := by
  have hc : ¬ (¬ (s.fireWork i).fired = true ∧ s.firePointOf (s.station i) ≤ s.mu.phase) := by
    rintro ⟨h1, h2⟩
    rcases hf with hf | hf
    · exact h1 hf
    · omega
  rw [recomputeStation, if_pos h, if_neg hc]

/-- What the working state of a station becomes on a new E. -/
def refired (s : State) (i : StationNo) (w : FireWork) : FireWork :=
  if (s.station i).kind.fires = true then
    if w.fired = false ∧ s.firePointOf (s.station i) ≤ s.mu.phase then
      { w with e := s.firePointOf (s.station i), fired := true, outcome := .skipped }
    else { w with e := s.firePointOf (s.station i) }
  else { w with fired := false, outcome := .none }

theorem setFireWork_congr {i : StationNo} {f g : FireWork → FireWork} {s : State} (h : f (s.fireWork i) = g (s.fireWork i)) :
    setFireWork i f s = setFireWork i g s := by
  have h : f s.fu.work[i] = g s.fu.work[i] := h
  simp only [setFireWork, modifyAt, h]

theorem recomputeStation_fu (i : StationNo) (s : State) :
    (recomputeStation i s).fu = (setFireWork i (refired s i) s).fu := by
  by_cases h : (s.station i).kind.fires = true
  · by_cases hc : (s.fireWork i).fired = false ∧ s.firePointOf (s.station i) ≤ s.mu.phase
    · rw [recomputeStation_skipped h hc.1 hc.2, stationMissed_fu]
      exact congrArg State.fu (setFireWork_congr (by rw [refired, if_pos h, if_pos hc]))
    · have hc' : (s.fireWork i).fired = true ∨ s.mu.phase < s.firePointOf (s.station i) := by
        by_cases hf : (s.fireWork i).fired = true
        · exact .inl hf
        · exact .inr (by by_contra hn; exact hc ⟨by simpa using hf, by omega⟩)
      rw [recomputeStation_set h hc']
      exact congrArg State.fu (setFireWork_congr (by rw [refired, if_pos h, if_neg hc]))
  · rw [recomputeStation_idle (by simpa using h)]
    exact congrArg State.fu (setFireWork_congr (by rw [refired, if_neg h]))

theorem fireWork_recomputeStation (i : StationNo) (s : State) :
    (recomputeStation i s).fireWork i = refired s i (s.fireWork i) := by
  have h := recomputeStation_fu i s
  change (recomputeStation i s).fu.work[i] = _
  rw [h]
  exact fireWork_setFireWork i _ s

theorem fireWork_recomputeStation_other (i j : StationNo) (s : State) (hj : j ≠ i) :
    (recomputeStation i s).fireWork j = s.fireWork j := by
  change (recomputeStation i s).fu.work[j] = _
  rw [recomputeStation_fu i s]
  exact fireWork_setFireWork_other i j _ s hj

theorem recomputeStation_tables (i : StationNo) (s : State) : (recomputeStation i s).fu.stations = s.fu.stations ∧
    (recomputeStation i s).fu.curves = s.fu.curves ∧ (recomputeStation i s).fu.outputs = s.fu.outputs ∧
    (recomputeStation i s).fu.latchedSpeed = s.fu.latchedSpeed := by
  rw [recomputeStation_fu i s]
  exact ⟨rfl, rfl, rfl, rfl⟩

/-- The track, the queue and the printer port of a station on a new E: nothing changes unless it is SKIPPED. -/
theorem recomputeStation_rests {i : StationNo} {s : State} (h : (s.station i).kind.fires = false ∨
    (s.fireWork i).fired = true ∨ s.mu.phase < s.firePointOf (s.station i)) :
    (recomputeStation i s).tu = s.tu ∧ (recomputeStation i s).pp = s.pp ∧ (recomputeStation i s).gm = s.gm := by
  by_cases hk : (s.station i).kind.fires = true
  · rw [recomputeStation_set hk (h.resolve_left (by rw [hk]; exact Bool.noConfusion))]
    exact ⟨rfl, rfl, rfl⟩
  · rw [recomputeStation_idle (by simpa using hk)]
    exact ⟨rfl, rfl, rfl⟩

theorem recomputeStation_kept (i : StationNo) (s : State) : s.ContentsKept (recomputeStation i s) := by
  by_cases h : (s.station i).kind.fires = true ∧ (s.fireWork i).fired = false ∧ s.firePointOf (s.station i) ≤ s.mu.phase
  · obtain ⟨hk, hf, he⟩ := h
    rw [recomputeStation_skipped hk hf he]
    exact (State.ContentsKept.of_tu (by simp)).trans (stationMissed_kept i _)
  · refine .of_tu (recomputeStation_rests ?_).1
    by_cases hk : (s.station i).kind.fires = true
    · by_cases hf : (s.fireWork i).fired = true
      · exact .inr (.inl hf)
      · exact .inr (.inr (by by_contra hn; exact h ⟨hk, by simpa using hf, by omega⟩))
    · exact .inl (by simpa using hk)

end Sys2Proof.Machine
end

section
/-! PROOFS. STATION and CURVE writes. -/

namespace Sys2Proof.Machine

/-! ## A station skipped outside the boundary -/

theorem withdraw_tu_congr {s t : State} (htu : t.tu = s.tu) (hpp : t.pp = s.pp) : (withdraw t).tu = (withdraw s).tu := by
  rw [withdraw_tu, withdraw_tu, htu, hpp]

/-- The contexts and the port after a SKIPPED or NOT_REACHED fire point, by the content at the station's position. -/
theorem stationMissed_served {i : StationNo} {s : State} {c : Context} (hc : s.contentAt (s.station i).offset = .copy c)
    (h : (s.station i).Serves c) :
    (stationMissed i s).contentAt (s.station i).offset = .copy (c.mark .suspect) ∧ (stationMissed i s).pp = s.pp := by
  have hk : (s.station i).kind ≠ .print := by
    intro hp
    rcases h with h | h | h | ⟨h, -⟩ <;> rw [hp] at h <;> cases h
  rw [stationMissed_action hk, actionMissed_served hc h, contentAt_suspectAt, hc]
  exact ⟨rfl, rfl⟩

theorem stationMissed_untagged {i : StationNo} {s : State} {c : Context} (hk : (s.station i).kind = .print)
    (hc : s.contentAt (s.station i).offset = .copy c) (ht : c.tag = none) :
    (stationMissed i s).contentAt (s.station i).offset = .copy (c.mark .suspect) ∧ (stationMissed i s).pp = s.pp := by
  rw [stationMissed_print hk, printNotTaken_untagged (by rw [hc]; exact ht), contentAt_suspectAt, hc]
  exact ⟨rfl, rfl⟩

theorem stationMissed_tagged {i : StationNo} {s : State} {c : Context} {t : Tag} (hk : (s.station i).kind = .print)
    (hc : s.contentAt (s.station i).offset = .copy c) (ht : c.tag = some t) :
    (stationMissed i s).contentAt (s.station i).offset =
      .copy { c with marks := c.marks.add .suspect, tag := if ∃ j ∈ s.pp.jobs, j.tag = t then none else some t } ∧
    (stationMissed i s).pp = (withdraw s).pp := by
  rw [stationMissed_print hk, printNotTaken_tagged (t := t) (by rw [hc]; exact ht)]
  refine ⟨?_, withdraw_pp_congr rfl⟩
  rw [contentAt_withdraw, contentAt_suspectAt, hc]
  have htag : (c.mark .suspect).tag = some t := ht
  simp only [Content.mapContext, withdrawContent, htag, Option.map_some, Option.getD_some, suspectAt_pp, hasJob_iff]
  split
  · rfl
  · rw [← ht]; rfl

theorem stationMissed_ghost {i : StationNo} {s : State} {t : Tag} (hk : (s.station i).kind = .print)
    (hc : s.contentAt (s.station i).offset = .ghost (some t)) : stationMissed i s = withdraw s := by
  rw [stationMissed_print hk, printNotTaken_tagged (t := t) (by rw [hc]; rfl), suspectAt_of_not_isCopy (by rw [hc]; rfl)]

theorem stationMissed_rests {i : StationNo} {s : State}
    (h : (s.station i).kind = .gate ∨ (s.station i).kind = .stack ∨
      (s.station i).kind ≠ .print ∧ (s.contentAt (s.station i).offset).isCopy = false ∨
      s.contentAt (s.station i).offset = .empty ∨ s.contentAt (s.station i).offset = .ghost none ∨
      (∃ c, s.contentAt (s.station i).offset = .copy c ∧ (s.station i).kind = .insert ∧
        c.values.callsFor (s.station i).feeder = false)) : stationMissed i s = s := by
  have noCopy (hc : (s.contentAt (s.station i).offset).isCopy = false) (ht : (s.contentAt (s.station i).offset).tag = none) :
      stationMissed i s = s := by
    by_cases hk : (s.station i).kind = .print
    · rw [stationMissed_print hk, printNotTaken_untagged ht, suspectAt_of_not_isCopy hc]
    · rw [stationMissed_action hk, actionMissed_rests (.inl hc)]
  rcases h with h | h | ⟨hk, hc⟩ | h | h | ⟨c, hc, hk, hcall⟩
  · rw [stationMissed_action (by rw [h]; exact StationKind.noConfusion), actionMissed_other (.inl h)]
  · rw [stationMissed_action (by rw [h]; exact StationKind.noConfusion), actionMissed_other (.inr h)]
  · rw [stationMissed_action hk, actionMissed_rests (.inl hc)]
  · exact noCopy (by rw [h]; rfl) (by rw [h]; rfl)
  · exact noCopy (by rw [h]; rfl) (by rw [h]; rfl)
  · rw [stationMissed_action (by rw [hk]; exact StationKind.noConfusion), actionMissed_rests (.inr ⟨c, hc, hk, hcall⟩)]

theorem stationMissed_elsewhere {i : StationNo} {s : State} (hk : (s.station i).kind ≠ .print) :
    (stationMissed i s).pp = s.pp ∧ (stationMissed i s).gm = s.gm ∧
      ∀ pos, pos ≠ (s.station i).offset → (stationMissed i s).contentAt pos = s.contentAt pos := by
  rw [stationMissed_action hk]
  refine ⟨by simp, by simp, fun pos hpos => ?_⟩
  rcases actionMissed_cases i s with h | h <;> rw [h]
  exact contentAt_modifyContext_other _ _ _ s hpos

/-! ## STATION -/

/-- The state in which the entry stands and the station's fire point does not yet. -/
theorem station_putStation (i j : StationNo) (e : StationEntry) (s : State) :
    (putStation i e s).station j = if j = i then e else s.station j := vector_get_set _ _ _ _

theorem station_recomputeStation (i j : StationNo) (s : State) : (recomputeStation i s).station j = s.station j :=
  congrArg (fun v : Vector StationEntry 16 => v[j]) (recomputeStation_tables i s).1

/-- An accepted STATION write at its event. -/
theorem exec_stationWrite {p : Pins} {ref : Byte} {s : State} (i : StationNo) {e : StationEntry} (hs : s.Calm) (he : e.Sound)
    (hl : s.lc.line = .stopped) (hlock : s.ll.lock = false) (hen : s.ll.writeEnable.getLsbD 0 = true) :
    exec (.stationWrite p ref (BitVec.ofNat 8 i.val :: stationOctets e)) s =
      .next (answered 0x03 (ref :: 0x01 :: BitVec.ofNat 8 i.val :: stationOctets e) (.ok 0 [])
        (setStation i e (setPins p s))) := by
  obtain ⟨hpass, hdec⟩ := station_decodes e he
  have hk : octetAt (BitVec.ofNat 8 i.val :: stationOctets e) 0 = i.val := toNat_ofNat_fin (by decide) i
  have hll : (setStation i e (setPins p s)).ll = s.ll := recomputeStation_ll i _
  have hlc : (setStation i e (setPins p s)).lc = s.lc := recomputeStation_lc i _
  refine event_record_calm hs (by decide) ?_ (by rw [hll]; omega) (by rw [hlc]; exact hs.2.2.2)
  refine (ownTableWrite_open (tb := .station) (rest := BitVec.ofNat 8 i.val :: stationOctets e) (s := setPins p s) rfl hlock
    hen).trans ?_
  rw [hk]
  refine (stoppedWrite_stopped _ _ (s := setPins p s) hl).trans ((checkedWrite_taken _ _ ?_).trans ?_)
  · rw [decide_eq_true (by have := i.isLt; omega), rangeAnswer_passed]; exact hpass
  · change (setStation _ (stationOfOctets (stationOctets e)) _, _) = _
    rw [hdec, Fin.ofNat_val_eq_self]

/-- Settles O24: the entry is put, its E computed anew, and a station skipped thereby is treated by its kind and the content. -/
theorem stationWriteSetsTheEntry : Obligations.StationWriteSetsTheEntry := by
  intro p ref s i e hs he hl hlock hen
  have hst : (putStation i e (setPins p s)).station i = e := by rw [station_putStation, if_pos rfl]
  generalize hs0 : putStation i e (setPins p s) = s0 at hst
  have hu : setStation i e (setPins p s) =
      setCheckWork i (fun _ => writtenCheckWork e s.mu.phase) (recomputeStation i s0) := by rw [← hs0]; rfl
  have hmu : s0.mu = s.mu := by rw [← hs0]; rfl
  have hpp : s0.pp = s.pp := by rw [← hs0]; rfl
  have htu : s0.tu = s.tu := by rw [← hs0]; rfl
  have hgm : s0.gm = s.gm := by rw [← hs0]; rfl
  have hcu : s0.cu = s.cu := by rw [← hs0]; rfl
  have hfire (j : StationNo) : s0.fireWork j = s.fireWork j := by rw [← hs0]; rfl
  have hadv : s0.advance e = s.advance e := by rw [← hs0]; rfl
  have hpoint : s0.firePointOf e = e.phi - min e.phi (s.advance e) := by rw [State.firePointOf, hadv]
  obtain ⟨-, tcurves, toutputs, tspeed⟩ := recomputeStation_tables i s0
  have hwork := fireWork_recomputeStation i s0
  simp only [refired, hst, hpoint, hfire, hmu] at hwork
  have hE : e.kind.fires = true → ((recomputeStation i s0).fireWork i).e = e.phi - min e.phi (s.advance e) := by
    intro hk; rw [hwork, if_pos hk]; split <;> rfl
  -- the state in which a skipped station is missed
  have hskip (hk : e.kind.fires = true) (hf : (s.fireWork i).fired = false)
      (hle : ((recomputeStation i s0).fireWork i).e ≤ s.mu.phase) :
      ∃ t : State, recomputeStation i s0 = stationMissed i t ∧ t.station i = e ∧ t.tu = s.tu ∧ t.pp = s.pp ∧ t.gm = s.gm := by
    rw [hE hk] at hle
    refine ⟨_, recomputeStation_skipped (by rw [hst]; exact hk) (by rw [hfire]; exact hf) (by rw [hst, hpoint, hmu]; exact hle),
      ?_, htu, hpp, hgm⟩
    exact hst
  have hother (hk : e.kind.fires = false ∨ (s.fireWork i).fired = true ∨
      s.mu.phase < ((recomputeStation i s0).fireWork i).e) :
      (recomputeStation i s0).tu = s.tu ∧ (recomputeStation i s0).pp = s.pp ∧ (recomputeStation i s0).gm = s.gm := by
    rw [← htu, ← hpp, ← hgm]
    refine recomputeStation_rests ?_
    rw [hst, hfire, hmu, hpoint]
    cases hf : e.kind.fires with
    | false => exact .inl rfl
    | true => rw [hE hf, hf] at hk; exact hk
  refine ⟨_, exec_stationWrite i hs he hl hlock hen, ?_⟩
  rw [hu]
  simp only [setCheckWork_mu, setCheckWork_fu, setCheckWork_au, setCheckWork_pp, setCheckWork_gm, setCheckWork_bu,
    setCheckWork_lc, setCheckWork_ll, checkWork_setCheckWork, setCheckWork_tu, tcurves, toutputs]
  have content (pos : Nat) : (setCheckWork i (fun _ => writtenCheckWork e s.mu.phase) (recomputeStation i s0)).contentAt pos =
      (recomputeStation i s0).contentAt pos := rfl
  have fire (j : StationNo) : (setCheckWork i (fun _ => writtenCheckWork e s.mu.phase) (recomputeStation i s0)).fireWork j =
      (recomputeStation i s0).fireWork j := rfl
  have advance : (setCheckWork i (fun _ => writtenCheckWork e s.mu.phase) (recomputeStation i s0)).advance e = s.advance e := by
    have hc : (recomputeStation i s0).fu.curves = s.fu.curves := tcurves.trans (by rw [← hs0]; rfl)
    have hl : (recomputeStation i s0).fu.latchedSpeed = s.fu.latchedSpeed := tspeed.trans (by rw [← hs0]; rfl)
    simp only [State.advance, setCheckWork_fu, hc, hl]
  simp only [content, fire, advance]
  refine ⟨(station_recomputeStation i i s0).trans hst, fun j hj => ⟨?_, ?_, ?_⟩, hE, fun hk hf hle => ?_, fun hk => ?_, rfl,
    by rw [← hs0]; rfl, by rw [← hs0]; rfl, by rw [recomputeStation_mu, hmu], by rw [recomputeStation_lc, ← hs0]; rfl,
    by rw [recomputeStation_au, ← hs0]; rfl, by rw [recomputeStation_bu, ← hs0]; rfl, by rw [recomputeStation_ll, ← hs0]; rfl,
    fun hk => ?_, fun c hk hf hle hc => ⟨fun hserves => ?_, fun hp ht => ?_, fun t hp ht => ?_⟩, fun hk => ?_, fun hrest => ?_,
    fun t hp hf hle hc => ?_⟩
  · exact (station_recomputeStation i j s0).trans (by rw [← hs0, station_putStation, if_neg hj]; rfl)
  · refine (checkWork_setCheckWork_other i j _ _ hj).trans ?_
    rw [State.checkWork, recomputeStation_cu, hcu]; rfl
  · rw [fireWork_recomputeStation_other i j s0 hj, hfire]
  · rw [hE hk] at hle
    rw [hwork, if_pos hk, if_pos ⟨hf, hle⟩]; exact ⟨rfl, rfl⟩
  · rw [hwork, hk]; exact ⟨rfl, rfl⟩
  · rw [hE hk, hwork, if_pos hk]
  · obtain ⟨t, ht, hte, httu, htpp, -⟩ := hskip hk hf hle
    have := stationMissed_served (i := i) (s := t) (c := c) (by rw [hte, contentAt_of_tu httu]; exact hc)
      (by rw [hte]; exact hserves)
    rw [ht, ← htpp]
    rw [hte] at this
    exact this
  · obtain ⟨t, hr, hte, httu, htpp, -⟩ := hskip hk hf hle
    have := stationMissed_untagged (i := i) (s := t) (c := c) (by rw [hte]; exact hp)
      (by rw [hte, contentAt_of_tu httu]; exact hc) ht
    rw [hr, ← htpp]
    rw [hte] at this
    exact this
  · obtain ⟨u, hr, hte, httu, htpp, -⟩ := hskip hk hf hle
    have := stationMissed_tagged (i := i) (s := u) (c := c) (t := t) (by rw [hte]; exact hp)
      (by rw [hte, contentAt_of_tu httu]; exact hc) ht
    rw [hr, ← withdraw_pp_congr htpp, ← htpp]
    rw [hte] at this
    exact this
  · by_cases hd : e.kind.fires = true ∧ (s.fireWork i).fired = false ∧ ((recomputeStation i s0).fireWork i).e ≤ s.mu.phase
    · obtain ⟨t, ht, hte, httu, htpp, htgm⟩ := hskip hd.1 hd.2.1 hd.2.2
      obtain ⟨h1, h2, h3⟩ := stationMissed_elsewhere (i := i) (s := t) (by rw [hte]; exact hk)
      rw [ht]
      refine ⟨h1.trans htpp, h2.trans htgm, fun pos hpos => (h3 pos (by rw [hte]; exact hpos)).trans (contentAt_of_tu httu pos)⟩
    · obtain ⟨h1, h2, h3⟩ := hother (by
        cases hf : e.kind.fires with
        | false => exact .inl rfl
        | true =>
          cases hg : (s.fireWork i).fired with
          | true => exact .inr (.inl rfl)
          | false => exact .inr (.inr (by by_contra hn; exact hd ⟨hf, hg, by omega⟩)))
      exact ⟨h2, h3, fun pos _ => contentAt_of_tu h1 pos⟩
  · by_cases hd : e.kind.fires = true ∧ (s.fireWork i).fired = false ∧ ((recomputeStation i s0).fireWork i).e ≤ s.mu.phase
    · obtain ⟨t, ht, hte, httu, htpp, htgm⟩ := hskip hd.1 hd.2.1 hd.2.2
      have := stationMissed_rests (i := i) (s := t) (by
        simp only [hte, contentAt_of_tu httu]
        obtain ⟨h1, h2, h3⟩ := hd
        rcases hrest with h | h | h | h
        · rw [h1] at h; cases h
        · rw [h2] at h; cases h
        · omega
        · exact h)
      rw [ht, this]
      exact ⟨httu, htpp, htgm⟩
    · refine hother ?_
      cases hf : e.kind.fires with
      | false => exact .inl rfl
      | true =>
        cases hg : (s.fireWork i).fired with
        | true => exact .inr (.inl rfl)
        | false => exact .inr (.inr (by by_contra hn; exact hd ⟨hf, hg, by omega⟩))
  · obtain ⟨u, hr, hte, httu, htpp, -⟩ := hskip (by rw [hp]; rfl) hf hle
    rw [hr, stationMissed_ghost (i := i) (s := u) (t := t) (by rw [hte]; exact hp) (by rw [hte, contentAt_of_tu httu]; exact hc)]
    exact ⟨withdraw_pp_congr htpp, withdraw_tu_congr httu htpp⟩

/-! ## CURVE -/

theorem mem_split_stationNos (i : StationNo) : ∃ front back, stationNos = front ++ i :: back ∧ i ∉ front ∧ i ∉ back := by
  obtain ⟨front, back, h⟩ := List.append_of_mem (mem_stationNos i)
  have hnd : (front ++ i :: back).Nodup := h ▸ (by decide : stationNos.Nodup)
  obtain ⟨-, hb, hdisj⟩ := List.nodup_append.mp hnd
  exact ⟨front, back, h, fun hf => hdisj i hf i (by simp) rfl, (List.nodup_cons.mp hb).1⟩

/-- What a list of stations is run through keeps, each of its operations keeps. -/
theorem foldl_inv (P : State → Prop) (f : StationNo → State → State) (l : List StationNo) (h : ∀ i ∈ l, ∀ s, P s → P (f i s))
    {s : State} (hs : P s) : P (l.foldl (fun s i => f i s) s) := by
  induction l generalizing s with
  | nil => exact hs
  | cons i l ih => exact ih (fun j hj => h j (List.mem_cons_of_mem _ hj)) (h i (by simp) s hs)

/-- A station's turn in a run through all stations. -/
theorem forStations_turn (f : StationNo → State → State) (i : StationNo) (s : State) :
    ∃ (t : State) (front back : List StationNo), forStations f s = back.foldl (fun s j => f j s) (f i t) ∧ t = front.foldl (fun s j => f j s) s ∧
      i ∉ front ∧ i ∉ back := by
  obtain ⟨front, back, h, hf, hb⟩ := mem_split_stationNos i
  exact ⟨_, front, back, by rw [forStations, h, List.foldl_append]; rfl, rfl, hf, hb⟩

/-- What a new E of a station reads. -/
structure SamePoints (s t : State) : Prop where
  stations : t.fu.stations = s.fu.stations
  curves : t.fu.curves = s.fu.curves
  outputs : t.fu.outputs = s.fu.outputs
  speed : t.fu.latchedSpeed = s.fu.latchedSpeed
  mu : t.mu = s.mu

theorem SamePoints.trans {s t u : State} (h : SamePoints s t) (k : SamePoints t u) : SamePoints s u :=
  ⟨k.stations.trans h.stations, k.curves.trans h.curves, k.outputs.trans h.outputs, k.speed.trans h.speed, k.mu.trans h.mu⟩

theorem SamePoints.refired {s t : State} (h : SamePoints s t) (i : StationNo) (w : FireWork) : refired t i w = refired s i w := by
  unfold Machine.refired State.firePointOf State.advance State.station
  rw [h.stations, h.curves, h.speed, h.mu]

/-- One station's turn at a CURVE write in STOPPED. -/
def curveTurn (k : Fin 4) (i : StationNo) (s : State) : State :=
  if (s.station i).curve = some k ∧ (s.station i).kind.fires then recomputeStation i s else s

theorem recomputeCurve_eq (k : Fin 4) (s : State) : recomputeCurve k s = forStations (curveTurn k) s := rfl

theorem curveTurn_points (k : Fin 4) (i : StationNo) (s : State) : SamePoints s (curveTurn k i s) := by
  unfold curveTurn
  split
  · obtain ⟨h1, h2, h3, h4⟩ := recomputeStation_tables i s
    exact ⟨h1, h2, h3, h4, recomputeStation_mu i s⟩
  · exact ⟨rfl, rfl, rfl, rfl, rfl⟩

theorem curveTurn_other (k : Fin 4) {i j : StationNo} (h : j ≠ i) (s : State) : (curveTurn k i s).fireWork j = s.fireWork j := by
  unfold curveTurn; split; exacts [fireWork_recomputeStation_other i j s h, rfl]

theorem curveTurn_kept (k : Fin 4) (i : StationNo) (s : State) : s.ContentsKept (curveTurn k i s) := by
  unfold curveTurn; split; exacts [recomputeStation_kept i s, .refl s]

/-- The stations before and behind a station's turn. -/
theorem curveTurns_frame (k : Fin 4) (l : List StationNo) (i : StationNo) (h : i ∉ l) (s : State) :
    SamePoints s (l.foldl (fun s j => curveTurn k j s) s) ∧ (l.foldl (fun s j => curveTurn k j s) s).fireWork i = s.fireWork i ∧
      s.ContentsKept (l.foldl (fun s j => curveTurn k j s) s) := by
  refine foldl_inv (fun t => SamePoints s t ∧ t.fireWork i = s.fireWork i ∧ s.ContentsKept t) (curveTurn k) l
    (fun j hj t ⟨hp, hw, hc⟩ => ⟨hp.trans (curveTurn_points k j t), ?_, hc.trans (curveTurn_kept k j t)⟩)
    ⟨⟨rfl, rfl, rfl, rfl, rfl⟩, rfl, .refl s⟩
  exact (curveTurn_other k (fun (e : i = j) => h (e ▸ hj)) t).trans hw

theorem recomputeCurve_points (k : Fin 4) (s : State) : SamePoints s (recomputeCurve k s) :=
  forStations_inv (fun t => SamePoints s t) (curveTurn k) (fun i t h => h.trans (curveTurn_points k i t)) s ⟨rfl, rfl, rfl, rfl, rfl⟩

/-- A station on a new curve: its working state, and the context that it should have served. -/
theorem recomputeCurve_station (k : Fin 4) (i : StationNo) (s : State) :
    (recomputeCurve k s).fireWork i =
      (if (s.station i).curve = some k ∧ (s.station i).kind.fires then refired s i (s.fireWork i) else s.fireWork i) ∧
    ∀ d, (s.station i).curve = some k → (s.station i).kind.fires = true → (s.fireWork i).fired = false →
      s.firePointOf (s.station i) ≤ s.mu.phase → s.contentAt (s.station i).offset = .copy d →
      (s.station i).Serves d ∨ (s.station i).kind = .print →
      ∃ f, (recomputeCurve k s).contentAt (s.station i).offset = .copy f ∧ f.copy = d.copy ∧ f.marks.suspect = true := by
  obtain ⟨t, front, back, hend, ht, hfront, hback⟩ := forStations_turn (curveTurn k) i s
  obtain ⟨hp, hw, hc⟩ := curveTurns_frame k front i hfront s
  rw [← ht] at hp hw hc
  obtain ⟨-, hw', hc'⟩ := curveTurns_frame k back i hback (curveTurn k i t)
  rw [← hend, ← recomputeCurve_eq] at hw' hc'
  clear hend
  generalize recomputeCurve k s = u at hw' hc' ⊢
  have hst : t.station i = s.station i := congrArg (fun v : Vector StationEntry 16 => v[i]) hp.stations
  constructor
  · rw [hw', curveTurn, hst]
    split
    · rw [fireWork_recomputeStation, hp.refired, hw]
    · exact hw
  · intro d hk hfires hf he hd hserves
    obtain ⟨d', hd', hkept⟩ := hd ▸ hc (s.station i).offset
    have hpoint : t.firePointOf (t.station i) = s.firePointOf (s.station i) := by
      unfold State.firePointOf State.advance; rw [hst, hp.curves, hp.speed]
    have hturn : curveTurn k i t = stationMissed i (setFireWork i (fun w =>
        { w with e := t.firePointOf (t.station i), fired := true, outcome := .skipped }) t) := by
      rw [curveTurn, if_pos (by rw [hst]; exact ⟨hk, hfires⟩)]
      exact recomputeStation_skipped (by rw [hst]; exact hfires) (by rw [hw]; exact hf) (by rw [hpoint, hp.mu]; exact he)
    generalize hv : setFireWork i (fun w =>
        { w with e := t.firePointOf (t.station i), fired := true, outcome := .skipped }) t = v at hturn
    have hvst : v.station i = s.station i := by rw [← hv]; exact hst
    have hvc : v.contentAt (v.station i).offset = .copy d' := by rw [hvst, ← hv]; exact hd'
    have hmissed : ∃ f, (stationMissed i v).contentAt (v.station i).offset = .copy f ∧ f.copy = d.copy ∧
        f.marks.suspect = true := by
      rcases hserves with hserves | hprint
      · have hserves' : (v.station i).Serves d' := by
          rw [hvst]; unfold StationEntry.Serves at hserves ⊢; rw [hkept.values]; exact hserves
        exact ⟨_, (stationMissed_served hvc hserves').1, hkept.copy, rfl⟩
      · rw [stationMissed_print (by rw [hvst]; exact hprint)]
        obtain ⟨f, hfc, hfk, hfs⟩ := printNotTaken_suspect hvc
        exact ⟨f, hfc, hfk.copy.trans hkept.copy, hfs⟩
    obtain ⟨f, hfc, hfcopy, hfs⟩ := hmissed
    rw [hvst, ← hturn] at hfc
    have hback := hc' (s.station i).offset
    rw [hfc] at hback
    obtain ⟨g, hg, hgk⟩ := hback
    exact ⟨g, hg, hgk.copy.trans hfcopy, hgk.suspect hfs⟩

/-- An accepted CURVE write at its event. -/
theorem exec_curveWrite {p : Pins} {ref : Byte} {s : State} (k : Fin 4) {c : Curve} (hs : s.Calm) (hc : c.Sound)
    (hlock : s.ll.lock = false) (hen : s.ll.writeEnable.getLsbD 1 = true) :
    exec (.curveWrite p ref (BitVec.ofNat 8 k.val :: curveOctets c)) s =
      .next (answered 0x03 (ref :: 0x02 :: BitVec.ofNat 8 k.val :: curveOctets c) (.ok 0 []) (setCurve k c (setPins p s))) := by
  obtain ⟨hpass, hdec⟩ := curve_decodes c hc
  have hk : octetAt (BitVec.ofNat 8 k.val :: curveOctets c) 0 = k.val := toNat_ofNat_fin (by decide) k
  have hll : (setCurve k c (setPins p s)).ll = s.ll := setCurve_ll k c _
  have hlc : (setCurve k c (setPins p s)).lc = s.lc := setCurve_lc k c _
  refine event_record_calm hs (by decide) ?_ (by rw [hll]; omega) (by rw [hlc]; exact hs.2.2.2)
  refine (ownTableWrite_open (tb := .curve) (rest := BitVec.ofNat 8 k.val :: curveOctets c) (s := setPins p s) rfl hlock
    hen).trans ?_
  rw [hk]
  refine (checkedWrite_taken _ _ ?_).trans ?_
  · rw [decide_eq_true (by have := k.isLt; omega), rangeAnswer_passed]; exact hpass
  · change (setCurve _ (curveOfOctets (curveOctets c)) _, _) = _
    rw [hdec, Fin.ofNat_val_eq_self]

theorem setCurve_stopped {k : Fin 4} {c : Curve} {s : State} (h : s.lc.line = .stopped) :
    setCurve k c s = recomputeCurve k (putCurve k (fun _ => { active := c, shadow := c, pending := false }) s) := if_pos h

theorem setCurve_firing {k : Fin 4} {c : Curve} {s : State} (h : s.lc.line ≠ .stopped) :
    setCurve k c s = putCurve k (fun slot => { slot with shadow := c, pending := true }) s := if_neg h

/-- A CURVE write leaves the other curves and the station table. -/
theorem setCurve_others (k : Fin 4) (c : Curve) (s : State) :
    (∀ j, j ≠ k → (setCurve k c s).fu.curves[j] = s.fu.curves[j]) ∧ (setCurve k c s).fu.stations = s.fu.stations := by
  by_cases h : s.lc.line = .stopped
  · rw [setCurve_stopped h]
    obtain ⟨hst, hcu, -, -, -⟩ := recomputeCurve_points k (putCurve k (fun _ => { active := c, shadow := c, pending := false }) s)
    exact ⟨fun j hj => by rw [hcu]; exact modifyAt_other _ _ _ _ hj, hst⟩
  · rw [setCurve_firing h]
    exact ⟨fun j hj => modifyAt_other _ _ _ _ hj, rfl⟩

/-- Settles O25: in STOPPED each station that names the curve has its turn; elsewhere the shadow alone is written. -/
theorem curveWriteByLineState : Obligations.CurveWriteByLineState := by
  intro p ref s k c hs hc hlock hen
  obtain ⟨hothers, hstations⟩ := setCurve_others k c (setPins p s)
  refine ⟨_, exec_curveWrite k hs hc hlock hen, fun hl => ?_, fun hl => setCurve_firing (s := setPins p s) hl, hothers, hstations,
    setCurve_mu _ _ _, setCurve_lc _ _ _⟩
  rw [setCurve_stopped (s := setPins p s) hl]
  generalize hv : putCurve k (fun _ => { active := c, shadow := c, pending := false }) (setPins p s) = v
  have hcurve : v.fu.curves[k] = { active := c, shadow := c, pending := false } := by
    rw [← hv]; exact modifyAt_self _ _ _
  have hst (i : StationNo) : v.station i = s.station i := by rw [← hv]; rfl
  have hfire (i : StationNo) : v.fireWork i = s.fireWork i := by rw [← hv]; rfl
  have hmu : v.mu = s.mu := by rw [← hv]; rfl
  have hat (pos : Nat) : v.contentAt pos = s.contentAt pos := contentAt_of_tu (by rw [← hv]; rfl) pos
  have hspeed : v.fu.latchedSpeed = s.fu.latchedSpeed := by rw [← hv]; rfl
  have hpoint (i : StationNo) (hk : (s.station i).curve = some k) : v.firePointOf (s.station i) =
      (s.station i).phi - min (s.station i).phi (clampedAdvance c s.fu.latchedSpeed) := by
    simp only [State.firePointOf, State.advance, hk, hcurve, hspeed]
  have hturn := recomputeCurve_station k (s := v)
  have hcurves := (recomputeCurve_points k v).curves
  generalize recomputeCurve k v = u at hturn hcurves ⊢
  refine ⟨by rw [hcurves, hcurve], fun i hf hk => ?_, fun i hne => ?_⟩
  · obtain ⟨hwork, hserved⟩ := hturn i
    rw [hst, if_pos ⟨hk, hf⟩, refired, hst, if_pos hf, hfire, hpoint i hk, hmu] at hwork
    have he : (u.fireWork i).e =
        (s.station i).phi - min (s.station i).phi (clampedAdvance c s.fu.latchedSpeed) := by
      rw [hwork]; split <;> rfl
    refine ⟨he, ?_, fun d hfd hle hd hserves => ?_⟩
    · rw [he]; exact hwork
    · simp only [hst, hfire, hmu, hat, hpoint i hk] at hserved
      rw [he] at hle
      refine hserved d hk hf hfd hle hd ?_
      unfold StationEntry.Serves
      tauto
  · rw [(hturn i).1, hst, hfire, if_neg]
    rintro ⟨h1, h2⟩
    rcases hne with hne | hne
    · rw [hne] at h2; cases h2
    · exact hne h1

end Sys2Proof.Machine
end

section
/-! PROOFS. A COPY record: its fields, its refusals, and its acceptance. -/

namespace Sys2Proof.Machine

/-! ## The fields of a COPY payload -/

/-- A COPY payload by its fields (section 11.3). -/
def copyFrame (ref : Byte) (seq : Seq) (number : Word16) (plan count : Byte) (lengths text : List Byte) : List Byte :=
  ref :: octets3 seq.toNat ++ octets2 number.toNat ++ [plan, count] ++ lengths ++ text

section
variable (ref : Byte) (seq : Seq) (number : Word16) (plan count : Byte) (lengths text : List Byte)

theorem copyFrame_eq : copyFrame ref seq number plan count lengths text =
    ref :: BitVec.ofNat 8 (seq.toNat / 65536) :: BitVec.ofNat 8 (seq.toNat / 256) :: BitVec.ofNat 8 seq.toNat ::
      BitVec.ofNat 8 (number.toNat / 256) :: BitVec.ofNat 8 number.toNat :: plan :: count :: (lengths ++ text) := by
  simp only [copyFrame, octets3, octets2, List.cons_append, List.nil_append]

theorem copyFrame_length : (copyFrame ref seq number plan count lengths text).length = 8 + lengths.length + text.length := by
  rw [copyFrame_eq]; simp only [List.length_cons, List.length_append]; omega

theorem copyFrame_plan : octetAt (copyFrame ref seq number plan count lengths text) 6 = plan.toNat := by
  rw [copyFrame_eq]; rfl

theorem copyFrame_count : octetAt (copyFrame ref seq number plan count lengths text) 7 = count.toNat := by
  rw [copyFrame_eq]; rfl

theorem copySeq_copyFrame : copySeq (copyFrame ref seq number plan count lengths text) = seq := by
  have hlt := seq.isLt
  apply BitVec.eq_of_toNat_eq
  simp only [copySeq, copyFrame_eq, fieldAt3, fieldAt2, octetAt, List.getD_cons_succ, List.getD_cons_zero, BitVec.toNat_ofNat]
  omega

theorem copyBundle_copyFrame : copyBundle (copyFrame ref seq number plan count lengths text) = number := by
  have hlt := number.isLt
  apply BitVec.eq_of_toNat_eq
  simp only [copyBundle, copyFrame_eq, fieldAt2, octetAt, List.getD_cons_succ, List.getD_cons_zero, BitVec.toNat_ofNat]
  omega

/-- The line-length octets: those that stand there, where none of the text is taken for one. -/
theorem copyLengths_copyFrame (h : lengths.length = count.toNat ∨ lengths.length < count.toNat ∧ text = []) :
    copyLengths (copyFrame ref seq number plan count lengths text) = lengths.map BitVec.toNat := by
  rw [copyLengths, copyFrame_count, copyFrame_eq]
  congr 1
  change (lengths ++ text).take count.toNat = lengths
  rcases h with h | ⟨h, rfl⟩
  · rw [← h]; simp
  · rw [List.append_nil, List.take_of_length_le (by omega)]

theorem copyText_copyFrame (h : lengths.length = count.toNat) :
    copyText (copyFrame ref seq number plan count lengths text) = text := by
  rw [copyText, copyFrame_count, copyFrame_eq, ← h, Nat.add_comm]
  change (lengths ++ text).drop lengths.length = text
  simp

end

/-! ## The FORMAT check (R40, R189) -/

theorem copyFormat_short {payload : List Byte} (h : payload.length < 8) : copyFormat payload = some 0x03 := if_pos h

theorem copyFormat_count {payload : List Byte} (hlen : 8 ≤ payload.length) (h : octetAt payload 7 = 0 ∨ 6 < octetAt payload 7) :
    copyFormat payload = some 0x01 := by
  rw [copyFormat, if_neg (by omega), if_pos h]

theorem copyFormat_long {payload : List Byte} (hlen : 8 ≤ payload.length) (h1 : 1 ≤ octetAt payload 7) (h6 : octetAt payload 7 ≤ 6)
    (h : ∃ n ∈ copyLengths payload, 40 < n) : copyFormat payload = some 0x02 := by
  rw [copyFormat, if_neg (by omega), if_neg (by omega), if_pos (by simpa using h)]

theorem copyFormat_mismatch {payload : List Byte} (hlen : 8 ≤ payload.length) (h1 : 1 ≤ octetAt payload 7)
    (h6 : octetAt payload 7 ≤ 6) (hshort : ∀ n ∈ copyLengths payload, n ≤ 40)
    (h : (copyLengths payload).length < octetAt payload 7 ∨ (copyLengths payload).sum ≠ (copyText payload).length) :
    copyFormat payload = some 0x03 := by
  rw [copyFormat, if_neg (by omega), if_neg (by omega), if_neg (by simpa using hshort), if_pos h]

theorem copyFormat_passes {payload : List Byte} (hlen : 8 ≤ payload.length) (h1 : 1 ≤ octetAt payload 7)
    (h6 : octetAt payload 7 ≤ 6) (hshort : ∀ n ∈ copyLengths payload, n ≤ 40)
    (hn : (copyLengths payload).length = octetAt payload 7) (hsum : (copyLengths payload).sum = (copyText payload).length) :
    copyFormat payload = none := by
  rw [copyFormat, if_neg (by omega), if_neg (by omega), if_neg (by simpa using hshort), if_neg (by omega)]

/-- A record whose lengths are those of its text passes the FORMAT check. -/
theorem copyFormat_copyFrame {ref : Byte} {seq : Seq} {number : Word16} {plan count : Byte} {lengths text : List Byte}
    (h1 : 1 ≤ count.toNat) (h6 : count.toNat ≤ 6) (hshort : ∀ l ∈ lengths, l.toNat ≤ 40) (hn : lengths.length = count.toNat)
    (hsum : (lengths.map BitVec.toNat).sum = text.length) :
    copyFormat (copyFrame ref seq number plan count lengths text) = none := by
  have hlen := copyFrame_length ref seq number plan count lengths text
  have hc := copyFrame_count ref seq number plan count lengths text
  have hl := copyLengths_copyFrame ref seq number plan count lengths text (.inl hn)
  have ht := copyText_copyFrame ref seq number plan count lengths text hn
  exact copyFormat_passes (by omega) (by omega) (by omega) (by simpa [hl] using hshort) (by simp [hl, hc, hn])
    (by rw [hl, ht]; exact hsum)

/-! ## The checks behind FORMAT -/

theorem copyRefusal_format {payload : List Byte} {d : Byte} {s : State} (h : copyFormat payload = some d) :
    copyRefusal payload s = some (.refusal .format d) := by
  simp only [copyRefusal, h]

theorem copyRefusal_plan {payload : List Byte} {s : State} (h : copyFormat payload = none) (hp : 64 ≤ octetAt payload 6) :
    copyRefusal payload s = some (.refusal .range 0x03) := by
  simp only [copyRefusal, h]
  exact if_pos (by omega)

theorem copyRefusal_sequence {payload : List Byte} {s : State} (h : copyFormat payload = none) (hp : octetAt payload 6 ≤ 63)
    (hseq : seqPasses s.au.lastSeq (copySeq payload) = false) :
    copyRefusal payload s = some { status := .sequence, detail := 0, data := seqOrNone s.au.lastSeq } := by
  simp only [copyRefusal, h]
  rw [if_neg (by omega), if_pos (by rw [hseq]; exact Bool.false_ne_true)]

theorem copyRefusal_bundle {payload : List Byte} {s : State} (h : copyFormat payload = none) (hp : octetAt payload 6 ≤ 63)
    (hseq : seqPasses s.au.lastSeq (copySeq payload) = true) :
    copyRefusal payload s = bundleRefusal (copyBundle payload) s.receivingBundle := by
  simp only [copyRefusal, h]
  rw [if_neg (by omega), if_neg (not_not_intro hseq)]

theorem seqPasses_of {last : Option Seq} {seq : Seq}
    (h : last = none ∨ ∃ l, last = some l ∧ 1 ≤ (seq - l).toNat ∧ (seq - l).toNat ≤ 8388608) : seqPasses last seq = true := by
  rcases h with rfl | ⟨l, rfl, h1, h2⟩
  · rfl
  · exact decide_eq_true ⟨h1, h2⟩

/-! ## The event of a COPY frame -/

/-- The receive state and the buffer with which a COPY frame is taken: of the command, or of the frame's last octet. -/
def copyTaken (p : Pins) (link : LinkController) (a : AdmissionUnit) (s : State) : State := { s with pins := p, ll := link, au := a }

theorem receivingEntry_congr {s t : State} (h : t.au = s.au) : t.receivingEntry = s.receivingEntry := by
  unfold State.receivingEntry; rw [h]

theorem freeStaging_congr {s t : State} (h : t.au = s.au) : t.freeStaging = s.freeStaging := by
  unfold State.freeStaging; rw [h]

theorem holdEntry_au_congr {s t : State} (h : t.au = s.au) : (holdEntry t).au = (holdEntry s).au := by
  unfold holdEntry reserveEntry
  rw [receivingEntry_congr h, freeStaging_congr h]
  split
  · exact h
  · cases s.freeStaging with
    | none => exact h
    | some i => simp only [setEntry, h]

theorem holdEntry_eq (s : State) : holdEntry s = { s with au := (holdEntry s).au } := by
  unfold holdEntry reserveEntry
  split
  · rfl
  · cases s.freeStaging <;> rfl

/-- A COPY command: an entry is held for it, and it ends a COPY frame that was arriving. -/
theorem exec_copy {p : Pins} {ref : Byte} {rest : List Byte} {s : State} (hres : s.inReset = false) (hr : s.ll.receive ≠ .held)
    (hroom : s.hasRoom = true) : exec (.copy p ref rest) s = .next (finish (takeFrame 0x01 (ref :: rest)
      (copyTaken p { s.ll with receive := if s.copyArriving = true then .search else s.ll.receive } (holdEntry s).au s))) := by
  refine (event_open p (arriveFrame 0x01 (ref :: rest)) s hres).trans (congrArg _ (congrArg finish ?_))
  have hheld := holdEntry_eq (setPins p s)
  have hau : (holdEntry (setPins p s)).au = (holdEntry s).au := holdEntry_au_congr rfl
  rw [arriveFrame, if_neg (show ¬ (setPins p s).ll.receive = .held from hr), if_pos rfl]
  refine (if_pos (show (setPins p s).hasRoom = true from hroom)).trans (congrArg (takeFrame 0x01 (ref :: rest)) ?_)
  have harr : (setPins p s).copyArriving = s.copyArriving := rfl
  rw [hheld, hau, harr]
  cases hc : s.copyArriving with
  | true => exact (if_pos ⟨rfl, rfl⟩).trans rfl
  | false => exact (if_neg (fun h => absurd h.1 Bool.false_ne_true)).trans rfl

/-- The last octet of a good COPY frame. -/
theorem exec_copyOctet {p : Pins} {o : Byte} {s : State} (hres : s.inReset = false) (hr : s.ll.receive = .crcLow)
    (hk : s.ll.buffer.kind = 0x01) (hcrc : s.ll.buffer.crc = s.ll.buffer.crcHigh ++ o) (hroom : s.hasRoom = true) :
    exec (.linkOctet p o) s = .next (finish (takeFrame 0x01 s.ll.buffer.payload
      (copyTaken p { s.ll with receive := .search, buffer := { s.ll.buffer with crcLow := o } } s.au s))) := by
  refine (event_open p (receiveOctet o) s hres).trans (congrArg _ (congrArg finish ?_))
  have hoct : receiveOctet o (setPins p s) = checkFrame (setBuffer (fun b => { b with crcLow := o }) (setPins p s)) := by
    unfold receiveOctet
    rw [show (setPins p s).ll.receive = .crcLow from hr]
  rw [hoct, checkFrame]
  refine (if_pos (show FrameBuffer.crc _ = _ from hcrc)).trans ?_
  rw [takeOrHold]
  refine (if_pos (show State.hasRoom _ = true from hroom)).trans ?_
  change takeFrame s.ll.buffer.kind _ _ = _
  rw [hk]
  rfl

/-- A COPY frame taken with few records in the queue, whose owner leaves it so. -/
theorem finish_copy {payload : List Byte} {v u : State} {a : Answer} (hown : ownFrame 0x01 payload v = (u, a))
    (hv : v.ll.receive ≠ .held) (hup : u.ll.upstream.length ≤ 94) (hlc : u.lc.holds.linkBacklog = false) :
    finish (takeFrame 0x01 payload v) = answered 0x01 payload a u := by
  refine finish_takeFrame hown hv ⟨fun _ => ?_, fun hb => ?_⟩
  · simp only [place_upstream, List.length_append, List.length_cons, List.length_nil]; omega
  · exact absurd hb (by simp [hlc])

/-! ## What the owner makes of a refused COPY -/

theorem copyRefusal_copyTaken {payload : List Byte} {p : Pins} {link : LinkController} {a : AdmissionUnit} {s : State}
    (h : a.lastSeq = s.au.lastSeq) : copyRefusal payload (copyTaken p link a s) = copyRefusal payload s := by
  unfold copyRefusal
  rw [show (copyTaken p link a s).au.lastSeq = s.au.lastSeq from h]
  rfl

theorem holdEntry_lastSeq (s : State) : (holdEntry s).au.lastSeq = s.au.lastSeq := by
  unfold holdEntry reserveEntry
  split
  · rfl
  · cases s.freeStaging <;> rfl

theorem holdEntry_of_receiving {s : State} {i : Fin 16} (h : s.receivingEntry = some i) : holdEntry s = s := by
  rw [holdEntry, h]; rfl

theorem holdEntry_of_free {s : State} {i : Fin 16} (h : s.receivingEntry = none) (hf : s.freeStaging = some i) :
    (holdEntry s).au = { s.au with staging := s.au.staging.set i.val .receiving, order := s.au.order ++ [i] } := by
  simp only [holdEntry, h, reserveEntry, hf]
  rfl

theorem holdEntry_of_full {s : State} (h : s.receivingEntry = none) (hf : s.freeStaging = none) : holdEntry s = s := by
  simp only [holdEntry, h, reserveEntry, hf]
  rfl

theorem ownCopy_refused {payload : List Byte} {s : State} {a : Answer} (h : copyRefusal payload s = some a) :
    ownCopy payload s = (freeReceiving s, a) := by
  simp only [ownCopy, h]

theorem ownCopy_full {payload : List Byte} {s : State} (h : copyRefusal payload s = none) (hr : s.receivingEntry = none)
    (hf : s.freeStaging = none) : ownCopy payload s = (s, .refusal .full 0) := by
  simp only [ownCopy, h, holdEntry_of_full hr hf, hr]

/-- The entry reserved is the one in RECEIVING where none was before. -/
theorem receivingEntry_reserved {s t : State} {i : Fin 16} (h : s.receivingEntry = none)
    (ht : t.au.staging = s.au.staging.set i.val .receiving) : t.receivingEntry = some i := by
  have hnone := (receivingEntry_eq_none s).mp h
  have key (j : Fin 16) : t.au.staging[j] = .receiving ↔ j = i := by
    rw [ht, vector_get_set]
    by_cases hj : j = i
    · simp [hj]
    · rw [if_neg hj]; exact iff_of_false (hnone j) hj
  cases hf : t.receivingEntry with
  | none => exact absurd ((key i).mpr rfl) ((receivingEntry_eq_none t).mp hf i)
  | some j => rw [(key j).mp (receiving_of_receivingEntry t hf)]

theorem set_set_self {α : Type} {n : Nat} (v : Vector α n) (i : Fin n) (x y : α) (h : v[i] = y) :
    (v.set i.val x).set i.val y = v := by
  rw [Vector.set_set]
  refine Vector.ext fun k hk => ?_
  rw [Vector.getElem_set]
  split
  · rename_i he; subst he; exact h.symm
  · rfl

/-- Settles O31: the fields' refusals, then the event by its entry. -/
theorem copyIsRefused : Obligations.CopyIsRefused := by
  refine ⟨fun p ref rest s hs hnone harr => ?_, fun payload s h => copyRefusal_format (copyFormat_short h),
    fun ref plan count seq number lengths text payload s hpay => ?_, fun p ref rest s cmd link hres hlen hb hcmd => ?_⟩
  · obtain ⟨hres, hrec, hlen, hb⟩ := hs
    have hroom : s.hasRoom = true := hasRoom_of_short (by omega)
    have hcmd := exec_copy (p := p) (ref := ref) (rest := rest) hres hrec hroom
    have hlink : ({ s.ll with receive := if s.copyArriving = true then .search else s.ll.receive } : LinkController) = s.ll := by
      rw [harr]; rfl
    rw [hlink] at hcmd
    have hsame (hf : s.freeStaging = none) : exec (.copy p ref rest) s =
        .next (finish (takeFrame 0x01 (ref :: rest) (setPins p s))) := by
      rw [hcmd, holdEntry_of_full hnone hf]; rfl
    refine ⟨fun a ha hf => ?_, fun ha hf => ?_, fun i a ha hf => ?_⟩
    · rw [hsame hf]
      refine congrArg _ (finish_copy ?_ hrec (show s.ll.upstream.length ≤ 94 by omega) hb)
      refine (ownCopy_refused (s := setPins p s) ha).trans ?_
      rw [freeReceiving_none (s := setPins p s) hnone]; rfl
    · rw [hsame hf]
      exact congrArg _ (finish_copy (ownCopy_full (s := setPins p s) ha hnone hf) hrec
        (show s.ll.upstream.length ≤ 94 by omega) hb)
    · have hau := holdEntry_of_free hnone hf
      have hown : ownFrame 0x01 (ref :: rest) (copyTaken p s.ll (holdEntry s).au s) =
          (freeEntry i (copyTaken p s.ll (holdEntry s).au s), a) := by
        refine (ownCopy_refused ((copyRefusal_copyTaken (holdEntry_lastSeq s)).trans ha)).trans ?_
        rw [freeReceiving_eq (receivingEntry_reserved (s := s) hnone (by rw [copyTaken, hau]))]
      refine ⟨_, hcmd.trans (congrArg _ (finish_copy hown hrec ?_ ?_)), ?_, ?_, ?_, ?_, rfl, fun hi => ?_, rfl, rfl, rfl,
        rfl, rfl, rfl, rfl, rfl⟩
      · change s.ll.upstream.length ≤ 94; omega
      · exact hb
      · rw [freeEntry_au, copyTaken, hau]
        exact set_set_self _ _ _ _ (freeStaging_eq_some hf)
      · rw [freeEntry_au, copyTaken, hau]
      · rw [freeEntry_au, copyTaken, hau]
      · rw [freeEntry_au, copyTaken, hau]
      · rw [freeEntry_au, copyTaken, hau]
        simp only [List.filter_append, List.filter_cons, List.filter_nil, decide_not, decide_true, Bool.not_true,
          Bool.false_eq_true, if_false, List.append_nil]
        exact List.filter_eq_self.mpr fun j hj => by
          have : j ≠ i := fun e => hi (e ▸ hj)
          simpa using this
  · have hpay : payload = copyFrame ref seq number plan count lengths text := hpay
    have hlen := copyFrame_length ref seq number plan count lengths text
    have hcount := copyFrame_count ref seq number plan count lengths text
    have hplan := copyFrame_plan ref seq number plan count lengths text
    have hcl := copyLengths_copyFrame ref seq number plan count lengths text
    have hct := copyText_copyFrame ref seq number plan count lengths text
    have hseq := copySeq_copyFrame ref seq number plan count lengths text
    have hbun := copyBundle_copyFrame ref seq number plan count lengths text
    rw [← hpay] at hlen hcount hplan hcl hct hseq hbun
    refine ⟨fun h => ?_, fun h1 h6 hn h => ?_, fun h1 h6 hshort h => ?_, fun h1 h6 hshort hn hsum => ?_⟩
    · exact copyRefusal_format (copyFormat_count (by omega) (by rw [hcount]; exact h))
    · refine copyRefusal_format (copyFormat_long (by omega) (by omega) (by omega) ?_)
      obtain ⟨l, hl, h40⟩ := h
      exact ⟨l.toNat, by rw [hcl hn]; exact List.mem_map_of_mem hl, h40⟩
    · have hn : lengths.length = count.toNat ∨ lengths.length < count.toNat ∧ text = [] := by tauto
      refine copyRefusal_format (copyFormat_mismatch (by omega) (by omega) (by omega) (by simpa [hcl hn] using hshort) ?_)
      rcases h with ⟨h, -⟩ | ⟨h, hne⟩
      · exact .inl (by rw [hcl hn, List.length_map, hcount]; exact h)
      · exact .inr (by rw [hcl hn, hct h]; exact hne)
    · have hf : copyFormat payload = none := by rw [hpay]; exact copyFormat_copyFrame h1 h6 hshort hn hsum
      refine ⟨fun hp => copyRefusal_plan hf (by omega), fun l hp hl hd => ?_, fun hp hlast => ?_⟩
      · refine (copyRefusal_sequence hf (by omega) ?_).trans (by rw [hl]; rfl)
        rw [hl, hseq]
        exact decide_eq_false (by simp only [seqDistance]; omega)
      · have hrest := copyRefusal_bundle (payload := payload) (s := s) hf (by omega) (by rw [hseq]; exact seqPasses_of hlast)
        rw [hbun] at hrest
        refine ⟨fun h => ?_, fun b h hne => ?_, fun b h he hr => ?_, fun b h he hr => ?_⟩ <;> rw [hrest, h]
        · rfl
        · exact if_pos hne
        · exact (if_neg (not_not_intro he)).trans (if_neg (by rw [hr]; exact Bool.false_ne_true))
        · exact (if_neg (not_not_intro he)).trans (if_pos hr)
  · have hroom : s.hasRoom = true := hasRoom_of_short (by omega)
    -- the state in which the frame is taken
    have htaken : ∃ a, exec cmd s = .next (finish (takeFrame 0x01 (ref :: rest) (copyTaken p link a s))) ∧
        a.lastSeq = s.au.lastSeq ∧ link.receive ≠ .held ∧ link.upstream = s.ll.upstream ∧
        (s.receivingEntry ≠ none ∨ s.freeStaging = none ∨ (∃ o, cmd = .linkOctet p o) → a = s.au) := by
      rcases hcmd with ⟨rfl, hr, rfl⟩ | ⟨o, rfl, hr, hk, hpay, hcrc, rfl⟩
      · refine ⟨_, exec_copy hres hr hroom, holdEntry_lastSeq s, ?_, rfl, fun h => ?_⟩
        · dsimp only; split
          · exact ReceiveState.noConfusion
          · exact hr
        · rcases h with h | h | ⟨o, h⟩
          · obtain ⟨i, hi⟩ := Option.ne_none_iff_exists'.mp h
            rw [holdEntry_of_receiving hi]
          · cases hn : s.receivingEntry with
            | none => rw [holdEntry_of_full hn h]
            | some i => rw [holdEntry_of_receiving hn]
          · cases h
      · refine ⟨s.au, ?_, rfl, ReceiveState.noConfusion, rfl, fun _ => rfl⟩
        rw [← hpay]
        exact exec_copyOctet hres hr hk hcrc hroom
    obtain ⟨au, hex, hseq, hrec, hup, hau⟩ := htaken
    refine ⟨fun a i ha hi => ?_, fun a o ho ha hn => ?_, fun ha hn hf => ?_⟩
    · obtain rfl := hau (.inl (by rw [hi]; exact Option.some_ne_none i))
      rw [hex]
      refine congrArg _ (finish_copy (u := freeEntry i (copyTaken p link s.au s)) ?_ hrec (show link.upstream.length ≤ 94 by rw [hup]; omega) hb)
      refine (ownCopy_refused ((copyRefusal_copyTaken hseq).trans ha)).trans ?_
      rw [freeReceiving_eq (s := copyTaken p link s.au s) hi]
    · obtain rfl := hau (.inr (.inr ⟨o, ho⟩))
      rw [hex]
      refine congrArg _ (finish_copy (u := copyTaken p link s.au s) ?_ hrec (show link.upstream.length ≤ 94 by rw [hup]; omega) hb)
      refine (ownCopy_refused ((copyRefusal_copyTaken hseq).trans ha)).trans ?_
      rw [freeReceiving_none (s := copyTaken p link s.au s) hn]
    · obtain rfl := hau (.inr (.inl hf))
      rw [hex]
      exact congrArg _ (finish_copy (u := copyTaken p link s.au s)
        (ownCopy_full (s := copyTaken p link s.au s) ((copyRefusal_copyTaken hseq).trans ha) hn hf) hrec
        (show link.upstream.length ≤ 94 by rw [hup]; omega) hb)

end Sys2Proof.Machine
end

section
/-! PROOFS. The acceptance of a COPY record, the completion of a resolution, and BUNDLE-OPEN. -/

namespace Sys2Proof.Machine

/-! ## A sound COPY record -/

theorem cutLines_flatten (lines : List (List Byte)) : cutLines (lines.map List.length) lines.flatten = lines := by
  induction lines with
  | nil => rfl
  | cons l t ih => simp only [List.map_cons, List.flatten_cons, cutLines, List.take_left, List.drop_left, ih]

theorem storedText_length_map (f : Byte → Byte) (lines : List (List Byte)) :
    (storedText (lines.map (fun l => l.map f))).length = (storedText lines).length := by
  simp only [storedText, List.length_flatMap, List.length_cons, List.map_map, Function.comp_def, List.length_map]

/-- The payload of a sound line list. -/
theorem copyOctets_eq (ref : Byte) (seq : Seq) (number : Word16) (plan : Nat) (lines : List (List Byte)) :
    ref :: copyOctets seq number plan lines = copyFrame ref seq number (BitVec.ofNat 8 plan) (BitVec.ofNat 8 lines.length)
      (lines.map lengthOctet) lines.flatten := rfl

section
variable {ref : Byte} {seq : Seq} {number : Word16} {plan : PlanCode} {lines : List (List Byte)} (h : linesSound lines)
include h

theorem lineCount_value : (BitVec.ofNat 8 lines.length).toNat = lines.length := octet_value (by have := h.2.1; omega)

theorem lineLengths_value : (lines.map lengthOctet).map BitVec.toNat = lines.map List.length := by
  rw [List.map_map]
  exact List.map_congr_left fun l hl => octet_value (by have := h.2.2 l hl; omega)

theorem copyLengths_sound : copyLengths (ref :: copyOctets seq number plan.val lines) = lines.map List.length := by
  rw [copyOctets_eq, copyLengths_copyFrame _ _ _ _ _ _ _ (.inl (by rw [List.length_map, lineCount_value h])), lineLengths_value h]

theorem copyText_sound : copyText (ref :: copyOctets seq number plan.val lines) = lines.flatten := by
  rw [copyOctets_eq, copyText_copyFrame _ _ _ _ _ _ _ (by rw [List.length_map, lineCount_value h])]

theorem copyStored_sound : copyStored (ref :: copyOctets seq number plan.val lines) =
    storedText (lines.map (fun l => l.map storedChar)) := by
  rw [copyStored, copyLengths_sound h, copyText_sound h, cutLines_flatten]

theorem copyFormat_sound : copyFormat (ref :: copyOctets seq number plan.val lines) = none := by
  obtain ⟨h1, h6, h40⟩ := h
  rw [copyOctets_eq]
  refine copyFormat_copyFrame ?_ ?_ ?_ ?_ ?_
  · rw [lineCount_value ⟨h1, h6, h40⟩]; exact h1
  · rw [lineCount_value ⟨h1, h6, h40⟩]; exact h6
  · intro l hl
    obtain ⟨x, hx, rfl⟩ := List.mem_map.mp hl
    have := h40 x hx
    rw [lengthOctet, octet_value (by omega)]; exact this
  · rw [List.length_map, lineCount_value ⟨h1, h6, h40⟩]
  · rw [lineLengths_value ⟨h1, h6, h40⟩, List.length_flatten]

/-- The staged copy of a sound record. -/
theorem stagedOf_sound (s : State) (o : Word16) : s.stagedOf (ref :: copyOctets seq number plan.val lines) o =
    { seq := seq, bundleNo := number, ordinal := o, plan := plan, lineCount := lines.length
      blocks := lowestFree s.au.blocksUsed (blocksNeeded (storedText lines).length) } := by
  have hseq : copySeq (ref :: copyOctets seq number plan.val lines) = seq := by rw [copyOctets_eq, copySeq_copyFrame]
  have hnum : copyBundle (ref :: copyOctets seq number plan.val lines) = number := by rw [copyOctets_eq, copyBundle_copyFrame]
  have hplan : octetAt (ref :: copyOctets seq number plan.val lines) 6 = plan.val := by
    rw [copyOctets_eq, copyFrame_plan]; exact toNat_ofNat_fin (by decide) plan
  have hcount : octetAt (ref :: copyOctets seq number plan.val lines) 7 = lines.length := by
    rw [copyOctets_eq, copyFrame_count, lineCount_value h]
  simp only [State.stagedOf, State.copyBlocks, hseq, hnum, hplan, hcount, copyStored_sound h, storedText_length_map,
    Fin.ofNat_val_eq_self]

theorem copyRefusal_sound {s : State} {b : Bundle} (hb : s.receivingBundle = some b) (hrec : b.receiving = true)
    (hnum : b.number = number)
    (hseq : s.au.lastSeq = none ∨ ∃ l, s.au.lastSeq = some l ∧ 1 ≤ (seq - l).toNat ∧ (seq - l).toNat ≤ 8388608) :
    copyRefusal (ref :: copyOctets seq number plan.val lines) s = none := by
  have hplan : octetAt (ref :: copyOctets seq number plan.val lines) 6 ≤ 63 := by
    rw [copyOctets_eq, copyFrame_plan, toNat_ofNat_fin (by decide) plan]
    have := plan.isLt; omega
  rw [copyRefusal_bundle (copyFormat_sound h) hplan, hb, bundleRefusal, copyOctets_eq, copyBundle_copyFrame]
  · exact (if_neg (not_not_intro hnum)).trans (if_pos hrec)
  · rw [copyOctets_eq, copySeq_copyFrame]; exact seqPasses_of hseq

end

/-! ## The notices of an accepted COPY -/

theorem setFlag_five (f : BitVec 11) : setFlag f 5 = f ||| 0x020 := rfl

theorem setFlag_six (f : BitVec 11) : setFlag f 6 = f ||| 0x040 := rfl

theorem or_zero_flags (f : BitVec 11) : f ||| 0 = f := by ext i hi; simp

/-- A notice of kind k where there is room for its record. -/
theorem raiseNotice_kind {n : Notice} {s : State} {k : Nat} (h : s.hasRoom = true) (hk : noticeCode n = k) :
    (raiseNotice n s).ll = { s.ll with
      flags := setFlag s.ll.flags k
      upstream := s.ll.upstream ++ (if s.ll.mask.getLsbD k then [.notice n s.mu.pitch] else []) } := by
  subst hk
  rw [raiseNotice_ll_room n h]
  by_cases hm : s.ll.mask.getLsbD (noticeCode n) = true
  · rw [if_pos hm, if_pos hm]
  · rw [if_neg hm, if_neg hm, List.append_nil]

/-- SEQUENCE_GAP at an accepted record: with the first missing sequence and the number skipped. -/
theorem noticeGap_ll {last : Option Seq} {seq : Seq} {gap : List Record} {s : State} (hlen : s.ll.upstream.length ≤ 160)
    (h : (last = none ∨ ∃ l, last = some l ∧ (seq - l).toNat = 1) ∧ gap = [] ∨
      ∃ l, last = some l ∧ 1 < (seq - l).toNat ∧ (seq - l).toNat ≤ 8388608 ∧
        gap = [.notice (.sequenceGap (l + 1) ((seq - l).toNat - 1)) s.mu.pitch]) :
    (noticeGap last seq s).ll = { s.ll with
      flags := s.ll.flags ||| (if gap = [] then 0 else 0x020)
      upstream := s.ll.upstream ++ (if s.ll.mask.getLsbD 5 then gap else []) } := by
  have none' (hg : gap = []) : s.ll = { s.ll with
      flags := s.ll.flags ||| (if gap = [] then 0 else 0x020)
      upstream := s.ll.upstream ++ (if s.ll.mask.getLsbD 5 then gap else []) } := by
    rw [hg]; simp only [if_true, or_zero_flags, ite_self, List.append_nil]
  rcases h with ⟨rfl | ⟨l, rfl, h1⟩, hg⟩ | ⟨l, rfl, h1, h2, rfl⟩
  · exact none' hg
  · have : ¬ 1 < seqDistance l seq := by simp only [seqDistance]; omega
    rw [noticeGap, if_neg this]
    exact none' hg
  · have hd : 1 < seqDistance l seq := h1
    have hm : min (seqDistance l seq - 1) 8388607 = (seq - l).toNat - 1 := by simp only [seqDistance]; omega
    rw [noticeGap, if_pos hd, hm, raiseNotice_kind (hasRoom_of_short hlen) (k := 5) rfl, setFlag_five, if_neg (List.cons_ne_nil _ _)]

/-- TEXT_SUBST at an accepted record: with the number of characters replaced. -/
theorem noticeSubst_ll {seq : Seq} {replaced : Nat} {subst : List Record} {s : State} (hlen : s.ll.upstream.length ≤ 160)
    (hr : replaced ≤ 255)
    (h : replaced = 0 ∧ subst = [] ∨ 0 < replaced ∧ subst = [.notice (.textSubst seq replaced) s.mu.pitch]) :
    (noticeSubst seq replaced s).ll = { s.ll with
      flags := s.ll.flags ||| (if subst = [] then 0 else 0x040)
      upstream := s.ll.upstream ++ (if s.ll.mask.getLsbD 6 then subst else []) } := by
  rcases h with ⟨rfl, rfl⟩ | ⟨h1, rfl⟩
  · simp only [noticeSubst, Nat.lt_irrefl, if_false, if_true, or_zero_flags, ite_self, List.append_nil]
  · rw [noticeSubst, if_pos h1, Nat.min_eq_left hr, raiseNotice_kind (hasRoom_of_short hlen) (k := 6) rfl, setFlag_six, if_neg (List.cons_ne_nil _ _)]

theorem length_ite_le {α : Type} (c : Prop) [Decidable c] {l : List α} {n : Nat} (h : l.length ≤ n) :
    (if c then l else []).length ≤ n := by
  split
  · exact h
  · exact Nat.zero_le n

/-! ## The owner's work -/

theorem ownCopy_accepted {payload : List Byte} {s : State} {i : Fin 16} {b : Bundle} (h : copyRefusal payload s = none)
    (hi : (holdEntry s).receivingEntry = some i) (hb : s.receivingBundle = some b) : ownCopy payload s =
      (acceptCopy i payload b.ordinal (holdEntry s),
        .ok (BitVec.ofNat 8 (acceptCopy i payload b.ordinal (holdEntry s)).freeEntries) []) := by
  simp only [ownCopy, h, hi, hb]

theorem acceptCopy_bu (i : Fin 16) (payload : List Byte) (o : Word16) (s : State) :
    (acceptCopy i payload o s).bu = (countReceived o s).bu := by
  unfold acceptCopy
  rw [startResolver_bu, noticeSubst_bu, noticeGap_bu]
  rfl

theorem acceptCopy_ll (i : Fin 16) (payload : List Byte) (o : Word16) (s : State) : (acceptCopy i payload o s).ll =
    (noticeSubst (copySeq payload) (copyReplaced payload)
      (noticeGap s.au.lastSeq (copySeq payload) (countReceived o (stageCopy i payload o s)))).ll := by
  unfold acceptCopy
  rw [startResolver_ll]

/-- The Admission Unit with an accepted copy in its entry, before the resolver looks at it. -/
theorem stageCopy_au (i : Fin 16) (payload : List Byte) (o : Word16) (s : State) : (stageCopy i payload o s).au = { s.au with
    staging := s.au.staging.set i.val (.arrived (s.stagedOf payload o)) i.isLt
    blocksUsed := useBlocks s.au.blocksUsed (s.copyBlocks payload)
    pool := s.au.pool.storeBlocks (copyStored payload) (s.copyBlocks payload)
    lastSeq := some (copySeq payload) } := rfl

/-- The entry held for a record: the RECEIVING one, or the lowest-numbered FREE one, which joins the arrival order. -/
theorem holdEntry_held {s : State} {i : Fin 16} {order : List (Fin 16)} (h : s.receivingEntry = some i ∧ order = s.au.order ∨
      s.receivingEntry = none ∧ s.freeStaging = some i ∧ order = s.au.order ++ [i]) :
    (holdEntry s).receivingEntry = some i ∧ (∀ x, (holdEntry s).au.staging.set i.val x = s.au.staging.set i.val x) ∧
      (∃ S, (holdEntry s).au = { s.au with staging := S, order := order }) := by
  rcases h with ⟨hi, rfl⟩ | ⟨hn, hf, rfl⟩
  · rw [holdEntry_of_receiving hi]
    exact ⟨hi, fun _ => rfl, _, rfl⟩
  · have hau := holdEntry_of_free hn hf
    refine ⟨receivingEntry_reserved hn (by rw [hau]), fun x => ?_, _, hau⟩
    rw [hau]; exact Vector.set_set ..

/-- What is held stays held. -/
theorem holdEntry_holdEntry {s t : State} {i : Fin 16} (hi : (holdEntry s).receivingEntry = some i)
    (ht : t.au = s.au ∨ t.au = (holdEntry s).au) : (holdEntry t).au = (holdEntry s).au := by
  rcases ht with ht | ht
  · exact holdEntry_au_congr ht
  · rw [holdEntry_of_receiving (i := i) (by rw [receivingEntry_congr ht]; exact hi), ht]

theorem countP_le_flatten (lines : List (List Byte)) (n : Nat) (h : (copyOctets seq number plan lines).length ≤ n) :
    lines.flatten.countP outsideText ≤ n := by
  have := List.countP_le_length (p := outsideText) (l := lines.flatten)
  simp only [copyOctets, List.length_append] at h
  omega

/-- Settles O30: the record passes its checks, its entry is held, and the copy is staged before the resolver looks. -/
theorem copyIsAccepted : Obligations.CopyIsAccepted := by
  intro p ref s seq plan lines b i cmd order replaced gap subst hres hlen hbl hlines hshort hrb hrec hgap hrep hsubst hcmd hentry
  have hroom : s.hasRoom = true := hasRoom_of_short (by omega)
  obtain ⟨hheld, hset, S, hau⟩ := holdEntry_held hentry
  have hseq : s.au.lastSeq = none ∨ ∃ l, s.au.lastSeq = some l ∧ 1 ≤ (seq - l).toNat ∧ (seq - l).toNat ≤ 8388608 := by
    rcases hgap with ⟨h | ⟨l, hl, h1⟩, -⟩ | ⟨l, hl, h1, h2, -⟩
    · exact .inl h
    · exact .inr ⟨l, hl, by omega, by omega⟩
    · exact .inr ⟨l, hl, by omega, h2⟩
  -- the state in which the frame is taken
  have htaken : ∃ link a, exec cmd s = .next (finish (takeFrame 0x01 (ref :: copyOctets seq b.number plan.val lines)
      (copyTaken p link a s))) ∧ (a = s.au ∨ a = (holdEntry s).au) ∧ link.receive ≠ .held ∧ link.upstream = s.ll.upstream ∧
      link.flags = s.ll.flags ∧ link.mask = s.ll.mask := by
    rcases hcmd with ⟨rfl, hr⟩ | ⟨o, rfl, hr, hk, hpay, hcrc⟩
    · refine ⟨_, _, exec_copy hres hr hroom, .inr rfl, ?_, rfl, rfl, rfl⟩
      dsimp only; split
      · exact ReceiveState.noConfusion
      · exact hr
    · refine ⟨{ s.ll with receive := .search, buffer := { s.ll.buffer with crcLow := o } }, s.au, ?_, .inl rfl,
        ReceiveState.noConfusion, rfl, rfl, rfl⟩
      rw [← hpay]
      exact exec_copyOctet hres hr hk hcrc hroom
  obtain ⟨link, a, hex, ha, hlr, hlup, hlflags, hlmask⟩ := htaken
  generalize hw : holdEntry (copyTaken p link a s) = w
  have hwau : w.au = { s.au with staging := S, order := order } := by
    rw [← hw, holdEntry_holdEntry (s := s) hheld ha, hau]
  have hwrec : w.receivingEntry = some i := by
    rw [receivingEntry_congr (s := holdEntry s) (hwau.trans hau.symm)]; exact hheld
  have hwset (x : StagingEntry) : S.set i.val x = s.au.staging.set i.val x := by
    have := hset x; rw [hau] at this; exact this
  have hwll : w.ll = link := by rw [← hw, holdEntry_ll]; rfl
  have hwlc : w.lc = s.lc := by rw [← hw, holdEntry_lc]; rfl
  have hwmu : w.mu = s.mu := by rw [← hw, holdEntry_mu]; rfl
  have hwbu : w.bu = s.bu := by rw [← hw, holdEntry_bu]; rfl
  have hrefusal : copyRefusal (ref :: copyOctets seq b.number plan.val lines) (copyTaken p link a s) = none := by
    refine (copyRefusal_copyTaken ?_).trans (copyRefusal_sound hlines hrb hrec rfl hseq)
    rcases ha with rfl | rfl
    · rfl
    · exact holdEntry_lastSeq s
  have hown := ownCopy_accepted hrefusal (by rw [hw]; exact hwrec) (show (copyTaken p link a s).receivingBundle = some b from hrb)
  rw [hw] at hown
  have hcs : copySeq (ref :: copyOctets seq b.number plan.val lines) = seq := by rw [copyOctets_eq, copySeq_copyFrame]
  have hreplaced : copyReplaced (ref :: copyOctets seq b.number plan.val lines) = replaced := by
    rw [copyReplaced, copyText_sound hlines, hrep]; rfl
  generalize hu : acceptCopy i (ref :: copyOctets seq b.number plan.val lines) b.ordinal w = u at hown
  -- the link after the notices
  have hulen : w.ll.upstream.length ≤ 32 := by rw [hwll, hlup]; exact hlen
  have hgaplen : gap.length ≤ 1 := by
    rcases hgap with ⟨-, rfl⟩ | ⟨l, -, -, -, rfl⟩ <;> simp
  have hsubstlen : subst.length ≤ 1 := by
    rcases hsubst with ⟨-, rfl⟩ | ⟨-, rfl⟩ <;> simp
  have hull : u.ll = { link with
      flags := s.ll.flags ||| (if gap = [] then 0 else 0x020) ||| (if subst = [] then 0 else 0x040)
      upstream := s.ll.upstream ++ (if s.ll.mask.getLsbD 5 then gap else []) ++ (if s.ll.mask.getLsbD 6 then subst else []) } := by
    rw [← hu, acceptCopy_ll, hcs, hreplaced, hwau]
    have hg := noticeGap_ll (s := countReceived b.ordinal (stageCopy i (ref :: copyOctets seq b.number plan.val lines) b.ordinal w))
      (last := s.au.lastSeq) (seq := seq) (gap := gap) (by change w.ll.upstream.length ≤ 160; omega)
      (by rw [countReceived_mu, stageCopy_mu, hwmu]; exact hgap)
    rw [countReceived_ll, stageCopy_ll, hwll] at hg
    rw [noticeSubst_ll (subst := subst) ?_ ?_ ?_, hg]
    · simp only [hlup, hlflags, hlmask]
    · rw [hg, hlup, hlmask]
      have := length_ite_le (s.ll.mask.getLsbD 5 = true) hgaplen
      simp only [List.length_append]
      omega
    · have := countP_le_flatten lines 249 hshort
      rw [hrep]; exact le_trans this (by decide)
    · rw [noticeGap_mu, countReceived_mu, stageCopy_mu, hwmu]; exact hsubst
  have huplen : u.ll.upstream.length ≤ 94 := by
    rw [hull]
    have h5 := length_ite_le (s.ll.mask.getLsbD 5 = true) hgaplen
    have h6 := length_ite_le (s.ll.mask.getLsbD 6 = true) hsubstlen
    simp only [List.length_append]
    omega
  have hulc : u.lc = s.lc := by rw [← hu, acceptCopy_lc, hwlc]
  -- the Admission Unit
  have hstaged : w.stagedOf (ref :: copyOctets seq b.number plan.val lines) b.ordinal =
      { seq := seq, bundleNo := b.number, ordinal := b.ordinal, plan := plan, lineCount := lines.length
        blocks := lowestFree s.au.blocksUsed (blocksNeeded (storedText lines).length) } := by
    rw [stagedOf_sound hlines, hwau]
  generalize hc : ({ seq := seq, bundleNo := b.number, ordinal := b.ordinal, plan := plan, lineCount := lines.length
                     blocks := lowestFree s.au.blocksUsed (blocksNeeded (storedText lines).length) } : StagedCopy) = c at hstaged
  have hblocks : w.copyBlocks (ref :: copyOctets seq b.number plan.val lines) = c.blocks := by
    rw [← hstaged]; rfl
  have hx := stageCopy_au i (ref :: copyOctets seq b.number plan.val lines) b.ordinal w
  rw [hstaged, hblocks, hcs, copyStored_sound hlines, hwau, hwset] at hx
  have huau : u.au = (startResolver (stageCopy i (ref :: copyOctets seq b.number plan.val lines) b.ordinal w)).au := by
    rw [← hu, acceptCopy_au]
  generalize stageCopy i (ref :: copyOctets seq b.number plan.val lines) b.ordinal w = x at hx huau
  obtain ⟨-, korder, kblocks, kpool, kseq⟩ := startResolver_keeps x
  have hxs (j : Fin 16) : x.au.staging[j] = if j = i then .arrived c else s.au.staging[j] := by
    rw [hx]; exact vector_get_set _ _ _ _
  have entry (j : Fin 16) := startResolver_entry x j
  simp only [hxs] at entry
  refine ⟨u, c, hex.trans (congrArg _ (finish_copy hown hlr huplen (by rw [hulc]; exact hbl))), rfl, ?_, fun hbusy => ?_, fun j d hidle hold => ?_, fun j hj hfree => ?_, ?_, ?_, ?_, ?_, ?_, ?_, ?_,
    ?_, ?_, ?_, ?_, ?_, ?_, hulc⟩
  · rcases entry i with h | ⟨d, -, hd, h⟩
    · rw [if_pos rfl] at h; exact .inl (by rw [huau]; exact h)
    · rw [if_pos rfl] at hd
      obtain rfl : c = d := StagingEntry.arrived.inj hd
      exact .inr (by rw [huau]; exact h)
  · have := startResolver_rests (s := x) (.inl (by rw [hx]; exact hbusy))
    rw [huau, this, hx]; exact ⟨rfl, rfl⟩
  · have := startResolver_takes (s := x) (i := j) (c := d) (by rw [hx]; exact hidle) (by rw [hx]; exact hold)
    rw [huau, this, hx]; exact ⟨rfl, rfl⟩
  · rcases entry j with h | ⟨d, -, hd, -⟩
    · rw [if_neg hj, hfree] at h; rw [huau]; exact h
    · rw [if_neg hj, hfree] at hd; cases hd
  · rw [huau, korder, hx]
  · rw [huau, kseq, hx]
  · rw [huau, kblocks, hx]
  · rw [huau, kpool, hx]
  · rw [← hu, acceptCopy_bu]
    change w.bu.table.map _ = _
    rw [hwbu]
  · rw [hull]
  · rw [hull]
  · rw [← hu, acceptCopy_mu, hwmu]
  · rw [← hu, acceptCopy_fu, ← hw, holdEntry_fu]; rfl
  · rw [← hu, acceptCopy_tu, ← hw, holdEntry_tu]; rfl
  · rw [← hu, acceptCopy_cu, ← hw, holdEntry_cu]; rfl
  · rw [← hu, acceptCopy_pp, ← hw, holdEntry_pp]; rfl
  · rw [← hu, acceptCopy_gm, ← hw, holdEntry_gm]; rfl

end Sys2Proof.Machine
end

section
/-! PROOFS. The bundle table: what a count and a completion make of it; the completion of a resolution. -/

namespace Sys2Proof.Machine

/-! ## Counts and completions (R144, R145) -/

theorem bundle_ordinal {s : State} {o : Word16} {b : Bundle} (h : s.bundle o = some b) : b.ordinal = o := by
  simpa using List.find?_some h

/-- The bundle of an ordinal after a change that keeps the ordinals. -/
theorem bundle_modifyBundle {s t : State} {o : Word16} {f : Bundle → Bundle} {b : Bundle} (h : s.bundle o = some b)
    (hf : ∀ e, (f e).ordinal = e.ordinal) (ht : t.bu = (modifyBundle o f s).bu) : t.bundle o = some (f b) := by
  have hb := bundle_ordinal h
  have hp : ((fun d : Bundle => decide (d.ordinal = o)) ∘ fun d : Bundle => if d.ordinal = o then f d else d) =
      fun d => decide (d.ordinal = o) := by
    funext d
    by_cases hd : d.ordinal = o <;> simp [hd, hf]
  unfold State.bundle at h ⊢
  rw [ht]
  change List.find? _ (List.map _ s.bu.table) = _
  rw [List.find?_map, hp, h]
  exact congrArg some (if_pos hb)

/-- A close of the COMPLETE bundles that head the table. -/
theorem closeBundles_split {s : State} {done rest : List Bundle} (ht : s.bu.table = done ++ rest)
    (hdone : ∀ b ∈ done, b.complete = true) (hrest : ∀ b, rest.head? = some b → b.complete = false) :
    closeBundles s = placeAll (done.map Bundle.closeRecord) { s with bu := { s.bu with
      table := rest
      kicks := s.bu.kicks ++ (done.filter (fun b => decide (0 < b.delivered))).map Bundle.trayBreak
      receiving := if done.any (fun b => decide (s.bu.receiving = some b.ordinal)) then none else s.bu.receiving } } := by
  have hnil : rest.takeWhile Bundle.complete = [] ∧ rest.dropWhile Bundle.complete = rest := by
    cases rest with
    | nil => exact ⟨rfl, rfl⟩
    | cons b l =>
      have hb := hrest b rfl
      exact ⟨List.takeWhile_cons_of_neg (by rw [hb]; exact Bool.false_ne_true),
        List.dropWhile_cons_of_neg (by rw [hb]; exact Bool.false_ne_true)⟩
  have htake : s.bu.table.takeWhile Bundle.complete = done := by
    rw [ht, List.takeWhile_append_of_pos hdone, hnil.1, List.append_nil]
  have hdrop : s.bu.table.dropWhile Bundle.complete = rest := by
    rw [ht, List.dropWhile_append_of_pos hdone, hnil.2]
  simp only [closeBundles, htake, hdrop]

theorem testComplete_rests {s : State} {o : Word16} {b : Bundle} (h : s.bundle o = some b)
    (hd : ¬ (b.done = true ∧ b.complete = false)) : testComplete o s = s := by
  have : ¬ (b.done = true ∧ ¬ b.complete = true) := fun hc => hd ⟨hc.1, by simpa using hc.2⟩
  simp only [testComplete, h, if_neg this]

theorem testComplete_completes {s : State} {o : Word16} {b : Bundle} (h : s.bundle o = some b) (hd : b.done = true)
    (hc : b.complete = false) : testComplete o s = closeBundles (modifyBundle o (fun b => { b with complete := true }) s) := by
  have : b.done = true ∧ ¬ b.complete = true := ⟨hd, by rw [hc]; exact Bool.false_ne_true⟩
  simp only [testComplete, h, if_pos this]

/-- A table whose other bundles have other ordinals changes in its own bundle alone. -/
theorem map_bundle_head {b : Bundle} {rest : List Bundle} {f : Bundle → Bundle} (hne : ∀ e ∈ rest, e.ordinal ≠ b.ordinal) :
    (b :: rest).map (fun e => if e.ordinal = b.ordinal then f e else e) = f b :: rest := by
  rw [List.map_cons, if_pos rfl]
  congr 1
  refine (List.map_congr_left fun e he => if_neg (hne e he)).trans (List.map_id rest)

/-- The lowest bundle, completed with no COMPLETE one behind it, closes. -/
theorem testComplete_lowest {s : State} {b : Bundle} {rest : List Bundle} (ht : s.bu.table = b :: rest) (hd : b.done = true)
    (hc : b.complete = false) (hne : ∀ e ∈ rest, e.ordinal ≠ b.ordinal) (hhead : ∀ e, rest.head? = some e → e.complete = false) :
    testComplete b.ordinal s = placeAll [b.closeRecord] { s with bu := { s.bu with
      table := rest
      kicks := s.bu.kicks ++ (if 0 < b.delivered then [b.trayBreak] else [])
      receiving := if s.bu.receiving = some b.ordinal then none else s.bu.receiving } } := by
  have hb : s.bundle b.ordinal = some b := by
    rw [State.bundle, ht]; exact List.find?_cons_of_pos (by simp)
  have htab : (modifyBundle b.ordinal (fun b => { b with complete := true }) s).bu.table =
      [{ b with complete := true }] ++ rest := by
    change s.bu.table.map _ = _
    rw [ht, map_bundle_head hne]; rfl
  rw [testComplete_completes hb hd hc, closeBundles_split htab (by simp) hhead]
  by_cases hdel : 0 < b.delivered <;> by_cases hrec : s.bu.receiving = some b.ordinal <;>
    simp [hdel, hrec, modifyBundle, placeAll, Bundle.closeRecord]

/-- A close with an OPEN bundle lowest in the table does nothing. -/
theorem closeBundles_open {s : State} (h : ∀ b, s.bu.table.head? = some b → b.complete = false) : closeBundles s = s := by
  rw [closeBundles_split (done := []) rfl (by simp) h]
  simp [placeAll]

/-- A bundle completed behind an OPEN one stays in the table. -/
theorem testComplete_higher {s : State} {o : Word16} {b low : Bundle} {rest : List Bundle} (h : s.bundle o = some b)
    (hd : b.done = true) (hc : b.complete = false) (ht : s.bu.table = low :: rest) (hne : low.ordinal ≠ o)
    (hlow : low.complete = false) : testComplete o s = modifyBundle o (fun b => { b with complete := true }) s := by
  rw [testComplete_completes h hd hc]
  refine closeBundles_open fun e he => ?_
  change (s.bu.table.map _).head? = some e at he
  rw [ht, List.map_cons, if_neg hne] at he
  cases he
  exact hlow

/-- A test for completion places records behind those that stand. -/
theorem testComplete_upstream (o : Word16) (s : State) : ∃ more, more.length ≤ s.bu.table.length ∧
    (testComplete o s).ll = { s.ll with upstream := s.ll.upstream ++ more } := by
  unfold testComplete
  split
  · exact ⟨[], Nat.zero_le _, by simp⟩
  · split
    · refine ⟨_, ?_, rfl⟩
      rw [List.length_map]
      exact (List.takeWhile_sublist _).length_le.trans (by simp [modifyBundle])
    · exact ⟨[], Nat.zero_le _, by simp⟩

/-! ## The end of an event -/

theorem beginSending_upstream (s : State) : (beginSending s).ll.upstream = s.ll.upstream := by
  unfold beginSending; split <;> rfl

/-- The backlog's report places records behind those that stand. -/
theorem reportBacklog_upstream (s : State) : ∃ more, (reportBacklog s).ll.upstream = s.ll.upstream ++ more := by
  have raised (n : Notice) (u : State) : ∃ more, (raiseNotice n u).ll.upstream = u.ll.upstream ++ more := by
    rw [raiseNotice_ll]
    dsimp only
    split
    · exact ⟨_, rfl⟩
    · exact ⟨[], by simp⟩
  unfold reportBacklog
  split
  · rw [addHold_ll]; split
    · exact raised _ _
    · exact ⟨[], by simp⟩
  · split
    · rw [reduceHolds_ll]; split
      · exact raised _ _
      · exact ⟨[], by simp⟩
    · exact ⟨[], by simp⟩

/-! ## The completion of a resolution (R51, R52) -/

/-- What the completion leaves for the resolver to look at. -/
def resolved (r : Resolution) (c : StagedCopy) (again : Bool) (s : State) : State :=
  if again then setEntry r.entry (.arrived c) { s with au := { s.au with resolver := none } }
  else if r.read.valid then setEntry r.entry (.resolved c r.read.values) { s with au := { s.au with resolver := none } }
  else planVacant r.entry c { s with au := { s.au with resolver := none } }

theorem completeResolution_eq {s : State} {r : Resolution} {c : StagedCopy} {again : Bool} (hr : s.au.resolver = some r)
    (hc : s.au.staging[r.entry] = .resolving c again) : completeResolution s = startResolver (resolved r c again s) := by
  simp only [completeResolution, hr, hc, resolved]

/-- Staging, the arrival order and the text pool at a completed resolution. -/
theorem resolved_au (r : Resolution) (c : StagedCopy) (again : Bool) (s : State) : (resolved r c again s).au = { s.au with
    resolver := none
    staging := s.au.staging.set r.entry.val
      (if again then .arrived c else if r.read.valid then .resolved c r.read.values else .free)
    order := if again = false ∧ r.read.valid = false then s.au.order.filter (fun j => decide (j ≠ r.entry)) else s.au.order
    blocksUsed := if again = false ∧ r.read.valid = false then releaseBlocks s.au.blocksUsed c.blocks else s.au.blocksUsed } := by
  unfold resolved
  cases again with
  | true => rfl
  | false =>
    cases hv : r.read.valid with
    | true => rfl
    | false =>
      simp only [Bool.false_eq_true, if_false, and_self, if_true, planVacant_au]
      rfl

theorem resolved_frame (r : Resolution) (c : StagedCopy) (again : Bool) (s : State) :
    (resolved r c again s).mu = s.mu ∧ (resolved r c again s).fu = s.fu ∧ (resolved r c again s).tu = s.tu ∧
    (resolved r c again s).cu = s.cu ∧ (resolved r c again s).pp = s.pp ∧ (resolved r c again s).gm = s.gm ∧
    (resolved r c again s).lc = s.lc := by
  unfold resolved
  (repeat' split) <;> simp

/-- The bundle table at a PLAN_VACANT exception. -/
theorem planVacant_bu (i : Fin 16) (c : StagedCopy) (s : State) : (planVacant i c s).bu =
    (testComplete c.ordinal (countExcepted c.ordinal (place (vacantRecord c s.mu.pitch) s))).bu := rfl

theorem planVacant_ll (i : Fin 16) (c : StagedCopy) (s : State) : (planVacant i c s).ll =
    (testComplete c.ordinal (countExcepted c.ordinal (place (vacantRecord c s.mu.pitch) s))).ll := rfl

/-- One more excepted copy accounts for its bundle. -/
theorem done_excepted (b : Bundle) : ({ b with excepted := b.excepted + 1 } : Bundle).done = true ↔
    b.receiving = false ∧ b.delivered + b.excepted + 1 = b.expected := by
  simp only [Bundle.done, Bool.and_eq_true, Bool.not_eq_true', decide_eq_true_eq, Nat.add_assoc]

theorem countExcepted_bu (o : Word16) (s : State) : (countExcepted o s).bu = { s.bu with table := s.bu.table.map (fun e =>
    if e.ordinal = o then { e with excepted := e.excepted + 1 } else e) } := rfl

theorem bundle_countExcepted {s : State} {o : Word16} {b : Bundle} (h : s.bundle o = some b) :
    (countExcepted o s).bundle o = some { b with excepted := b.excepted + 1 } :=
  bundle_modifyBundle (f := fun b => { b with excepted := b.excepted + 1 }) h (fun _ => rfl) rfl

/-- An exception that does not complete its bundle counts alone. -/
theorem countExcepted_rests {s : State} {o : Word16} {b : Bundle} (h : s.bundle o = some b)
    (hd : ¬ (b.receiving = false ∧ b.complete = false ∧ b.delivered + b.excepted + 1 = b.expected)) :
    testComplete o (countExcepted o s) = countExcepted o s := by
  refine testComplete_rests (bundle_countExcepted h) fun ⟨h1, h2⟩ => ?_
  obtain ⟨h3, h4⟩ := (done_excepted b).mp h1
  exact hd ⟨h3, h2, h4⟩

/-- An exception that completes the lowest bundle closes it. -/
theorem countExcepted_lowest {s : State} {b : Bundle} {rest : List Bundle} (ht : s.bu.table = b :: rest)
    (hrec : b.receiving = false) (hc : b.complete = false) (hsum : b.delivered + b.excepted + 1 = b.expected)
    (hne : ∀ e ∈ rest, e.ordinal ≠ b.ordinal) (hhead : ∀ e, rest.head? = some e → e.complete = false) :
    (testComplete b.ordinal (countExcepted b.ordinal s)).bu.table = rest ∧
    (testComplete b.ordinal (countExcepted b.ordinal s)).ll.upstream = s.ll.upstream ++
      [.bundleClose b.number b.expected b.delivered (b.excepted + 1) b.truncated b.digest] := by
  have htab : (countExcepted b.ordinal s).bu.table = { b with excepted := b.excepted + 1 } :: rest := by
    change s.bu.table.map _ = _
    rw [ht, map_bundle_head (f := fun b => { b with excepted := b.excepted + 1 }) hne]
  rw [testComplete_lowest (b := { b with excepted := b.excepted + 1 }) htab ((done_excepted b).mpr ⟨hrec, hsum⟩) hc hne hhead]
  exact ⟨rfl, rfl⟩

/-- Settles O32: the completion by its case, then the resolver's next look. -/
theorem resolutionCompletes : Obligations.ResolutionCompletes := by
  intro p s r c again hs hr hc
  have hex : exec (.resolutionComplete p) s = .next (finish (completeResolution (setPins p s))) := event_open p _ s hs.1
  rw [completeResolution_eq (s := setPins p s) hr hc] at hex
  have hxau := resolved_au r c again (setPins p s)
  have hset (h : ¬ (again = false ∧ r.read.valid = false)) : (resolved r c again (setPins p s)).bu = s.bu ∧
      (resolved r c again (setPins p s)).ll = s.ll := by
    unfold resolved
    split
    · exact ⟨rfl, rfl⟩
    · split
      · exact ⟨rfl, rfl⟩
      · rename_i h1 h2; exact absurd ⟨by simpa using h1, by simpa using h2⟩ h
  -- a vacant plan: the state that counts the exception
  generalize hw : place (vacantRecord c s.mu.pitch) { setPins p s with au := { s.au with resolver := none } } = w
  have hwbu : w.bu = s.bu := by rw [← hw]; rfl
  have hwll : w.ll.upstream = s.ll.upstream ++ [vacantRecord c s.mu.pitch] := by rw [← hw]; rfl
  have hvac (h : again = false) (hv : r.read.valid = false) :
      (resolved r c again (setPins p s)).bu = (testComplete c.ordinal (countExcepted c.ordinal w)).bu ∧
      (resolved r c again (setPins p s)).ll = (testComplete c.ordinal (countExcepted c.ordinal w)).ll := by
    rw [resolved, if_neg (by rw [h]; exact Bool.false_ne_true), if_neg (by rw [hv]; exact Bool.false_ne_true), planVacant_bu,
      planVacant_ll, ← hw]
    exact ⟨rfl, rfl⟩
  obtain ⟨hmu, hfu, htu, hcu, hpp, hgm, hlc⟩ := resolved_frame r c again (setPins p s)
  replace hlc : (resolved r c again (setPins p s)).lc = s.lc := hlc
  have hrec : (resolved r c again (setPins p s)).ll.receive = s.ll.receive := by
    by_cases h : again = false ∧ r.read.valid = false
    · obtain ⟨more, -, hmore⟩ := testComplete_upstream c.ordinal (countExcepted c.ordinal w)
      rw [(hvac h.1 h.2).2, hmore, ← hw]; rfl
    · rw [(hset h).2]
  generalize hx : resolved r c again (setPins p s) = x at *
  have hopen : finish (startResolver x) = beginSending (reportBacklog (startResolver x)) :=
    finish_open (by rw [startResolver_ll, hrec]; exact hs.2.1)
  have hup : ∃ more, (finish (startResolver x)).ll.upstream = x.ll.upstream ++ more := by
    obtain ⟨more, hmore⟩ := reportBacklog_upstream (startResolver x)
    exact ⟨more, by rw [hopen, beginSending_upstream, hmore, startResolver_ll]⟩
  have hsame (hle : x.ll.upstream.length ≤ s.ll.upstream.length + 62) :
      (finish (startResolver x)).ll.upstream = x.ll.upstream := by
    have := unreported_of_placed (u := startResolver x) hs (by rw [startResolver_ll]; exact hle)
      (by rw [startResolver_lc, hlc])
    rw [finish_unreported (by rw [startResolver_ll, hrec]; exact hs.2.1) this, beginSending_upstream, startResolver_ll]
  have hau : (finish (startResolver x)).au = (startResolver x).au := by rw [hopen]; simp
  have hbu : (finish (startResolver x)).bu = x.bu := by rw [hopen]; simp
  obtain ⟨kplans, korder, kblocks, -, kseq⟩ := startResolver_keeps x
  have entry := startResolver_entry x r.entry
  have hxentry : x.au.staging[r.entry] =
      if again then .arrived c else if r.read.valid then .resolved c r.read.values else .free := by
    rw [hxau]; exact (vector_get_set _ _ _ _).trans (if_pos rfl)
  rw [hxentry] at entry
  refine ⟨_, hex, fun h => ?_, fun h hv => ?_, fun h hv => ?_, fun now hnow => ?_, ?_, ?_, ?_, ?_, ?_, ?_, ?_, ?_⟩
  · subst h
    obtain ⟨h1, h2⟩ := hset (by simp)
    rw [hau, hbu, hsame (by rw [h2]; omega), h2, korder, kblocks, hxau, h1]
    refine ⟨?_, rfl, rfl, rfl, rfl⟩
    rcases entry with he | ⟨d, -, hd, he⟩
    · exact .inl he
    · obtain rfl : c = d := StagingEntry.arrived.inj hd
      exact .inr he
  · subst h
    obtain ⟨h1, h2⟩ := hset (by simp [hv])
    rw [hau, hbu, hsame (by rw [h2]; omega), h2, korder, kblocks, hxau, h1]
    refine ⟨?_, rfl, rfl, by simp [hv, setPins]⟩
    rcases entry with he | ⟨d, -, hd, -⟩
    · rw [he, hv]; rfl
    · rw [hv] at hd; cases hd
  · subst h
    obtain ⟨h1, h2⟩ := hvac rfl hv
    rw [hau, hbu, korder, kblocks, hxau, h1]
    refine ⟨?_, by simp [hv, setPins], by simp [hv, setPins], ?_, fun b hb => ⟨fun hd => ?_, fun rest hr1 hr2 hr3 ht hne hhead => ?_⟩⟩
    · rcases entry with he | ⟨d, -, hd, -⟩
      · rw [he, hv]; rfl
      · rw [hv] at hd; cases hd
    · obtain ⟨more, hmore⟩ := hup
      obtain ⟨more', -, hmore'⟩ := testComplete_upstream c.ordinal (countExcepted c.ordinal w)
      refine ⟨more' ++ more, ?_⟩
      rw [hmore, h2, hmore']
      change w.ll.upstream ++ more' ++ more = _
      rw [hwll]; simp only [List.append_assoc]
    · have hwb : w.bundle c.ordinal = some b := by rw [State.bundle, hwbu]; exact hb
      rw [countExcepted_rests hwb hd] at h2 ⊢
      have hxup : x.ll.upstream = s.ll.upstream ++ [vacantRecord c s.mu.pitch] := by rw [h2]; exact hwll
      rw [hsame (by rw [hxup]; simp), hxup, bundle_ordinal hb]
      refine ⟨?_, rfl⟩
      rw [countExcepted_bu, hwbu]
    · obtain ⟨htab, hcl⟩ := countExcepted_lowest (s := w) (by rw [hwbu]; exact ht) hr1 hr2 hr3 hne hhead
      rw [bundle_ordinal hb] at htab hcl
      have hxup := (congrArg LinkController.upstream h2).trans hcl
      rw [hsame (by rw [hxup, hwll]; simp), hxup, hwll]
      exact ⟨htab, by simp⟩
  · have hstag : x.au.staging = now := by rw [hxau, hnow]; rfl
    have hidle : x.au.resolver = none := by rw [hxau]
    have hplans : x.au.plans = s.au.plans := by rw [hxau]; rfl
    rw [hau]
    refine ⟨fun hnone => ?_, fun j d hold => ?_⟩
    · rw [startResolver_rests (s := x) (.inr (by rw [hstag, ← korder]; exact hnone))]
      exact ⟨hstag, hidle⟩
    · rw [startResolver_takes (s := x) (i := j) (c := d) hidle (by rw [hstag, ← korder]; exact hold), ← hstag, hplans]
      exact ⟨rfl, rfl⟩
  · rw [hau, kplans, hxau]; rfl
  · rw [hau, kseq, hxau]; rfl
  all_goals rw [hopen]
  · simpa using hmu
  · simpa using hfu
  · simpa using htu
  · simpa using hcu
  · simpa using hpp
  · simpa using hgm

end Sys2Proof.Machine
end

section
/-! PROOFS. BUNDLE-OPEN: its fields, its refusals, and the bundle it makes. -/

namespace Sys2Proof.Machine

/-! ## The fields of a BUNDLE-OPEN payload -/

/-- A BUNDLE-OPEN payload by its fields (section 11.3). -/
def bundleFrame (ref : Byte) (number : Word16) (expected : Nat) (mode limit tray : Byte) : List Byte :=
  ref :: (octets2 number.toNat ++ octets2 expected ++ [mode, limit, tray])

section
variable (ref : Byte) (number : Word16) {expected : Nat} (mode limit tray : Byte) (he : expected ≤ 65535)

theorem bundleFrame_number : BitVec.ofNat 16 (fieldAt2 (bundleFrame ref number expected mode limit tray) 1) = number := by
  have hlt := number.isLt
  have hv := octets2_value (n := number.toNat) (by omega)
  simp only [bundleFrame, octets2, fieldAt2, octetAt, List.cons_append, List.nil_append, List.getD_cons_succ,
    List.getD_cons_zero, hv]
  exact BitVec.ofNat_toNat .. |>.trans (BitVec.setWidth_eq _)

include he in
theorem bundleFrame_expected : fieldAt2 (bundleFrame ref number expected mode limit tray) 3 = expected := by
  have hv := octets2_value he
  simp only [bundleFrame, octets2, fieldAt2, octetAt, List.cons_append, List.nil_append, List.getD_cons_succ,
    List.getD_cons_zero, hv]

/-- The checks of the fields, in their order. -/
theorem bundleChecks_bundleFrame (he : expected ≤ 65535) : bundleChecks (bundleFrame ref number expected mode limit tray) =
    [(2, decide (1 ≤ expected ∧ expected ≤ 999)), (3, decide (mode.toNat ≤ 1)), (4, decide (limit.toNat ≤ 7)),
     (5, decide (tray.toNat ≤ 1))] := by
  rw [bundleChecks, bundleFrame_expected ref number mode limit tray he]
  rfl

end

/-- The code of a bundle mode. -/
def modeOctet : BundleMode → Byte
  | .remake => 0x00
  | .short => 0x01

theorem bundleOctets_eq (ref : Byte) (number : Word16) (expected : Nat) (mode : BundleMode) (limit : Nat) (tray : Bool) :
    ref :: bundleOctets number expected mode limit tray =
      bundleFrame ref number expected (modeOctet mode) (BitVec.ofNat 8 limit) (boolOctet tray) := by
  cases mode <;> rfl

section
variable {ref : Byte} {number : Word16} {expected limit : Nat} {mode : BundleMode} {tray : Bool}

theorem rangeAnswer_bundleOctets (h1 : 1 ≤ expected) (h2 : expected ≤ 999) (h3 : limit ≤ 7) :
    rangeAnswer (bundleChecks (ref :: bundleOctets number expected mode limit tray)) = none := by
  rw [bundleOctets_eq, bundleChecks_bundleFrame ref number _ _ _ (by omega)]
  have hm : (modeOctet mode).toNat ≤ 1 := by cases mode <;> decide
  have hl := octet_value (n := limit) (by omega)
  have ht := boolOctet_le tray
  apply rangeAnswer_of_all
  simp only [List.forall_mem_cons, List.not_mem_nil, decide_eq_true_eq, false_imp_iff, implies_true, and_true, hl]
  omega

theorem bundleOfPayload_bundleOctets (h2 : expected ≤ 999) (h3 : limit ≤ 7) (o : Word16) :
    bundleOfPayload (ref :: bundleOctets number expected mode limit tray) o =
      { ordinal := o, number := number, expected := expected, mode := mode, retryLimit := limit, trayBreak := tray
        receiving := true, received := 0, delivered := 0, excepted := 0, truncated := false, digest := 0, complete := false } := by
  have hm : (if octetAt (bundleFrame ref number expected (modeOctet mode) (BitVec.ofNat 8 limit) (boolOctet tray)) 5 = 1 then
      BundleMode.short else .remake) = mode := by cases mode <;> rfl
  have hl : octetAt (bundleFrame ref number expected (modeOctet mode) (BitVec.ofNat 8 limit) (boolOctet tray)) 6 = limit :=
    octet_value (by omega)
  have ht : decide (octetAt (bundleFrame ref number expected (modeOctet mode) (BitVec.ofNat 8 limit) (boolOctet tray)) 7 = 1) =
      tray := decide_boolOctet tray
  simp only [bundleOfPayload, bundleOctets_eq, bundleFrame_number, hm, hl, ht,
    bundleFrame_expected ref number _ _ _ (show expected ≤ 65535 by omega)]

/-- The refusal of a record in its ranges: by the bundle table alone. -/
theorem bundleOpenRefusal_bundleOctets (h1 : 1 ≤ expected) (h2 : expected ≤ 999) (h3 : limit ≤ 7) (s : State) :
    bundleOpenRefusal (ref :: bundleOctets number expected mode limit tray) s =
      match s.bundleNamed number with
      | some b => some { status := .duplicate, detail := 0, data := octets2 b.ordinal.toNat }
      | none => if 8 ≤ s.bu.table.length then some (.refusal .full 0) else none := by
  have hlen : (ref :: bundleOctets number expected mode limit tray).length = 8 := rfl
  have hnum : BitVec.ofNat 16 (fieldAt2 (ref :: bundleOctets number expected mode limit tray) 1) = number := by
    rw [bundleOctets_eq, bundleFrame_number]
  simp only [bundleOpenRefusal, hlen, ne_eq, not_true_eq_false, if_false, rangeAnswer_bundleOctets h1 h2 h3, hnum]
    <;> rfl

end

theorem bundleOpenRefusal_range {ref : Byte} {number : Word16} {expected : Nat} {mode limit tray : Byte} (he : expected ≤ 65535)
    {a : Answer} (h : rangeAnswer [(2, decide (1 ≤ expected ∧ expected ≤ 999)), (3, decide (mode.toNat ≤ 1)),
      (4, decide (limit.toNat ≤ 7)), (5, decide (tray.toNat ≤ 1))] = some a) (s : State) :
    bundleOpenRefusal (bundleFrame ref number expected mode limit tray) s = some a := by
  have hlen : (bundleFrame ref number expected mode limit tray).length = 8 := rfl
  simp only [bundleOpenRefusal, hlen, ne_eq, not_true_eq_false, if_false, bundleChecks_bundleFrame ref number mode limit tray he, h]

theorem ownBundleOpen_refused {payload : List Byte} {s : State} {a : Answer} (h : bundleOpenRefusal payload s = some a) :
    ownBundleOpen payload s = (s, a) := by
  simp only [ownBundleOpen, h]

theorem ownBundleOpen_opened {payload : List Byte} {s : State} (h : bundleOpenRefusal payload s = none) :
    ownBundleOpen payload s = (openBundle payload s, .ok (BitVec.ofNat 8 (8 - (openBundle payload s).bu.table.length))
      (octets2 s.bu.nextOrdinal.toNat)) := by
  simp only [ownBundleOpen, h]

/-! ## The receipt that a BUNDLE-OPEN ends (R135, R136) -/

theorem endReceipt_ended_rests {s : State} (h : ∀ b ∈ s.bu.table, b.receiving = false) : endReceipt s = s := by
  unfold endReceipt
  split
  · rfl
  · rename_i b hb
    obtain ⟨o, -, ho⟩ := Option.bind_eq_some_iff.mp hb
    rw [if_neg (by rw [h b (List.mem_of_find?_eq_some ho)]; exact Bool.false_ne_true)]

/-- A receiving bundle as it is truncated. -/
def Bundle.truncate (b : Bundle) : Bundle := { b with receiving := false, expected := b.received, truncated := true }

theorem endReceipt_truncates {s : State} {b : Bundle} (hb : s.receivingBundle = some b) (hr : b.receiving = true)
    (hlt : b.received < b.expected) : endReceipt s = testComplete b.ordinal
      (raiseNotice (.bundleTruncated b.number b.ordinal b.expected b.received) (modifyBundle b.ordinal Bundle.truncate s)) := by
  have hb : s.bu.receiving.bind s.bundle = some b := hb
  simp only [endReceipt, hb, hr, hlt, if_true]
  rfl

theorem truncate_done (b : Bundle) : b.truncate.done = true ↔ b.delivered + b.excepted = b.received := by
  exact decide_eq_true_iff

/-- A sound receiving bundle stands in the table, OPEN and short of its expected count. -/
theorem receivingBundle_sound {s : State} {b : Bundle} (h : s.BundlesSound) (hb : s.receivingBundle = some b)
    (hr : b.receiving = true) : s.bundle b.ordinal = some b ∧ b.received < b.expected ∧ b.complete = false := by
  obtain ⟨o, -, ho⟩ := Option.bind_eq_some_iff.mp hb
  obtain ⟨-, -, hall, -⟩ := h
  obtain ⟨hle, hiff, -, hcomp⟩ := hall b (List.mem_of_find?_eq_some ho)
  refine ⟨by rw [bundle_ordinal ho]; exact ho, ?_, ?_⟩
  · have hne : b.received ≠ b.expected := fun e => by rw [hiff.mpr e] at hr; cases hr
    omega
  · cases hc : b.complete with
    | false => rfl
    | true => rw [hcomp hc] at hr; cases hr

theorem openBundle_bu (payload : List Byte) (s : State) : (openBundle payload s).bu = { (endReceipt s).bu with
    table := (endReceipt s).bu.table ++ [bundleOfPayload payload (endReceipt s).bu.nextOrdinal]
    nextOrdinal := (endReceipt s).bu.nextOrdinal + 1
    receiving := some (endReceipt s).bu.nextOrdinal } := rfl

theorem openBundle_ll (payload : List Byte) (s : State) : (openBundle payload s).ll = (endReceipt s).ll := rfl

theorem testComplete_nextOrdinal (o : Word16) (s : State) : (testComplete o s).bu.nextOrdinal = s.bu.nextOrdinal := by
  unfold testComplete; (repeat' split) <;> rfl

/-- An accepted BUNDLE-OPEN at its event, whose receipt's end places few records. -/
theorem exec_bundleOpen {p : Pins} {ref : Byte} {rest : List Byte} {s : State} (hs : s.Calm)
    (h : bundleOpenRefusal (ref :: rest) (setPins p s) = none)
    (hlen : (endReceipt (setPins p s)).ll.upstream.length ≤ s.ll.upstream.length + 62) :
    exec (.bundleOpen p ref rest) s = .next (answered 0x02 (ref :: rest)
      (.ok (BitVec.ofNat 8 (8 - (openBundle (ref :: rest) (setPins p s)).bu.table.length)) (octets2 s.bu.nextOrdinal.toNat))
      (openBundle (ref :: rest) (setPins p s))) :=
  event_record_calm hs (by decide) (ownBundleOpen_opened h) hlen
    (by rw [openBundle_lc]; exact hs.2.2.2)

/-- Settles O33: the refusals by the fields and the table; the receipt's end, then the new bundle. -/
theorem bundleOpenMakesTheBundle : Obligations.BundleOpenMakesTheBundle := by
  refine ⟨fun p ref s number expected limit mode tray hs h1 h2 h3 hfull hnamed hended => ?_,
    fun p ref s number expected limit mode tray b made hs hsound h1 h2 h3 hfull hnamed hb hr hmade => ?_, fun p ref s hs =>
    ⟨fun rest hlen => ?_, fun number expected mode limit tray field rest hrest hfield => ?_,
      fun number expected limit mode tray rest hrest h1 h2 h3 => ⟨fun d hd => ?_, fun hnone h8 => ?_⟩⟩⟩
  · have href : bundleOpenRefusal (ref :: bundleOctets number expected mode limit tray) (setPins p s) = none := by
      rw [bundleOpenRefusal_bundleOctets h1 h2 h3, show (setPins p s).bundleNamed number = none from hnamed]
      exact if_neg (by change ¬ 8 ≤ s.bu.table.length; omega)
    have hend : endReceipt (setPins p s) = setPins p s := endReceipt_ended_rests hended
    have hex := exec_bundleOpen hs href (by rw [hend]; exact Nat.le_add_right _ _)
    have hopen : openBundle (ref :: bundleOctets number expected mode limit tray) (setPins p s) = { s with
        pins := p
        bu := { s.bu with
          table := s.bu.table ++ [{ ordinal := s.bu.nextOrdinal, number := number, expected := expected, mode := mode
                                    retryLimit := limit, trayBreak := tray, receiving := true, received := 0
                                    delivered := 0, excepted := 0, truncated := false, digest := 0
                                    complete := false }]
          nextOrdinal := s.bu.nextOrdinal + 1
          receiving := some s.bu.nextOrdinal } } := by
      rw [openBundle, hend, bundleOfPayload_bundleOctets h2 h3]; rfl
    rw [hex, hopen]
    have hcount : 8 - (s.bu.table.length + 1) = 7 - s.bu.table.length := by omega
    simp only [List.length_append, List.length_cons, List.length_nil, Nat.zero_add, hcount]
  · have href : bundleOpenRefusal (ref :: bundleOctets number expected mode limit tray) (setPins p s) = none := by
      rw [bundleOpenRefusal_bundleOctets h1 h2 h3, show (setPins p s).bundleNamed number = none from hnamed]
      exact if_neg (by change ¬ 8 ≤ s.bu.table.length; omega)
    obtain ⟨hat, hlt, hcomp⟩ := receivingBundle_sound hsound hb hr
    have hend := endReceipt_truncates (s := setPins p s) hb hr hlt
    have hll := raiseNotice_kind (n := .bundleTruncated b.number b.ordinal b.expected b.received) (k := 9)
      (s := modifyBundle b.ordinal Bundle.truncate (setPins p s))
      (hasRoom_of_short (s := modifyBundle b.ordinal Bundle.truncate (setPins p s)) (show s.ll.upstream.length ≤ 160 by
        have := hs.2.2.1; omega)) rfl
    have hbu : (raiseNotice (.bundleTruncated b.number b.ordinal b.expected b.received)
        (modifyBundle b.ordinal Bundle.truncate (setPins p s))).bu = (modifyBundle b.ordinal Bundle.truncate s).bu := by
      rw [raiseNotice_bu]; rfl
    generalize raiseNotice (.bundleTruncated b.number b.ordinal b.expected b.received)
      (modifyBundle b.ordinal Bundle.truncate (setPins p s)) = v at hend hll hbu
    have hvb : v.bundle b.ordinal = some b.truncate := bundle_modifyBundle hat (fun _ => rfl) hbu
    obtain ⟨more, hmore, htest⟩ := testComplete_upstream b.ordinal v
    have hvlen : v.bu.table.length ≤ 8 := by rw [hbu]; exact (List.length_map _).trans_le hsound.1
    have hvup : v.ll.upstream = s.ll.upstream ++ (if s.ll.mask.getLsbD 9 then
        [.notice (.bundleTruncated b.number b.ordinal b.expected b.received) s.mu.pitch] else []) := by rw [hll]; rfl
    have hex := exec_bundleOpen hs href (by
      rw [hend, htest, hvup]
      have := length_ite_le (s.ll.mask.getLsbD 9 = true) (n := 1) (l := [Record.notice
        (.bundleTruncated b.number b.ordinal b.expected b.received) s.mu.pitch]) (by simp)
      simp only [List.length_append]
      omega)
    have hnext : (endReceipt (setPins p s)).bu.nextOrdinal = s.bu.nextOrdinal := by
      rw [hend, testComplete_nextOrdinal, hbu]; rfl
    have hubu := openBundle_bu (ref :: bundleOctets number expected mode limit tray) (setPins p s)
    rw [hnext, bundleOfPayload_bundleOctets h2 h3, ← hmade] at hubu
    have hull := openBundle_ll (ref :: bundleOctets number expected mode limit tray) (setPins p s)
    refine ⟨_, hex, ?_, by rw [hubu], by rw [hubu], fun hne => ?_, fun hsum htab => ?_, by simp [setPins], by simp [setPins],
      by simp [setPins], by simp [setPins], by simp [setPins], by simp [setPins], by simp [setPins], by simp [setPins]⟩
    · rw [hull, hend, htest, hll]
      exact getLsbD_setFlag _ 9 (by decide)
    · rw [testComplete_rests hvb (fun ⟨hd, _⟩ => hne ((truncate_done b).mp hd))] at hend
      rw [hubu, hull, hend, hbu]
      refine ⟨rfl, rfl, fun hm => ?_⟩
      rw [hvup, if_pos hm]
    · have hvt : v.bu.table = b.truncate :: [] := by
        rw [hbu]
        change s.bu.table.map _ = _
        rw [htab, map_bundle_head (f := Bundle.truncate) (by simp)]
      have hlow := testComplete_lowest (b := b.truncate) hvt ((truncate_done b).mpr hsum) hcomp (by simp) (by simp)
      have hlow : testComplete b.ordinal v = _ := hlow
      rw [hlow] at hend
      rw [hubu, hull, hend]
      refine ⟨rfl, ?_, fun hm => ?_⟩
      · change v.bu.kicks ++ _ = _
        rw [hbu]; rfl
      · change v.ll.upstream ++ _ = _
        rw [hvup, if_pos hm, List.append_assoc]; rfl
  · refine event_record_same hs (by decide) (ownBundleOpen_refused ?_)
    exact if_pos (by simpa using hlen)
  · refine event_record_same hs (by decide) (ownBundleOpen_refused ?_)
    have he := expected.isLt
    rw [show ref :: rest = bundleFrame ref number expected.toNat mode limit tray by rw [hrest]; rfl]
    refine bundleOpenRefusal_range (by omega) ?_ _
    rcases hfield with ⟨rfl, h⟩ | ⟨h1, h2, ⟨rfl, h⟩ | ⟨rfl, hm, h⟩ | ⟨rfl, hm, hl, h⟩⟩
    · rw [decide_eq_false (by omega)]; rfl
    · rw [decide_eq_true ⟨h1, h2⟩, decide_eq_false (by omega : ¬ mode.toNat ≤ 1)]; rfl
    · rw [decide_eq_true ⟨h1, h2⟩, decide_eq_true hm, decide_eq_false (by omega : ¬ limit.toNat ≤ 7)]; rfl
    · rw [decide_eq_true ⟨h1, h2⟩, decide_eq_true hm, decide_eq_true hl, decide_eq_false (by omega : ¬ tray.toNat ≤ 1)]; rfl
  · subst hrest
    refine event_record_same hs (by decide) (ownBundleOpen_refused ?_)
    rw [bundleOpenRefusal_bundleOctets h1 h2 h3, show (setPins p s).bundleNamed number = some d from hd]
  · subst hrest
    refine event_record_same hs (by decide) (ownBundleOpen_refused ?_)
    rw [bundleOpenRefusal_bundleOctets h1 h2 h3, show (setPins p s).bundleNamed number = none from hnone]
    exact if_pos h8

end Sys2Proof.Machine
end

section
/-! PROOFS. Deliveries and exceptions: a divert at the gate, and the stack event with its kick. -/

namespace Sys2Proof.Machine

/-! ## What the track-clear report leaves of the contents -/

theorem reportTrackClear_core (s : State) (pos : Nat) : ((reportTrackClear s).contentAt pos).core = (s.contentAt pos).core :=
  core_contentAt_of_map s (reportTrackClear_cores s) pos

theorem reportTrackClear_isCopy (s : State) (pos : Nat) :
    ((reportTrackClear s).contentAt pos).isCopy = (s.contentAt pos).isCopy := isCopy_of_core (reportTrackClear_core s pos)

theorem reportTrackClear_empty {s : State} {pos : Nat} (h : s.contentAt pos = .empty) :
    (reportTrackClear s).contentAt pos = .empty :=
  eq_empty_of_core ((reportTrackClear_core s pos).trans (by rw [h]; rfl))

/-! ## Diverts (R118 to R123) -/

/-- A divert that leaves the retry limit and the bundle's mode room for another attempt. -/
theorem divert_makeUp {c : Context} {g : Nat} {pitch : PitchIndex} {s : State} {b : Bundle}
    (hb : s.bundle c.copy.ordinal = some b) (hlimit : c.diverted.faulted ≤ b.retryLimit)
    (hmode : ¬ (b.mode = .short ∧ c.marks.hasFault = true)) :
    divert c g pitch s = reportTrackClear (sendToMakeUp c.diverted g pitch (setContent g .empty s)) := by
  have hnone : exceptionReason b c.diverted = none := by
    rw [exceptionReason, if_neg (by omega),
      if_neg (show ¬ (b.mode = .short ∧ c.diverted.marks.hasFault = true) from hmode)]
  simp only [divert, hb, Option.bind_some, hnone]

/-- The reason of an exception at the gate. -/
def gateReason (b : Bundle) (d : Context) : ExceptionReason := if b.retryLimit < d.faulted then .retryLimit else .shortMode

theorem divert_exception {c : Context} {g : Nat} {pitch : PitchIndex} {s : State} {b : Bundle}
    (hb : s.bundle c.copy.ordinal = some b)
    (h : b.retryLimit < c.diverted.faulted ∨ b.mode = .short ∧ c.marks.hasFault = true) :
    divert c g pitch s =
      reportTrackClear (exceptAtGate c.diverted (gateReason b c.diverted) pitch (setContent g .empty s)) := by
  have hsome : exceptionReason b c.diverted = some (gateReason b c.diverted) := by
    by_cases hl : b.retryLimit < c.diverted.faulted
    · rw [exceptionReason, gateReason, if_pos hl, if_pos hl]
    · rw [exceptionReason, gateReason, if_neg hl, if_neg hl]
      exact if_pos (h.resolve_left hl)
  simp only [divert, hb, Option.bind_some, hsome]

theorem exceptAtGate_bu (c : Context) (r : ExceptionReason) (pitch : PitchIndex) (s : State) : (exceptAtGate c r pitch s).bu =
    (testComplete c.copy.ordinal (countExcepted c.copy.ordinal (place (c.record .exception (some r) pitch) s))).bu := rfl

theorem exceptAtGate_ll (c : Context) (r : ExceptionReason) (pitch : PitchIndex) (s : State) : (exceptAtGate c r pitch s).ll =
    (testComplete c.copy.ordinal (countExcepted c.copy.ordinal (place (c.record .exception (some r) pitch) s))).ll := rfl

theorem sweptContexts_setContent (s : State) (o : Word16) (g : Nat) (c : Content) :
    (setContent g c s).sweptContexts o g = s.sweptContexts o g := by
  rw [sweptContexts_eq, sweptContexts_eq]
  refine List.filterMap_congr fun pos hpos => ?_
  have hlt : pos < g := by simpa using hpos
  rw [contentAt_setContent_other g pos c s (by omega)]

theorem sweptContexts_none {s : State} {o : Word16} {g : Nat} (h : ∀ pos, pos < g → (s.contentAt pos).isCopy = false) :
    s.sweptContexts o g = [] := by
  refine List.eq_nil_iff_forall_not_mem.mpr fun d hd => ?_
  obtain ⟨pos, c, hlt, hc, -, -⟩ := mem_sweptContexts.mp hd
  have := h pos hlt
  rw [hc] at this
  cases this

/-- What a divert to the make-up queue does to the queue and to the upstream queue. -/
theorem sendToMakeUp_units (d : Context) (g : Nat) (pitch : PitchIndex) (s : State) :
    (sendToMakeUp d g pitch (setContent g .empty s)).gm.queue =
      (s.sweptContexts d.copy.ordinal g).foldl (fun q e => insertContext e q) (insertContext d s.gm.queue) ∧
    (sendToMakeUp d g pitch (setContent g .empty s)).ll.upstream = s.ll.upstream ++ [d.record .diverted none pitch] ++
      (s.sweptContexts d.copy.ordinal g).map (fun e => e.record .swept none pitch) := by
  obtain ⟨hgm, hll⟩ := sweep_units d.copy.ordinal pitch g (place (d.record .diverted none pitch) (enqueue d (setContent g .empty s)))
  have hswept : (place (d.record .diverted none pitch) (enqueue d (setContent g .empty s))).sweptContexts d.copy.ordinal g =
      s.sweptContexts d.copy.ordinal g := sweptContexts_setContent s d.copy.ordinal g .empty
  rw [hswept] at hgm hll
  exact ⟨congrArg GateUnit.queue hgm, congrArg LinkController.upstream hll⟩

theorem modifyBundle_bu (o : Word16) (f : Bundle → Bundle) (s : State) : (modifyBundle o f s).bu = { s.bu with
    table := s.bu.table.map (fun b => if b.ordinal = o then f b else b) } := rfl

/-- The text of a context given up at the gate is freed. -/
theorem exceptAtGate_blocks (c : Context) (r : ExceptionReason) (pitch : PitchIndex) (s : State) :
    (exceptAtGate c r pitch s).au.blocksUsed = releaseBlocks s.au.blocksUsed c.copy.blocks := by
  change releaseBlocks (testComplete c.copy.ordinal _).au.blocksUsed _ = _
  rw [testComplete_au]; rfl

/-- An exception that completes its bundle behind an OPEN one: the bundle stays, COMPLETE. -/
theorem countExcepted_higher {s : State} {o : Word16} {b low : Bundle} {rest : List Bundle} (h : s.bundle o = some b)
    (hrec : b.receiving = false) (hc : b.complete = false) (hsum : b.delivered + b.excepted + 1 = b.expected)
    (ht : s.bu.table = low :: rest) (hne : low.ordinal ≠ o) (hlow : low.complete = false) :
    (testComplete o (countExcepted o s)).bu = { s.bu with table := s.bu.table.map (fun e =>
      if e.ordinal = o then { e with excepted := e.excepted + 1, complete := true } else e) } := by
  have htab : (countExcepted o s).bu.table = low :: rest.map (fun e =>
      if e.ordinal = o then { e with excepted := e.excepted + 1 } else e) := by
    rw [countExcepted_bu]
    dsimp only
    rw [ht, List.map_cons, if_neg hne]
  rw [testComplete_higher (bundle_countExcepted h) ((done_excepted b).mpr ⟨hrec, hsum⟩) hc htab hne hlow]
  rw [modifyBundle_bu, countExcepted_bu]
  simp only [List.map_map]
  congr 1
  refine List.map_congr_left fun e _ => ?_
  by_cases he : e.ordinal = o
  · simp only [Function.comp, if_pos he]
  · simp only [Function.comp, if_neg he]

/-- Settles O45: by whether another attempt is left. -/
theorem divertsGoToMakeUpOrException : Obligations.DivertsGoToMakeUpOrException := by
  intro c g pitch s b d hb hd
  obtain rfl : d = c.diverted := hd
  refine ⟨fun hlimit hmode => ?_, fun hexc => ?_⟩
  · obtain ⟨hq, hup⟩ := sendToMakeUp_units c.diverted g pitch s
    have hrest (h : ∀ pos, pos < g → (s.contentAt pos).isCopy = false) := sweptContexts_none (o := c.diverted.copy.ordinal) h
    rw [divert_makeUp hb hlimit hmode]
    simp only [reportTrackClear_bu, reportTrackClear_au, reportTrackClear_gm, reportTrackClear_ll, hq, hup]
    refine ⟨by simp, by simp, ?_, rfl, rfl, fun h => ?_⟩
    · exact mem_foldl_insertContext.mpr (.inr (mem_insertContext.mpr (.inl rfl)))
    · rw [hrest h]; exact ⟨rfl, List.append_nil _⟩
  · rw [divert_exception hb hexc]
    simp only [reportTrackClear_bu, reportTrackClear_au, reportTrackClear_gm, reportTrackClear_ll, exceptAtGate_gm,
      exceptAtGate_bu, exceptAtGate_ll, reportTrackClear_isCopy]
    change _ ∧ _ ∧ (∃ more, _ = _ ++ [c.diverted.record .exception (some (gateReason b c.diverted)) pitch] ++ more) ∧ _ ∧
      (_ → _ ∧ _ = _ ++ [c.diverted.record .exception (some (gateReason b c.diverted)) pitch]) ∧
      (∀ rest, _ → _ → _ → _ → _ → _ → _ ∧
        _ = _ ++ [c.diverted.record .exception (some (gateReason b c.diverted)) pitch, _]) ∧ _
    generalize hw : place (c.diverted.record .exception (some (gateReason b c.diverted)) pitch) (setContent g .empty s) = w
    have hwbu : w.bu = s.bu := by rw [← hw]; rfl
    have hwup : w.ll.upstream = s.ll.upstream ++ [c.diverted.record .exception (some (gateReason b c.diverted)) pitch] := by
      rw [← hw]; rfl
    have hwb : w.bundle c.copy.ordinal = some b := by rw [State.bundle, hwbu]; exact hb
    have ho := bundle_ordinal hb
    refine ⟨rfl, fun pos hpos hc => ?_, ?_, exceptAtGate_blocks _ _ _ _, fun hnd => ?_, fun rest h1 h2 h3 ht hne hhead => ?_,
      fun low rest h1 h2 h3 ht hne hlow => ?_⟩
    · have htu := exceptAtGate_tu c.diverted (gateReason b c.diverted) pitch (setContent g .empty s)
      rw [contentAt_of_tu htu, contentAt_setContent_other g pos _ s hpos]
      exact hc
    · obtain ⟨more, -, hmore⟩ := testComplete_upstream c.diverted.copy.ordinal (countExcepted c.diverted.copy.ordinal w)
      refine ⟨more, ?_⟩
      rw [hmore, ← hwup]; rfl
    · have hrests := countExcepted_rests (o := c.copy.ordinal) hwb hnd
      have hrests : testComplete c.diverted.copy.ordinal (countExcepted c.diverted.copy.ordinal w) = _ := hrests
      rw [hrests, countExcepted_bu, hwbu, ho]
      exact ⟨rfl, hwup⟩
    · obtain ⟨htab, hcl⟩ := countExcepted_lowest (s := w) (by rw [hwbu]; exact ht) h1 h2 h3 hne hhead
      rw [ho, hwup] at hcl
      rw [ho] at htab
      exact ⟨htab, hcl.trans (by rw [List.append_assoc]; rfl)⟩
    · rw [ho] at hne
      have := countExcepted_higher hwb h1 h2 h3 (by rw [hwbu]; exact ht) hne hlow
      rw [hwbu, ← ho] at this
      rw [← this, ho]; rfl

/-! ## The stack event (R141 to R143) -/

/-- One more delivered copy for a bundle, with its digest. -/
def Bundle.deliver (seq : Seq) (b : Bundle) : Bundle :=
  { b with delivered := b.delivered + 1, digest := b.digest + seq.setWidth 16 }

theorem deliver_done (seq : Seq) (b : Bundle) : (b.deliver seq).done = true ↔
    b.receiving = false ∧ b.delivered + b.excepted + 1 = b.expected := by
  change (!b.receiving && decide (b.delivered + 1 + b.excepted = b.expected)) = true ↔ _
  rw [Bool.and_eq_true, Bool.not_eq_true', decide_eq_true_eq, Nat.add_right_comm]

/-- What the exit of the context at T − 1 does, before its bundle is tested for completion. -/
def exited (count : State → State) (r : Record) (c : Context) (s : State) : State :=
  freeText c.copy.blocks (place r (count (setContent (s.trackLen - 1) .empty s)))

theorem deliver_eq (c : Context) (s : State) : deliver c s = reportTrackClear (testComplete c.copy.ordinal
    (exited (modifyBundle c.copy.ordinal (Bundle.deliver c.copy.seq)) (c.attempted.record .delivered none s.mu.pitch) c s)) := rfl

theorem lose_eq (c : Context) (pitch : PitchIndex) (s : State) : lose c pitch s = reportTrackClear (testComplete c.copy.ordinal
    (exited (countExcepted c.copy.ordinal) (c.attempted.record .exception (some .lost) pitch) c s)) := rfl

/-- An exit that does not complete its bundle. -/
theorem exited_rests {f : Bundle → Bundle} {r : Record} {c : Context} {s : State} {b : Bundle}
    (hb : s.bundle c.copy.ordinal = some b) (hf : ∀ e, (f e).ordinal = e.ordinal) (hd : (f b).done = false) :
    (∀ u, u = reportTrackClear (testComplete c.copy.ordinal (exited (modifyBundle c.copy.ordinal f) r c s)) →
      u.contentAt (s.trackLen - 1) = .empty ∧ f b ∈ u.bu.table ∧ u.bu.kicks = s.bu.kicks ∧
      u.ll.upstream = s.ll.upstream ++ [r] ∧ u.au.blocksUsed = releaseBlocks s.au.blocksUsed c.copy.blocks ∧
      u.gm = s.gm ∧ u.pp = s.pp) := by
  rintro u rfl
  have hat : (exited (modifyBundle c.copy.ordinal f) r c s).bundle c.copy.ordinal = some (f b) := bundle_modifyBundle hb hf rfl
  rw [testComplete_rests hat (by rw [hd]; exact fun h => absurd h.1 Bool.false_ne_true)]
  refine ⟨reportTrackClear_empty (contentAt_setContent_empty s _), ?_, ?_, ?_, ?_, ?_, ?_⟩
  · rw [reportTrackClear_bu]
    exact List.mem_of_find?_eq_some hat
  · rw [reportTrackClear_bu]; rfl
  · rw [reportTrackClear_ll]; rfl
  · rw [reportTrackClear_au]; rfl
  · rw [reportTrackClear_gm]; rfl
  · rw [reportTrackClear_pp]; rfl

theorem stackEvent_detected {i : StationNo} {s : State} {c : Context} (hc : s.contentAt (s.trackLen - 1) = .copy c)
    (hd : s.stackDetected i = true) : stackEvent i s = deliver c s := by
  simp only [stackEvent, hc, hd, if_true]

theorem stackEvent_lost {i : StationNo} {s : State} {c : Context} (hc : s.contentAt (s.trackLen - 1) = .copy c)
    (hd : s.stackDetected i = false) : stackEvent i s = lose c s.mu.pitch s := by
  simp only [stackEvent, hc, hd, Bool.false_eq_true, if_false]

theorem stackCloseOut_copy {ended : PitchIndex} {s : State} {c : Context} (hc : s.contentAt (s.trackLen - 1) = .copy c) :
    stackCloseOut ended s =
      lose (c.mark .suspect) ended (setContent (s.trackLen - 1) (.copy (c.mark .suspect)) s) := by
  simp only [stackCloseOut, hc]

/-- The bundles of a sound table have different ordinals. -/
theorem bundlesSound_head_ne {s : State} {b : Bundle} {rest : List Bundle} (h : s.BundlesSound) (ht : s.bu.table = b :: rest) :
    ∀ e ∈ rest, e.ordinal ≠ b.ordinal := by
  have hnd : (s.bu.table.map Bundle.ordinal).Nodup := by rw [h.2.1]; exact nodup_ordinalRun _ _ h.1
  rw [ht, List.map_cons, List.nodup_cons] at hnd
  exact fun e he heq => hnd.1 (heq ▸ List.mem_map_of_mem he)

/-- Settles O48: each exit through its bundle's count, the fire point through the stack event and the kick. -/
theorem stackEventDelivers : Obligations.StackEventDelivers := by
  refine ⟨fun i s c b hc hd hsound hb hne => ?_, fun i s c b hc hsound hb hne => ⟨fun hd => ?_, fun ended => ?_⟩,
    fun i s c b rest hc hd hsound hb ht hrec hcomp hsum hhead => ?_, fun i s => ⟨fun hk hf => ?_, fun hc => ?_, fun h => ?_,
      fun tray more hf ht hk => ?_⟩⟩
  · have hnd : (b.deliver c.copy.seq).done = false := by
      rw [← Bool.not_eq_true, deliver_done]; exact fun h => hne h.2
    exact exited_rests (f := Bundle.deliver c.copy.seq) hb (fun _ => rfl) hnd _ ((stackEvent_detected hc hd).trans (deliver_eq c s))
  · have hnd : ({ b with excepted := b.excepted + 1 } : Bundle).done = false := by
      rw [← Bool.not_eq_true, done_excepted]; exact fun h => hne h.2
    exact exited_rests (f := fun b => { b with excepted := b.excepted + 1 }) hb (fun _ => rfl) hnd _
      ((stackEvent_lost hc hd).trans (lose_eq c s.mu.pitch s))
  · have hnd : ({ b with excepted := b.excepted + 1 } : Bundle).done = false := by
      rw [← Bool.not_eq_true, done_excepted]; exact fun h => hne h.2
    generalize hw : setContent (s.trackLen - 1) (.copy (c.mark .suspect)) s = w
    have hlen : w.trackLen = s.trackLen := by rw [← hw, trackLen_setContent]
    have h := exited_rests (f := fun b => { b with excepted := b.excepted + 1 }) (s := w) (c := c.mark .suspect) (b := b)
      (by rw [← hw]; exact hb) (fun _ => rfl) hnd _
      ((stackCloseOut_copy (ended := ended) hc).trans ((congrArg (lose (c.mark .suspect) ended) hw).trans (lose_eq _ _ w)))
    obtain ⟨h1, h2, -, h4, h5, h6, h7⟩ := h
    rw [hlen] at h1
    refine ⟨h1, h2, h4.trans ?_, h5.trans ?_, h6.trans ?_, h7.trans ?_⟩ <;> rw [← hw] <;> rfl
  · have ho := bundle_ordinal hb
    rw [(stackEvent_detected hc hd).trans (deliver_eq c s), ← ho]
    generalize hw : exited (modifyBundle b.ordinal (Bundle.deliver c.copy.seq)) (c.attempted.record .delivered none s.mu.pitch) c s = w
    have hne := bundlesSound_head_ne hsound ht
    have htab : w.bu.table = b.deliver c.copy.seq :: rest := by
      rw [← hw]
      change s.bu.table.map _ = _
      rw [ht, map_bundle_head (f := Bundle.deliver c.copy.seq) hne]
    have hclose : testComplete b.ordinal w = _ :=
      testComplete_lowest (b := b.deliver c.copy.seq) htab ((deliver_done _ b).mpr ⟨hrec, hsum⟩) hcomp hne hhead
    have hkick : 0 < (b.deliver c.copy.seq).delivered := Nat.succ_pos _
    rw [reportTrackClear_bu, reportTrackClear_ll, hclose, if_pos hkick]
    refine ⟨rfl, ?_, ?_, ?_⟩ <;> rw [← hw]
    · rfl
    · rfl
    · exact List.append_assoc ..
  · rw [takeFirePoint]
    refine (if_pos (show (setFireWork i _ s).firing = true from hf)).trans ?_
    have hk : ((setFireWork i (fun w => { w with fired := true }) s).station i).kind = .stack := hk
    simp only [fireInFiring, hk, setOutcome, setFireWork_setFireWork]
    rfl
  · unfold stackEvent
    split
    · rename_i c h; rw [h] at hc; cases hc
    · rfl
  · unfold takeKick
    split
    · rfl
    · rename_i tray rest hk
      refine if_neg fun hm => ?_
      obtain ⟨h1, h2⟩ := (Bool.and_eq_true _ _).mp hm
      rcases h with h | h | h
      · rw [hk] at h; cases h
      · rw [h] at h1; cases h1
      · rw [h] at h2; cases h2
  · have hm : s.mayKick = true := by rw [State.mayKick, hf, ht]; rfl
    simp only [takeKick, hk, hm, if_true]

end Sys2Proof.Machine
end

section
/-! PROOFS. The Check Unit's judgements: the consecutive-fault limit, the caliper and the verify reader. -/

namespace Sys2Proof.Machine

/-! ## The consecutive-fault limit (R90, R91) -/

theorem contentAt_markAt {pos : Nat} {s : State} {c : Context} (m : Mark) (h : s.contentAt pos = .copy c) :
    (markAt pos m s).contentAt pos = .copy { c with marks := c.marks.add m } := by
  rw [markAt, contentAt_modifyContext_self, h]
  rfl

/-- A hold cause that joins with a notice of its own. -/
theorem raisedHold (c : HoldCause) (n : Notice) (s : State) :
    (raiseNotice n (addHold c s)).lc.holds = s.lc.holds.add c ∧
    (raiseNotice n (addHold c s)).ll.flags = setFlag (addHold c s).ll.flags (noticeCode n) ∧
    (s.lc.line = .running → s.lc.holds.isEmpty = true → (raiseNotice n (addHold c s)).lc.line = .holding) := by
  refine ⟨?_, by rw [raiseNotice_ll], fun hl hh => ?_⟩ <;> rw [raiseNotice_lc, addHold_lc]
  simp [hl, hh]

theorem checkWork_raisedHold (i : StationNo) (c : HoldCause) (n : Notice) (s : State) :
    (raiseNotice n (addHold c s)).checkWork i = s.checkWork i := by
  simp only [State.checkWork, raiseNotice_cu, addHold_cu]

theorem faultVerdict_off {i : StationNo} {m : Mark} {c : Context} {s : State} (h : (s.station i).faultLimit = 0) :
    faultVerdict i m c s = markAt (s.station i).offset m s := if_pos h

theorem faultVerdict_below {i : StationNo} {m : Mark} {c : Context} {s : State} (h0 : 0 < (s.station i).faultLimit)
    (h : (s.checkWork i).faultRun + 1 < (s.station i).faultLimit) : faultVerdict i m c s =
      setCheckWork i (fun w => { w with faultRun := w.faultRun + 1 }) (markAt (s.station i).offset m s) := by
  rw [faultVerdict, if_neg (Nat.ne_of_gt h0), if_pos h]

theorem faultVerdict_limit {i : StationNo} {m : Mark} {c : Context} {s : State} (h0 : 0 < (s.station i).faultLimit)
    (h : (s.station i).faultLimit ≤ (s.checkWork i).faultRun + 1) : faultVerdict i m c s =
      raiseNotice (.stationLimit i (s.station i).kind m c.copy.seq) (addHold .stationLimit
        (setCheckWork i (fun w => { w with faultRun := 0 }) (markAt (s.station i).offset m s))) := by
  rw [faultVerdict, if_neg (Nat.ne_of_gt h0), if_neg (Nat.not_lt.mpr h)]

/-- A verdict that faults the copy marks it, whatever the counter does. -/
theorem faultVerdict_tu (i : StationNo) (m : Mark) (c : Context) (s : State) :
    (faultVerdict i m c s).tu = (markAt (s.station i).offset m s).tu := by
  unfold faultVerdict
  dsimp only
  split
  · rfl
  · split <;> simp

theorem contentAt_faultVerdict {i : StationNo} {m : Mark} {c : Context} {s : State}
    (h : s.contentAt (s.station i).offset = .copy c) :
    (faultVerdict i m c s).contentAt (s.station i).offset = .copy { c with marks := c.marks.add m } := by
  rw [contentAt_of_tu (faultVerdict_tu i m c s), contentAt_markAt m h]

/-- Settles O37: the counter below its limit and at it. -/
theorem faultVerdictCountsToItsLimit : Obligations.FaultVerdictCountsToItsLimit := by
  intro i m c s hc
  refine ⟨contentAt_faultVerdict hc, fun h0 h => ?_, fun h0 h => ?_⟩
  · rw [faultVerdict_below h0 h]
    exact ⟨congrArg CheckWork.faultRun (checkWork_setCheckWork i (fun w => { w with faultRun := w.faultRun + 1 }) _), rfl⟩
  · rw [faultVerdict_limit h0 h]
    obtain ⟨hholds, hflags, hline⟩ := raisedHold .stationLimit (.stationLimit i (s.station i).kind m c.copy.seq)
      (setCheckWork i (fun w => { w with faultRun := 0 }) (markAt (s.station i).offset m s))
    refine ⟨?_, by rw [hholds]; rfl, ?_, hline⟩
    · rw [checkWork_raisedHold, checkWork_setCheckWork]
    · rw [hflags]
      exact getLsbD_setFlag _ 3 (by decide)

/-! ## The caliper (R82 to R86) -/

theorem samplePoint_zero (e : StationEntry) : samplePoint e 0 = e.windowStart := by simp [samplePoint]

theorem runTask_caliper_idle {forward : Bool} {i : StationNo} {s : State} (hk : (s.station i).kind = .caliper)
    (h : (s.checkWork i).measure = .idle) : runTask forward s (.caliper i) =
      if s.mu.phase = (s.station i).windowStart then beginMeasurement i s else s := by
  have hdue : s.caliperDue forward i = decide (s.mu.phase = (s.station i).windowStart) := by
    simp only [State.caliperDue, hk, h, samplePoint_zero, decide_true, Bool.true_and, eq_comm]
  simp only [runTask, hdue, decide_eq_true_eq, caliperCount, h]

/-- A sample that is not due is not taken, with any fuel. -/
theorem takeSamples_rests {i : StationNo} {s : State} (h : samplePoint (s.station i) (s.checkWork i).nextSample ≠ s.mu.phase)
    (n : Nat) : takeSamples i n s = s := by
  cases n with
  | zero => rfl
  | succ n => exact if_neg fun hc => h hc.2.2

theorem runTask_caliper_measuring {i : StationNo} {s : State} (hk : (s.station i).kind = .caliper)
    (h : (s.checkWork i).measure = .measuring) : runTask true s (.caliper i) = takeSamples i (2 ^ (s.station i).sampleExp) s := by
  have hdue : s.caliperDue true i = decide (samplePoint (s.station i) (s.checkWork i).nextSample = s.mu.phase) := by
    simp only [State.caliperDue, hk, h, decide_true, Bool.true_and]
  simp only [runTask, hdue, decide_eq_true_eq, caliperCount, h]
  split
  · rfl
  · rename_i hp; exact (takeSamples_rests hp _).symm

theorem station_takeSample (i j : StationNo) (s : State) : (takeSample i s).station j = s.station j := by
  simp only [State.station, takeSample_fu]

/-- One sample: its place in the sum, the number of samples taken, and the readings left. -/
theorem takeSample_work (i : StationNo) (s : State) : (takeSample i s).checkWork i = { s.checkWork i with
    sampleSum := (s.checkWork i).sampleSum + (convert (if (s.station i).channel then s.pins.cal1 else s.pins.cal0)).1
    nextSample := (s.checkWork i).nextSample + 1 } := by
  rw [takeSample, checkWork_setCheckWork]
  split <;> rfl

theorem takeSample_readings (i : StationNo) (s : State) :
    (if (s.station i).channel then (takeSample i s).pins.cal1 else (takeSample i s).pins.cal0) =
      (convert (if (s.station i).channel then s.pins.cal1 else s.pins.cal0)).2 := by
  unfold takeSample
  cases (s.station i).channel <;> rfl

/-- Fuel beyond the samples left changes nothing. -/
theorem takeSamples_fuel (i : StationNo) (n : Nat) (s : State)
    (h : 2 ^ (s.station i).sampleExp ≤ (s.checkWork i).nextSample + n) : takeSamples i (n + 1) s = takeSamples i n s := by
  induction n generalizing s with
  | zero => exact if_neg fun hc => Nat.not_lt.mpr h hc.2.1
  | succ n ih =>
    have hnext : 2 ^ ((takeSample i s).station i).sampleExp ≤ ((takeSample i s).checkWork i).nextSample + n := by
      rw [station_takeSample, takeSample_work]
      simp only
      omega
    rw [takeSamples]
    conv_rhs => rw [takeSamples]
    simp only [ih _ hnext]

theorem takeSamples_due {i : StationNo} {s : State} {n : Nat} (h : (s.checkWork i).measure = .measuring)
    (hk : (s.checkWork i).nextSample + 1 ≤ 2 ^ (s.station i).sampleExp)
    (hp : s.mu.phase = samplePoint (s.station i) (s.checkWork i).nextSample) : takeSamples i (n + 1) s =
      if (s.checkWork i).nextSample + 1 = 2 ^ (s.station i).sampleExp then completeMeasurement i (takeSample i s)
      else takeSamples i n (takeSample i s) := by
  rw [takeSamples, if_pos ⟨h, hk, hp.symm⟩]
  simp only [takeSample_work]

theorem caliper_samples {i : StationNo} {s : State} (hk : (s.station i).kind = .caliper)
    (h : (s.checkWork i).measure = .measuring) (hle : (s.checkWork i).nextSample + 1 ≤ 2 ^ (s.station i).sampleExp)
    (hp : s.mu.phase = samplePoint (s.station i) (s.checkWork i).nextSample) : runTask true s (.caliper i) =
      if (s.checkWork i).nextSample + 1 = 2 ^ (s.station i).sampleExp then completeMeasurement i (takeSample i s)
      else runTask true (takeSample i s) (.caliper i) := by
  obtain ⟨n, hn⟩ : ∃ n, 2 ^ (s.station i).sampleExp = n + 1 := ⟨_, (Nat.succ_pred_eq_of_pos (Nat.two_pow_pos _)).symm⟩
  have hrest : runTask true (takeSample i s) (.caliper i) = takeSamples i n (takeSample i s) := by
    rw [runTask_caliper_measuring (by rw [station_takeSample, hk]) (by rw [takeSample_work]; exact h), station_takeSample, hn]
    refine takeSamples_fuel i n _ ?_
    rw [station_takeSample, takeSample_work, hn]
    simp only
    omega
  rw [runTask_caliper_measuring hk h, hrest, hn, takeSamples_due h hle hp, hn]

theorem thicknessVerdict_measure (i : StationNo) (reading : Nat) (c : Context) (s : State) :
    ((thicknessVerdict i reading c s).checkWork i).measure = (s.checkWork i).measure := by
  have hfault : ∀ m, ((faultVerdict i m c s).checkWork i).measure = (s.checkWork i).measure := fun m => by
    unfold faultVerdict
    dsimp only
    split
    · rfl
    · split
      · rw [checkWork_setCheckWork]; rfl
      · rw [checkWork_raisedHold, checkWork_setCheckWork]; rfl
  unfold thicknessVerdict
  simp only
  generalize (if s.firstCaliper i then c.values.low1 else c.values.low2) = low
  generalize (if s.firstCaliper i then c.values.high1 else c.values.high2) = high
  split
  · exact hfault _
  · split
    · exact hfault _
    · rw [cleanVerdict, checkWork_setCheckWork]

theorem completeMeasurement_copy {i : StationNo} {s : State} {c : Context} (h : s.contentAt (s.station i).offset = .copy c) :
    completeMeasurement i s = thicknessVerdict i ((s.checkWork i).sampleSum / 2 ^ (s.station i).sampleExp) c
      (setCheckWork i (fun w => { w with measure := .done }) s) := by
  simp only [completeMeasurement, h]

theorem completeMeasurement_gap {i : StationNo} {s : State} (h : s.contentAt (s.station i).offset = .empty) :
    completeMeasurement i s = zeroCheck i ((s.checkWork i).sampleSum / 2 ^ (s.station i).sampleExp)
      (setCheckWork i (fun w => { w with measure := .done }) s) := by
  simp only [completeMeasurement, h]

theorem completeMeasurement_ghost {i : StationNo} {s : State} {g : Option Tag} (h : s.contentAt (s.station i).offset = .ghost g) :
    completeMeasurement i s = setCheckWork i (fun w => { w with measure := .done }) s := by
  simp only [completeMeasurement, h]

/-- The thickness verdict at no fault limit: the mark of the side on which the reading leaves the window. -/
theorem contentAt_thicknessVerdict {i : StationNo} {s : State} {c : Context} (reading : Nat)
    (h : s.contentAt (s.station i).offset = .copy c) :
    (thicknessVerdict i reading c s).contentAt (s.station i).offset = .copy
      (if reading < (if s.firstOf .caliper = some i then c.values.low1 else c.values.low2) then
        { c with marks := c.marks.add .thin }
       else if (if s.firstOf .caliper = some i then c.values.high1 else c.values.high2) < reading then
        { c with marks := c.marks.add .thick } else c) := by
  simp only [thicknessVerdict, State.firstCaliper, decide_eq_true_eq]
  generalize (if s.firstOf .caliper = some i then c.values.low1 else c.values.low2) = low
  generalize (if s.firstOf .caliper = some i then c.values.high1 else c.values.high2) = high
  split
  · exact contentAt_faultVerdict h
  · split
    · exact contentAt_faultVerdict h
    · exact h

/-! ### The zero check -/

theorem zeroCheck_off {i : StationNo} {reading : Nat} {s : State} (h : (s.station i).driftLimit = 0) :
    zeroCheck i reading s = s := if_pos h

theorem zeroCheck_clean {i : StationNo} {reading : Nat} {s : State} (h0 : 0 < (s.station i).driftLimit)
    (h : reading ≤ (s.station i).zmax) : zeroCheck i reading s = setCheckWork i (fun w => { w with drift := 0 }) s := by
  rw [zeroCheck, if_neg (Nat.ne_of_gt h0), if_pos h]

theorem zeroCheck_below {i : StationNo} {reading : Nat} {s : State} (h0 : 0 < (s.station i).driftLimit)
    (hz : (s.station i).zmax < reading) (h : (s.checkWork i).drift + 1 < (s.station i).driftLimit) :
    zeroCheck i reading s = setCheckWork i (fun w => { w with drift := w.drift + 1 }) s := by
  rw [zeroCheck, if_neg (Nat.ne_of_gt h0), if_neg (Nat.not_le.mpr hz), if_pos h]

theorem zeroCheck_limit {i : StationNo} {reading : Nat} {s : State} (h0 : 0 < (s.station i).driftLimit)
    (hz : (s.station i).zmax < reading) (h : (s.station i).driftLimit ≤ (s.checkWork i).drift + 1) :
    zeroCheck i reading s = raiseNotice (.caliperDrift i reading) (addHold .caliperDrift
      (setCheckWork i (fun w => { w with drift := 0 }) s)) := by
  rw [zeroCheck, if_neg (Nat.ne_of_gt h0), if_neg (Nat.not_le.mpr hz), if_neg (Nat.not_lt.mpr h)]

/-- What the zero check keeps: the track, and that the measurement is done. -/
theorem zeroCheck_keeps (i : StationNo) (reading : Nat) (s : State) : (zeroCheck i reading s).tu = s.tu ∧
    ((zeroCheck i reading s).checkWork i).measure = (s.checkWork i).measure := by
  unfold zeroCheck
  dsimp only
  split
  · exact ⟨rfl, rfl⟩
  · split
    · exact ⟨rfl, by rw [checkWork_setCheckWork]⟩
    · split
      · exact ⟨rfl, by rw [checkWork_setCheckWork]⟩
      · refine ⟨by simp, ?_⟩
        rw [checkWork_raisedHold, checkWork_setCheckWork]

/-- The zero check of a gap, as O38 states it. -/
theorem gap_measured {i : StationNo} {s : State} {reading : Nat}
    (hr : reading = (s.checkWork i).sampleSum / 2 ^ (s.station i).sampleExp)
    (h : s.contentAt (s.station i).offset = .empty) :
    ((completeMeasurement i s).checkWork i).measure = .done ∧ (completeMeasurement i s).tu = s.tu ∧
    ((s.station i).driftLimit = 0 → completeMeasurement i s = setCheckWork i (fun w => { w with measure := .done }) s) ∧
    (0 < (s.station i).driftLimit → reading ≤ (s.station i).zmax →
      ((completeMeasurement i s).checkWork i).drift = 0 ∧ (completeMeasurement i s).lc = s.lc) ∧
    (0 < (s.station i).driftLimit → (s.station i).zmax < reading → (s.checkWork i).drift + 1 < (s.station i).driftLimit →
      ((completeMeasurement i s).checkWork i).drift = (s.checkWork i).drift + 1 ∧ (completeMeasurement i s).lc = s.lc) ∧
    (0 < (s.station i).driftLimit → (s.station i).zmax < reading → (s.station i).driftLimit ≤ (s.checkWork i).drift + 1 →
      ((completeMeasurement i s).checkWork i).drift = 0 ∧ (completeMeasurement i s).lc.holds.caliperDrift = true ∧
      (completeMeasurement i s).ll.flags.getLsbD 4 = true ∧
      (s.lc.line = .running → s.lc.holds.isEmpty = true → (completeMeasurement i s).lc.line = .holding)) := by
  subst hr
  rw [completeMeasurement_gap h]
  generalize hreading : (s.checkWork i).sampleSum / 2 ^ (s.station i).sampleExp = reading
  have hwork : (setCheckWork i (fun w => { w with measure := .done }) s).checkWork i = { s.checkWork i with measure := .done } :=
    checkWork_setCheckWork _ _ _
  obtain ⟨htu, hmeasure⟩ := zeroCheck_keeps i reading (setCheckWork i (fun w => { w with measure := .done }) s)
  refine ⟨by rw [hmeasure, hwork], htu, fun h0 => zeroCheck_off h0, fun h0 hz => ?_, fun h0 hz hd => ?_, fun h0 hz hd => ?_⟩
  · rw [zeroCheck_clean (s := setCheckWork i _ s) h0 hz]
    exact ⟨by rw [checkWork_setCheckWork], rfl⟩
  · rw [zeroCheck_below (s := setCheckWork i _ s) h0 hz (by rw [hwork]; exact hd)]
    exact ⟨by rw [checkWork_setCheckWork, hwork], rfl⟩
  · rw [zeroCheck_limit (s := setCheckWork i _ s) h0 hz (by rw [hwork]; exact hd)]
    obtain ⟨hholds, hflags, hline⟩ := raisedHold .caliperDrift (.caliperDrift i reading)
      (setCheckWork i (fun w => { w with drift := 0 }) (setCheckWork i (fun w => { w with measure := .done }) s))
    refine ⟨?_, by rw [hholds]; rfl, ?_, hline⟩
    · rw [checkWork_raisedHold, checkWork_setCheckWork]
    · rw [hflags]
      exact getLsbD_setFlag _ 4 (by decide)

/-- The beginning of a measurement, as O38 states it. -/
theorem measurement_begins {i : StationNo} {s : State} (forward : Bool) (hk : (s.station i).kind = .caliper)
    (hm : (s.checkWork i).measure = .idle) (hp : s.mu.phase = (s.station i).windowStart) :
    (∀ g, s.firing = true → s.contentAt (s.station i).offset = .ghost g →
      runTask forward s (.caliper i) = setCheckWork i (fun w => { w with measure := .notTaken }) s) ∧
    (s.firing = false → ((runTask forward s (.caliper i)).checkWork i).measure = .notTaken ∧
      (∀ c, s.contentAt (s.station i).offset = .copy c → (runTask forward s (.caliper i)).contentAt
        (s.station i).offset = .copy { c with marks := c.marks.add .suspect })) ∧
    ((s.checkWork i).nextSample = 0 → s.firing = true → (s.contentAt (s.station i).offset).isGhost = false →
      runTask forward s (.caliper i) =
        runTask true (setCheckWork i (fun w => { w with measure := .measuring }) s) (.caliper i)) := by
  rw [runTask_caliper_idle hk hm, if_pos hp]
  refine ⟨fun g hf hg => by simp only [beginMeasurement, hf, if_true, hg], fun hf => ?_, fun hn hf hg => ?_⟩
  · have hbegin : beginMeasurement i s = suspectAt (s.station i).offset
        (setCheckWork i (fun w => { w with measure := .notTaken }) s) := if_neg (by rw [hf]; exact Bool.false_ne_true)
    rw [hbegin]
    refine ⟨congrArg CheckWork.measure (checkWork_setCheckWork i (fun w => { w with measure := .notTaken }) s), fun c hc => ?_⟩
    rw [contentAt_suspectAt, contentAt_of_tu (setCheckWork_tu _ _ _), hc]
    rfl
  · rw [runTask_caliper_measuring (s := setCheckWork i (fun w => { w with measure := .measuring }) s) hk
      (by rw [checkWork_setCheckWork])]
    simp only [beginMeasurement, hf, if_true]
    cases hc : s.contentAt (s.station i).offset with
    | ghost g => rw [hc] at hg; cases hg
    | _ => rfl

/-- Settles O38: the measurement's beginning, its samples, its completion on a copy, a gap and a ghost. -/
theorem caliperReadingJudgesTheCopy : Obligations.CaliperReadingJudgesTheCopy := by
  refine ⟨fun i s c reading low high hc _ hr hlow hhigh => ?_, fun i s forward hk hm => ?_, fun i s hk hm => ?_,
    fun i s v more hv => ?_, fun i s reading hr => ⟨fun g => completeMeasurement_ghost, gap_measured hr⟩⟩
  · subst hr hlow hhigh
    rw [completeMeasurement_copy hc]
    refine ⟨?_, contentAt_thicknessVerdict (s := setCheckWork i (fun w => { w with measure := .done }) s) _ hc⟩
    rw [thicknessVerdict_measure, checkWork_setCheckWork]
  · exact ⟨fun hp => (runTask_caliper_idle hk hm).trans (if_neg hp), measurement_begins forward hk hm⟩
  · refine ⟨if_neg (by simp [State.caliperDue, hm]), fun k point hkn hpoint => ?_⟩
    subst hkn hpoint
    refine ⟨fun hp => ?_, fun hp hlt => ?_, fun hp heq => ?_⟩
    · rw [runTask_caliper_measuring hk hm]
      exact takeSamples_rests (fun h => hp h.symm) _
    · rw [caliper_samples hk hm (Nat.le_of_lt hlt) hp, if_neg (Nat.ne_of_lt hlt)]
    · rw [caliper_samples hk hm (Nat.le_of_eq heq) hp, if_pos heq]
  · have hconvert : (convert (v :: more)).1 = v.toNat := by cases more <;> rfl
    have hwork := takeSample_work i s
    rw [hv, hconvert] at hwork
    refine ⟨by rw [hwork], by rw [hwork], by rw [hwork], fun w rest hmore => ?_, takeSample_tu i s, takeSample_mu i s,
      takeSample_lc i s⟩
    rw [takeSample_readings, hv, hmore]
    rfl

/-! ## The verify reader (R88, R89) -/

/-- Why a reader message is stray, if it is. -/
def State.StrayFor (s : State) (r : StrayReason) : Prop :=
  s.firstOf .verify = none ∧ r = StrayReason.noStation ∨
  (∃ i, s.firstOf .verify = some i ∧
    (s.contentAt (s.station i).offset = .empty ∧ r = .gap ∨
     (∃ g, s.contentAt (s.station i).offset = .ghost g ∧ r = .ghost) ∨
     (∃ c, s.contentAt (s.station i).offset = .copy c ∧ c.values.verify = true ∧ c.verifyResult ≠ none ∧ r = .answered)))

theorem readerArrival_stray {s : State} {r : StrayReason} (h : s.StrayFor r) (v : ReadResult) :
    readerArrival v s = strayRead r v s := by
  rcases h with ⟨hi, rfl⟩ | ⟨i, hi, ⟨hc, rfl⟩ | ⟨g, hc, rfl⟩ | ⟨c, hc, hv, hr, rfl⟩⟩
  · simp only [readerArrival, hi]
  · simp only [readerArrival, hi, hc]
  · simp only [readerArrival, hi, hc]
  · simp only [readerArrival, hi, hc, hv, if_true, if_neg hr]

theorem readerArrival_wanted {s : State} {i : StationNo} {c : Context} (hi : s.firstOf .verify = some i)
    (hc : s.contentAt (s.station i).offset = .copy c) (hv : c.values.verify = true) (hr : c.verifyResult = none)
    (v : ReadResult) : readerArrival v s =
      modifyContext (s.station i).offset (fun c => { c with verifyResult := some v }) s := by
  simp only [readerArrival, hi, hc, hv, hr, if_true]

theorem readerArrival_unwanted {s : State} {i : StationNo} {c : Context} (hi : s.firstOf .verify = some i)
    (hc : s.contentAt (s.station i).offset = .copy c) (hv : c.values.verify = false) (v : ReadResult) :
    readerArrival v s = s := by
  simp only [readerArrival, hi, hc, hv, Bool.false_eq_true, if_false]

/-- A reader message is a stray one, the answer that is wanted, or of no effect. -/
theorem readerArrival_cases (v : ReadResult) (s : State) : (∃ r, readerArrival v s = strayRead r v s) ∨
    (∃ i, readerArrival v s = modifyContext (s.station i).offset (fun c => { c with verifyResult := some v }) s) ∨
    readerArrival v s = s := by
  cases hi : s.firstOf .verify with
  | none => exact .inl ⟨_, readerArrival_stray (.inl ⟨hi, rfl⟩) v⟩
  | some i =>
    cases hc : s.contentAt (s.station i).offset with
    | empty => exact .inl ⟨_, readerArrival_stray (.inr ⟨i, hi, .inl ⟨hc, rfl⟩⟩) v⟩
    | ghost g => exact .inl ⟨_, readerArrival_stray (.inr ⟨i, hi, .inr (.inl ⟨g, hc, rfl⟩)⟩) v⟩
    | copy c =>
      cases hv : c.values.verify with
      | false => exact .inr (.inr (readerArrival_unwanted hi hc hv v))
      | true =>
        by_cases hr : c.verifyResult = none
        · exact .inr (.inl ⟨i, readerArrival_wanted hi hc hv hr v⟩)
        · exact .inl ⟨_, readerArrival_stray (.inr ⟨i, hi, .inr (.inr ⟨c, hc, hv, hr, rfl⟩)⟩) v⟩

/-- What a reader message leaves of the link: its receive state, and the queue but for one record. -/
theorem readerArrival_link (v : ReadResult) (s : State) : (readerArrival v s).ll.receive = s.ll.receive ∧
    (readerArrival v s).ll.upstream.length ≤ s.ll.upstream.length + 1 ∧ (readerArrival v s).cu.reader = s.cu.reader := by
  rcases readerArrival_cases v s with ⟨r, h⟩ | ⟨i, h⟩ | h
  · rw [h, strayRead, raiseNotice_cu]
    exact ⟨by rw [raiseNotice_ll], (raiseNotice_length_le _ _).2, rfl⟩
  · rw [h]; exact ⟨rfl, Nat.le_succ _, rfl⟩
  · rw [h]; exact ⟨rfl, Nat.le_succ _, rfl⟩

theorem strayRead_notice {r : StrayReason} {v : ReadResult} {s : State} (h : s.hasRoom = true) :
    (strayRead r v s).ll = { s.ll with
      flags := setFlag s.ll.flags 8
      upstream := s.ll.upstream ++ (if s.ll.mask.getLsbD 8 then [.notice (.strayRead r v) s.mu.pitch] else []) } :=
  raiseNotice_kind (s := { s with cu := { s.cu with strayRead := bump s.cu.strayRead } }) h rfl

/-- Settles O39, the message command: a reader message at a calm event. -/
theorem readerMessage_found (p : Pins) (s : State) (v : ReadResult) (cmd : Instr) (hs : s.Calm)
    (hcmd : (∃ w, v = .value w ∧ cmd = .read p w) ∨ (v = .noRead ∧ cmd = .noRead p)) :
    ∃ t, exec cmd s = .next t ∧ t.cu.reader = .idle ∧
      (∀ r, s.StrayFor r → t.cu.strayRead = min (s.cu.strayRead + 1) 65535 ∧ t.ll.flags.getLsbD 8 = true ∧ t.tu = s.tu ∧
        (s.ll.mask.getLsbD 8 = true → t.ll.upstream = s.ll.upstream ++ [.notice (.strayRead r v) s.mu.pitch])) ∧
      (∀ i c, s.firstOf .verify = some i → s.contentAt (s.station i).offset = .copy c → c.values.verify = true →
        c.verifyResult = none →
        t.contentAt (s.station i).offset = .copy { c with verifyResult := some v } ∧
        t.cu = { s.cu with reader := .idle }) ∧
      (∀ i c, s.firstOf .verify = some i → s.contentAt (s.station i).offset = .copy c → c.values.verify = false →
        t.tu = s.tu ∧ t.cu = { s.cu with reader := .idle }) ∧
      t.mu = s.mu ∧ t.fu = s.fu ∧ t.au = s.au ∧ t.pp = s.pp ∧ t.gm = s.gm ∧ t.bu = s.bu ∧ t.lc = s.lc := by
  generalize hu : setReader .idle (setPins p s) = u
  have hexec : exec cmd s = event p (fun s => readerArrival v (setReader .idle s)) s := by
    rcases hcmd with ⟨w, rfl, rfl⟩ | ⟨rfl, rfl⟩ <;> rfl
  have hlinku : u.ll = s.ll := by rw [← hu]; rfl
  have hlcu : u.lc = s.lc := by rw [← hu]; rfl
  have hroom : u.hasRoom = true := hasRoom_of_short (by rw [hlinku]; have := hs.2.2.1; omega)
  obtain ⟨hrec, hlen, hreader⟩ := readerArrival_link v u
  have hun : (readerArrival v u).Unreported := by
    refine unreported_of_placed hs (le_trans hlen ?_) (by rw [readerArrival_lc, hlcu])
    rw [hlinku]
    omega
  refine ⟨beginSending (readerArrival v u), ?_, ?_, fun r hr => ?_, fun i c hi hc hv hn => ?_, fun i c hi hc hv => ?_, ?_⟩
  · rw [hexec]
    exact event_unreported hs.1 (by rw [hu]) (by rw [hrec, hlinku]; exact hs.2.1) hun
  · rw [beginSending_cu, hreader, ← hu]; rfl
  · have hstray : u.StrayFor r := by rw [← hu]; exact hr
    rw [readerArrival_stray hstray, beginSending_ll, beginSending_cu, beginSending_tu, strayRead_notice hroom, strayRead_tu,
      strayRead, raiseNotice_cu, ← hu]
    exact ⟨rfl, getLsbD_setFlag _ 8 (by decide), rfl, fun hm => congrArg (s.ll.upstream ++ ·) (if_pos hm)⟩
  · rw [contentAt_of_tu (beginSending_tu _), beginSending_cu, ← hu,
      readerArrival_wanted (s := setReader .idle (setPins p s)) hi hc hv hn]
    refine ⟨?_, rfl⟩
    refine (contentAt_modifyContext_self (s.station i).offset _ (setReader .idle (setPins p s))).trans ?_
    exact congrArg (Content.mapContext _) hc
  · rw [beginSending_tu, beginSending_cu, ← hu, readerArrival_unwanted (s := setReader .idle (setPins p s)) hi hc hv]
    exact ⟨rfl, rfl⟩
  · rw [← hu]
    simp only [beginSending_mu, beginSending_fu, beginSending_au, beginSending_pp, beginSending_gm, beginSending_bu,
      beginSending_lc, readerArrival_mu, readerArrival_fu, readerArrival_au, readerArrival_pp, readerArrival_gm,
      readerArrival_bu, readerArrival_lc]
    exact ⟨rfl, rfl, rfl, rfl, rfl, rfl, rfl⟩

/-- Settles O39, the judgement of a context that wants an answer. -/
theorem verifyJudgement_wanted (s : State) (i : StationNo) (c : Context) (hi : s.firstOf .verify = some i)
    (hc : s.contentAt (s.station i).offset = .copy c) (hv : c.values.verify = true) :
    ((s.station i).faultLimit = 0 → c.verifyResult = none ∨ c.verifyResult = some .noRead →
      (verifyJudgement true s).contentAt (s.station i).offset = .copy { c with marks := c.marks.add .verifyAbsent }) ∧
    (∀ v, (s.station i).faultLimit = 0 → c.verifyResult = some (.value v) → v ≠ c.copy.seq.setWidth 16 →
      (verifyJudgement true s).contentAt (s.station i).offset = .copy { c with marks := c.marks.add .verifyMismatch }) ∧
    (c.verifyResult = some (.value (c.copy.seq.setWidth 16)) →
      verifyJudgement true s = setCheckWork i (fun w => { w with faultRun := 0 }) s) ∧
    (verifyJudgement false s).contentAt (s.station i).offset = .copy { c with marks := c.marks.add .suspect } ∧
    (verifyJudgement false s).cu = s.cu := by
  have hfalse : verifyJudgement false s = suspectAt (s.station i).offset s := by simp [verifyJudgement, hi, hc, hv]
  have htrue : verifyJudgement true s = match c.verifyResult with
      | some (.value v) => if v = c.copy.seq.setWidth 16 then cleanVerdict i s else faultVerdict i .verifyMismatch c s
      | _ => faultVerdict i .verifyAbsent c s := by
    simp only [verifyJudgement, hi, hc, hv, not_true_eq_false, if_false] <;> rfl
  refine ⟨fun _ hr => ?_, fun v _ hr hne => ?_, fun hr => ?_, ?_, by rw [hfalse]; rfl⟩
  · have hverdict : verifyJudgement true s = faultVerdict i .verifyAbsent c s := by
      rcases hr with hr | hr <;> simp only [htrue, hr]
    rw [hverdict]
    exact contentAt_faultVerdict hc
  · have hverdict : verifyJudgement true s = faultVerdict i .verifyMismatch c s := by
      simp only [htrue, hr, if_neg hne]
    rw [hverdict]
    exact contentAt_faultVerdict hc
  · rw [htrue, hr]
    exact if_pos rfl
  · rw [hfalse]
    exact contentAt_markAt .suspect hc

theorem verifyJudgement_none (s : State) (firing : Bool) (h : s.firstOf .verify = none ∨ (∃ i, s.firstOf .verify = some i ∧
    ((s.contentAt (s.station i).offset).isCopy = false ∨
      ∃ c, s.contentAt (s.station i).offset = .copy c ∧ c.values.verify = false))) : verifyJudgement firing s = s := by
  rcases h with hi | ⟨i, hi, hc | ⟨c, hc, hv⟩⟩
  · simp only [verifyJudgement, hi]
  · simp only [verifyJudgement, hi]
    cases h : s.contentAt (s.station i).offset with
    | copy c => rw [h] at hc; cases hc
    | _ => rfl
  · simp [verifyJudgement, hi, hc, hv]

/-- Settles O39: the messages and the judgement. -/
theorem readerMessagesFindTheirCopy : Obligations.ReaderMessagesFindTheirCopy :=
  ⟨fun p s v cmd hs hcmd => readerMessage_found p s v cmd hs hcmd, verifyJudgement_wanted, verifyJudgement_none⟩

end Sys2Proof.Machine
end

section
/-! PROOFS. The printer port: CLEARED, TAKEN, DONE, the dispatch of a job, the withdrawal and the print fire point. -/

namespace Sys2Proof.Machine

/-! ## What a stop-class fault does to the track -/

/-- Every position stands as it stood, but for SUSPECT on its context. -/
def State.Suspected (s t : State) : Prop := ∀ pos, t.contentAt pos = s.contentAt pos ∨
  t.contentAt pos = (s.contentAt pos).mapContext (Context.mark .suspect)

theorem State.Suspected.refl (s : State) : s.Suspected s := fun _ => .inl rfl

theorem State.Suspected.trans {s t u : State} (h : s.Suspected t) (k : t.Suspected u) : s.Suspected u := fun pos => by
  rcases k pos with hk | hk <;> rw [hk] <;> rcases h pos with hh | hh <;> rw [hh]
  · exact .inl rfl
  · exact .inr rfl
  · exact .inr rfl
  · exact .inr (mapContext_suspect_twice _)

theorem State.Suspected.of_tu {s t : State} (h : t.tu = s.tu) : s.Suspected t := fun pos => .inl (contentAt_of_tu h pos)

theorem abandonMeasurement_suspected (i : StationNo) (s : State) : s.Suspected (abandonMeasurement i s) := fun pos => by
  obtain ⟨hhit, hmiss⟩ := abandonMeasurement_contentAt s i pos
  by_cases h : s.measuring i ∧ (s.station i).offset = pos
  · exact .inr (hhit h.1 h.2)
  · exact .inl (hmiss (not_and_or.mp h))

theorem leaveFiring_suspected (s : State) : s.Suspected (leaveFiring s) := by
  have hall : s.Suspected (forStations abandonMeasurement (endPulses s)) :=
    forStations_inv (fun t => s.Suspected t) abandonMeasurement (fun i t ht => ht.trans (abandonMeasurement_suspected i t))
      (endPulses s) (.of_tu (endPulses_tu s))
  unfold leaveFiring
  generalize forStations abandonMeasurement (endPulses s) = t at hall
  exact hall.trans (.of_tu rfl)

theorem stopLine_suspected (l : LineState) (s : State) : s.Suspected (stopLine l s) := by
  have hline : s.Suspected (setLine l s) := .of_tu rfl
  unfold stopLine
  split
  · exact hline.trans (leaveFiring_suspected _)
  · exact hline

theorem stopFault_suspected (c : FaultCause) (st : Option StationNo) (s : State) : s.Suspected (stopFault c st s) := by
  unfold stopFault
  split
  · exact .of_tu (by simp [furtherFault])
  · exact (stopLine_suspected .faulted s).trans (.of_tu (by simp [beginEpisode]))

theorem stopFault_faults (c : FaultCause) (st : Option StationNo) (s : State) :
    ∃ f : FaultSet, (stopFault c st s).lc.faults = f.add c := by
  by_cases h : s.lc.line = .faulted
  · exact ⟨_, congrArg LineControl.faults ((stopFault_lc c st s).2 h)⟩
  · exact ⟨_, congrArg LineControl.faults ((stopFault_lc c st s).1 h)⟩

theorem stopFault_holds (c : FaultCause) (st : Option StationNo) (s : State) : (stopFault c st s).lc.holds = s.lc.holds := by
  by_cases h : s.lc.line = .faulted
  · rw [(stopFault_lc c st s).2 h]
  · rw [(stopFault_lc c st s).1 h]

theorem stopFault_fireWork (c : FaultCause) (st : Option StationNo) (s : State) (i : StationNo) (h : s.firing = true) :
    (stopFault c st s).fireWork i = { s.fireWork i with pulse := false } := by
  rw [State.fireWork, stopFault_fu, if_pos h]
  exact fireWork_endPulses i s

/-! ## CLEARED and TAKEN (R99, R103) -/

theorem bump_eq (n : Nat) : bump n = min (n + 1) 65535 := rfl

/-- An arrival that is the Printer Port's alone, at a calm event. -/
theorem printer_arrival {p : Pins} {s : State} {work : State → State} {pp : PrinterPort} (hs : s.Calm)
    (hwork : work (setPins p s) = { s with pins := p, pp := pp }) :
    event p work s = .next (beginSending { s with pins := p, pp := pp }) := event_calm hs hwork rfl rfl

theorem cleared_taken (p : Pins) (s : State) (hs : s.Calm) :
    exec (.cleared p) s = .next (beginSending { s with
      pins := p
      pp := if s.pp.synchronised then { s.pp with receive := .idle, stray := min (s.pp.stray + 1) 65535 }
            else { s.pp with receive := .idle, clears := s.pp.clears - 1, synchronised := decide (s.pp.clears ≤ 1) } }) := by
  refine printer_arrival (work := fun s => printerCleared (setPrinterReceive .idle s)) hs ?_
  have hone : decide (s.pp.clears - 1 = 0) = decide (s.pp.clears ≤ 1) := decide_eq_decide.mpr (by omega)
  cases h : s.pp.synchronised <;> simp [printerCleared, setPrinterReceive, setPins, countPrintStray, h, hone, bump_eq]

theorem taken_taken (p : Pins) (s : State) (tag : Tag) (hs : s.Calm) :
    exec (.taken p tag) s = .next (beginSending { s with
      pins := p
      pp := if s.pp.synchronised = true ∧ (∃ j ∈ s.pp.jobs, j.tag = tag ∧ j.taken = false) then
          { s.pp with receive := .idle, jobs := s.pp.jobs.map (fun j => if j.tag = tag then { j with taken := true } else j) }
        else { s.pp with receive := .idle, stray := min (s.pp.stray + 1) 65535 } }) := by
  refine printer_arrival (work := fun s => printerTaken tag (setPrinterReceive .idle s)) hs ?_
  have hany : s.pp.jobs.any (fun j => decide (j.tag = tag ∧ j.taken = false)) = true ↔
      ∃ j ∈ s.pp.jobs, j.tag = tag ∧ j.taken = false := by simp
  by_cases h : s.pp.synchronised = true ∧ (∃ j ∈ s.pp.jobs, j.tag = tag ∧ j.taken = false)
  · rw [if_pos h]
    exact if_pos ⟨h.1, hany.mpr h.2⟩
  · rw [if_neg h]
    exact if_neg (fun hc => h ⟨hc.1, hany.mp hc.2⟩)

/-! ## The dispatch of a job (R101) -/

section
variable {s : State} {i : StationNo} {lead : Nat} {c : Context} (hi : s.firstOf .print = some i)
  (hle : (s.station i).printLead ≤ (s.station i).offset) (hlead : lead = (s.station i).offset - (s.station i).printLead)
  (hc : s.contentAt lead = .copy c)
include hi hle hlead hc

theorem dispatchJob_due : dispatchJob s = if ¬ s.pp.synchronised then suspectAt lead s
    else if s.pp.jobs.length < 16 then makeJob lead c s else suspectAt lead (stopFault .printBacklog (some i) s) := by
  subst hlead
  simp only [dispatchJob, hi, if_neg (Nat.not_lt.mpr hle), hc]

theorem job_made (hsync : s.pp.synchronised = true) (hlen : s.pp.jobs.length < 16) :
    (dispatchJob s).contentAt lead = .copy { c with tag := some s.pp.nextTag } ∧
    (∀ pos, pos ≠ lead → (dispatchJob s).contentAt pos = s.contentAt pos) ∧
    (dispatchJob s).pp = { s.pp with
      jobs := s.pp.jobs ++
        [{ tag := s.pp.nextTag, lead := lead, dispatch := s.mu.pitch, taken := false, triggered := false }]
      transmit := s.pp.transmit ++
        [.job s.pp.nextTag c.copy.seq (readText c.copy.lineCount (s.au.pool.loadBlocks c.copy.blocks))]
      nextTag := s.pp.nextTag + 1 } ∧
    (dispatchJob s).lc = s.lc := by
  have hmade : dispatchJob s = makeJob lead c s := by
    rw [dispatchJob_due hi hle hlead hc, if_neg (not_not.mpr hsync), if_pos hlen]
  rw [hmade]
  refine ⟨(contentAt_modifyContext_self lead _ _).trans ?_, fun pos hpos => contentAt_modifyContext_other lead pos _ _ hpos,
    rfl, rfl⟩
  exact congrArg (Content.mapContext fun c => { c with tag := some s.pp.nextTag }) hc

theorem job_backlog (hsync : s.pp.synchronised = true) (hlen : 16 ≤ s.pp.jobs.length) :
    (dispatchJob s).contentAt lead = .copy { c with marks := c.marks.add .suspect } ∧ (dispatchJob s).pp = s.pp ∧
    (dispatchJob s).lc.line = .faulted ∧ (dispatchJob s).lc.faults.printBacklog = true := by
  have hfault : dispatchJob s = suspectAt lead (stopFault .printBacklog (some i) s) := by
    rw [dispatchJob_due hi hle hlead hc, if_neg (not_not.mpr hsync), if_neg (Nat.not_lt.mpr hlen)]
  rw [hfault]
  obtain ⟨f, hf⟩ := stopFault_faults .printBacklog (some i) s
  refine ⟨?_, by simp, stopFault_line .printBacklog (some i) s, by rw [suspectAt_lc, hf]; rfl⟩
  rw [contentAt_suspectAt]
  rcases stopFault_suspected .printBacklog (some i) s lead with h | h <;> rw [h, hc] <;> rfl

theorem job_unsynchronised (hsync : s.pp.synchronised = false) :
    (dispatchJob s).contentAt lead = .copy { c with marks := c.marks.add .suspect } ∧ (dispatchJob s).pp = s.pp ∧
    (dispatchJob s).lc = s.lc := by
  have hnone : dispatchJob s = suspectAt lead s := by
    rw [dispatchJob_due hi hle hlead hc, if_pos (by rw [hsync]; exact Bool.false_ne_true)]
  rw [hnone]
  exact ⟨contentAt_markAt .suspect hc, rfl, rfl⟩

end

theorem dispatchJob_none (s : State) (h : s.firstOf .print = none ∨ (∃ i, s.firstOf .print = some i ∧
    ((s.station i).offset < (s.station i).printLead ∨
      (s.contentAt ((s.station i).offset - (s.station i).printLead)).isCopy = false))) : dispatchJob s = s := by
  rcases h with hi | ⟨i, hi, hlt | hc⟩
  · simp only [dispatchJob, hi]
  · simp only [dispatchJob, hi, if_pos hlt]
  · simp only [dispatchJob, hi]
    split
    · rfl
    · cases h : s.contentAt ((s.station i).offset - (s.station i).printLead) with
      | copy c => rw [h] at hc; cases hc
      | _ => rfl

/-- Settles O41: the answers and the dispatch. -/
theorem clearedAndTakenAnswerThePrinterPort : Obligations.ClearedAndTakenAnswerThePrinterPort :=
  ⟨cleared_taken, taken_taken, fun _ _ _ _ hi hle hlead hc => ⟨job_made hi hle hlead hc, job_backlog hi hle hlead hc,
    job_unsynchronised hi hle hlead hc⟩, dispatchJob_none⟩

/-! ## DONE (R106, R107) -/

theorem printerDone_stray {t : Tag} {r : PrintResult} {s : State} (h : s.pp.synchronised = false) :
    printerDone t r s = countPrintStray s := if_pos (by rw [h]; exact Bool.false_ne_true)

theorem printerDone_head {t : Tag} {r : PrintResult} {s : State} {j : Job} {rest : List Job} (h : s.pp.synchronised = true)
    (hj : s.pp.jobs = j :: rest) (hdone : j.tag = t ∧ j.triggered = true) : printerDone t r s =
      match r with
      | .ok => { s with pp := { s.pp with jobs := rest } }
      | .fail => printFailed j { s with pp := { s.pp with jobs := rest } } := by
  simp only [printerDone, h, not_true_eq_false, if_false, hj, if_pos hdone] <;> rfl

theorem printerDone_order {t : Tag} {r : PrintResult} {s : State} (h : s.pp.synchronised = true)
    (hj : ∀ j rest, s.pp.jobs = j :: rest → ¬ (j.tag = t ∧ j.triggered = true)) :
    printerDone t r s = withdraw (stopFault .printOrder (s.firstOf .print) s) := by
  cases hjobs : s.pp.jobs with
  | nil => simp only [printerDone, h, not_true_eq_false, if_false, hjobs]
  | cons j rest => simp only [printerDone, h, not_true_eq_false, if_false, hjobs, if_neg (hj j rest hjobs)]

theorem printFailed_found {j : Job} {s : State} {c : Context} (hc : s.contentAt (j.position s.mu.pitch) = .copy c)
    (ht : c.tag = some j.tag) (hg : s.beforeGate (j.position s.mu.pitch) = true) :
    printFailed j s = markAt (j.position s.mu.pitch) .printFail s := by
  simp only [printFailed, hc, if_pos (show _ ∧ _ from ⟨hg, ht⟩)]

/-- A failed job marks at most one context: the rest of the part stays. -/
theorem printFailed_tu (j : Job) (s : State) : printFailed j s = { s with tu := (printFailed j s).tu } := by
  unfold printFailed
  dsimp only
  split
  · split <;> rfl
  · rfl

theorem printerDone_head_tu {t : Tag} {r : PrintResult} {s : State} {j : Job} {rest : List Job}
    (h : s.pp.synchronised = true) (hj : s.pp.jobs = j :: rest) (hdone : j.tag = t ∧ j.triggered = true) :
    printerDone t r s = { s with tu := (printerDone t r s).tu, pp := { s.pp with jobs := rest } } := by
  rw [printerDone_head h hj hdone]
  cases r with
  | ok => rfl
  | fail => exact printFailed_tu j _

theorem beforeGate_iff (s : State) (pos : Nat) : s.beforeGate pos = true ↔
    ∃ g, s.tu.gate = some g ∧ (pos < g ∨ pos = g ∧ s.gm.decided = false) := by
  unfold State.beforeGate
  cases s.tu.gate with
  | none => simp
  | some g => simp

/-- DONE out of order, or with no job: PRINT_ORDER and a withdrawal. -/
theorem printOrder_withdraws (st : Option StationNo) (s : State) :
    (withdraw (stopFault .printOrder st s)).lc.line = .faulted ∧
    (withdraw (stopFault .printOrder st s)).lc.faults.printOrder = true ∧
    (withdraw (stopFault .printOrder st s)).lc.holds = s.lc.holds ∧
    (withdraw (stopFault .printOrder st s)).ll = (raiseNotice (.fault .printOrder st
      (st.bind (fun i => s.seqAt (s.station i).offset)) (if s.lc.line = .faulted then bump255 s.lc.further else 0)) s).ll ∧
    (withdraw (stopFault .printOrder st s)).fu.stations = s.fu.stations := by
  obtain ⟨f, hf⟩ := stopFault_faults .printOrder st s
  rw [withdraw_lc, withdraw_ll, withdraw_fu]
  refine ⟨stopFault_line _ _ _, by rw [hf]; rfl, stopFault_holds _ _ _, stopFault_ll .printOrder st s, ?_⟩
  rw [stopFault_fu]
  split <;> rfl

/-- DONE, in any order, leaves the hold causes, the receive state, and the queue but for one record. -/
theorem printerDone_link (t : Tag) (r : PrintResult) (s : State) : (printerDone t r s).lc.holds = s.lc.holds ∧
    (printerDone t r s).ll.receive = s.ll.receive ∧ (printerDone t r s).ll.upstream.length ≤ s.ll.upstream.length + 1 := by
  cases h : s.pp.synchronised with
  | false =>
    rw [printerDone_stray h]
    exact ⟨rfl, rfl, Nat.le_succ _⟩
  | true =>
    by_cases hj : ∀ j rest, s.pp.jobs = j :: rest → ¬ (j.tag = t ∧ j.triggered = true)
    · obtain ⟨-, -, hholds, hll, -⟩ := printOrder_withdraws (s.firstOf .print) s
      rw [printerDone_order h hj, hholds, hll]
      exact ⟨rfl, by rw [raiseNotice_ll], (raiseNotice_length_le _ _).2⟩
    · push Not at hj
      obtain ⟨j, rest, hj, hdone⟩ := hj
      rw [printerDone_head_tu h hj hdone]
      exact ⟨rfl, rfl, Nat.le_succ _⟩

theorem printerDone_keeps (t : Tag) (r : PrintResult) (s : State) : (printerDone t r s).pp.receive = s.pp.receive ∧
    (printerDone t r s).au = s.au ∧ (printerDone t r s).bu = s.bu ∧ (printerDone t r s).fu.stations = s.fu.stations := by
  cases h : s.pp.synchronised with
  | false =>
    rw [printerDone_stray h]
    exact ⟨rfl, rfl, rfl, rfl⟩
  | true =>
    by_cases hj : ∀ j rest, s.pp.jobs = j :: rest → ¬ (j.tag = t ∧ j.triggered = true)
    · obtain ⟨-, -, -, -, hfu⟩ := printOrder_withdraws (s.firstOf .print) s
      obtain ⟨q, n, hpp, -⟩ := withdraw_pp (s := stopFault .printOrder (s.firstOf .print) s)
      rw [printerDone_order h hj, hpp, hfu, stopFault_pp]
      exact ⟨rfl, by simp, by simp, rfl⟩
    · push Not at hj
      obtain ⟨j, rest, hj, hdone⟩ := hj
      rw [printerDone_head_tu h hj hdone]
      exact ⟨rfl, rfl, rfl, rfl⟩

/-- Settles O42: DONE in order, out of order, and unsynchronised. -/
theorem doneEndsTheHeadJob : Obligations.DoneEndsTheHeadJob := by
  intro p s tag r hs
  generalize hu : setPrinterReceive .idle (setPins p s) = u
  have hppu : u.pp = { s.pp with receive := .idle } := by rw [← hu]; rfl
  have hlcu : u.lc = s.lc := by rw [← hu]; rfl
  have htuu : u.tu = s.tu := by rw [← hu]; rfl
  have hllu : u.ll = s.ll := by rw [← hu]; rfl
  obtain ⟨hholds, hrec, hlen⟩ := printerDone_link tag r u
  obtain ⟨hreceive, hau, hbu, hstations⟩ := printerDone_keeps tag r u
  have hun : (printerDone tag r u).Unreported := by
    refine unreported_of_placed hs (le_trans hlen ?_) (by rw [hholds, hlcu])
    rw [hllu]
    omega
  have hexec : exec (.done p tag r) s = .next (beginSending (printerDone tag r u)) :=
    event_unreported (work := fun s => printerDone tag r (setPrinterReceive .idle s)) hs.1 (by rw [hu])
      (by rw [hrec, hllu]; exact hs.2.1) hun
  refine ⟨_, hexec, ?_, fun h => ?_, fun j rest h hj htag htrig => ?_, fun h hj => ?_, ?_, ?_, ?_⟩
  · rw [beginSending_pp, hreceive, hppu]
  · rw [beginSending_pp, beginSending_tu, beginSending_lc, printerDone_stray (by rw [hppu]; exact h)]
    exact ⟨by rw [countPrintStray, hppu, bump_eq], htuu, hlcu⟩
  · have hdone := printerDone_head_tu (r := r) (s := u) (by rw [hppu]; exact h) (by rw [hppu]; exact hj) ⟨htag, htrig⟩
    have hhead := printerDone_head (r := r) (s := u) (by rw [hppu]; exact h) (by rw [hppu]; exact hj) ⟨htag, htrig⟩
    refine ⟨?_, ?_, ?_, ?_⟩
    · rw [beginSending_pp, hdone, hppu]
    · rw [beginSending_lc, hdone, ← hlcu]
    · rintro rfl
      rw [beginSending_tu, hhead, ← htuu]
    · rintro c pos rfl rfl hc ht hgate
      have hpos : (Job.position j u.mu.pitch) = j.lead + (s.mu.pitch - j.dispatch).toNat := by rw [← hu]; rfl
      generalize hw : ({ u with pp := { u.pp with jobs := rest } } : State) = w at hhead
      have htuw : w.tu = s.tu := by rw [← hw]; exact htuu
      have hposw : Job.position j w.mu.pitch = j.lead + (s.mu.pitch - j.dispatch).toNat := by rw [← hw]; exact hpos
      have hcw : w.contentAt (Job.position j w.mu.pitch) = .copy c := by rw [hposw, contentAt_of_tu htuw, hc]
      have hgw : w.beforeGate (Job.position j w.mu.pitch) = true := by
        rw [hposw, beforeGate_iff, htuw, ← hw, ← hu]
        exact hgate
      rw [contentAt_of_tu (beginSending_tu _), hhead]
      change (printFailed j w).contentAt _ = _
      rw [printFailed_found hcw (ht.trans (congrArg some htag.symm)) hgw, ← hposw]
      exact contentAt_markAt .printFail hcw
  · obtain ⟨hline, hfault, -⟩ := printOrder_withdraws (u.firstOf .print) u
    obtain ⟨q, n, hpp, -⟩ := withdraw_pp (s := stopFault .printOrder (u.firstOf .print) u)
    rw [beginSending_lc, beginSending_pp, printerDone_order (by rw [hppu]; exact h) (by rw [hppu]; exact hj), hpp]
    exact ⟨hline, hfault, rfl, rfl, rfl⟩
  · rw [beginSending_au, hau, ← hu]; rfl
  · rw [beginSending_bu, hbu, ← hu]; rfl
  · rw [beginSending_fu, hstations, ← hu]; rfl

end Sys2Proof.Machine
end

section
/-! PROOFS. The withdrawal of every job and the print fire point, taken or not. -/

namespace Sys2Proof.Machine

/-! ## The withdrawal (R102) -/

theorem withdrawContent_named {jobs : List Job} {c : Context} (h : ∃ j ∈ jobs, c.tag = some j.tag) :
    withdrawContent jobs (.copy c) = .copy { c.mark .suspect with tag := none } := by
  obtain ⟨j, hj, ht⟩ := h
  exact if_pos (by rw [ht]; exact (hasJob_iff jobs j.tag).mpr ⟨j, hj, rfl⟩)

theorem tag_unnamed {jobs : List Job} {g : Option Tag} (h : ∀ j ∈ jobs, g ≠ some j.tag) :
    ¬ (g.map (hasJob jobs)).getD false = true := by
  cases g with
  | none => exact Bool.false_ne_true
  | some t =>
    intro hjob
    obtain ⟨j, hj, rfl⟩ := (hasJob_iff jobs t).mp hjob
    exact h j hj rfl

theorem withdrawContent_unnamed {jobs : List Job} {c : Context} (h : ∀ j ∈ jobs, c.tag ≠ some j.tag) :
    withdrawContent jobs (.copy c) = .copy c := if_neg (tag_unnamed h)

theorem withdrawContent_ghost_named {jobs : List Job} {t : Tag} (h : ∃ j ∈ jobs, t = j.tag) :
    withdrawContent jobs (.ghost (some t)) = .ghost none := by
  obtain ⟨j, hj, rfl⟩ := h
  exact if_pos ((hasJob_iff jobs j.tag).mpr ⟨j, hj, rfl⟩)

theorem withdrawContent_ghost_unnamed {jobs : List Job} {g : Option Tag} (h : ∀ j ∈ jobs, g ≠ some j.tag) :
    withdrawContent jobs (.ghost g) = .ghost g := if_neg (tag_unnamed h)

/-- What is left of the transmit queue at a withdrawal, and of the number of CLEAR messages outstanding. -/
theorem withdraw_sends (s : State) :
    (s.pp.synchronised = false ∨ s.pp.clears = 255 →
      (withdraw s).pp.clears = s.pp.clears ∧
      (withdraw s).pp.transmit = s.pp.transmit.take 1 ++ s.pp.transmit.tail.filter (fun m => decide (m = .clear))) ∧
    (s.pp.synchronised = true → s.pp.clears ≠ 255 → PrinterMessage.clear ∉ s.pp.transmit.tail →
      (withdraw s).pp.clears = s.pp.clears + 1 ∧ (withdraw s).pp.transmit = s.pp.transmit.take 1 ++ [.clear]) ∧
    (s.pp.synchronised = true → s.pp.clears ≠ 255 → PrinterMessage.clear ∈ s.pp.transmit.tail →
      (withdraw s).pp.clears = max s.pp.clears 1 ∧
      (withdraw s).pp.transmit = s.pp.transmit.take 1 ++ s.pp.transmit.tail.filter (fun m => decide (m = .clear))) := by
  obtain ⟨hsend, hkeep⟩ := sendClear_dropped (q := s.pp.transmit) (s := { s with
    tu := { s.tu with track := s.tu.track.map (withdrawContent s.pp.jobs) }
    gm := { s.gm with queue := s.gm.queue.map (fun c => { c with tag := none }) }
    pp := { s.pp with transmit := dropJobs s.pp.transmit, jobs := [], nextTag := 0, synchronised := false } }) rfl
  refine ⟨fun h => ?_, fun hs hc hm => ?_, fun hs hc hm => ?_⟩
  · cases hs : s.pp.synchronised with
    | false =>
      rw [withdraw, if_neg (by rw [hs]; exact Bool.false_ne_true)]
      exact ⟨rfl, dropJobs_eq _⟩
    | true =>
      have h255 : s.pp.clears = 255 := h.resolve_left (by rw [hs]; exact Bool.noConfusion)
      rw [withdraw, if_pos hs]
      obtain ⟨hclears, hq⟩ := hkeep (.inl h255)
      exact ⟨hclears.trans (by simp only [h255]; rfl), hq⟩
  · rw [withdraw, if_pos hs]
    exact hsend hc hm
  · rw [withdraw, if_pos hs]
    exact hkeep (.inr hm)

theorem withdraw_tail_clear (s : State) : ∀ m ∈ (withdraw s).pp.transmit.tail, m = .clear := by
  have key : ∀ q l : List PrinterMessage, (∀ m ∈ l, m = .clear) → ∀ m ∈ (q.take 1 ++ l).tail, m = .clear := by
    intro q l hl m hm
    cases q with
    | nil => exact hl m (List.mem_of_mem_tail hm)
    | cons a q => exact hl m hm
  have hfilter : ∀ m ∈ s.pp.transmit.tail.filter (fun m => decide (m = .clear)), m = .clear := fun m hm =>
    of_decide_eq_true (List.mem_filter.mp hm).2
  obtain ⟨hquiet, hsent, hwaits⟩ := withdraw_sends s
  cases hs : s.pp.synchronised with
  | false => rw [(hquiet (.inl hs)).2]; exact key _ _ hfilter
  | true =>
    by_cases h255 : s.pp.clears = 255
    · rw [(hquiet (.inr h255)).2]; exact key _ _ hfilter
    · by_cases hm : PrinterMessage.clear ∈ s.pp.transmit.tail
      · rw [(hwaits hs h255 hm).2]; exact key _ _ hfilter
      · rw [(hsent hs h255 hm).2]; exact key _ _ (fun m hm => List.mem_singleton.mp hm)

theorem withdraw_trackLen (s : State) : (withdraw s).trackLen = s.trackLen := by
  rw [State.trackLen, withdraw_tu, List.length_map]; rfl

/-! ## The print fire point in a firing state (R104) -/

theorem printFired_triggers {i : StationNo} {s : State} {t : Tag} {j : Job}
    (ht : (s.contentAt (s.station i).offset).tag = some t) (hj : s.pp.jobs.find? (fun j => !j.triggered) = some j)
    (htag : j.tag = t) (htaken : j.taken = true) : printFired i s = { s with pp := { s.pp with
      jobs := s.pp.jobs.map (fun k => if k.tag = t then { k with triggered := true } else k) } } := by
  have htrig : triggerable s.pp.jobs t = true := by simp [triggerable, hj, htag, htaken]
  simp only [printFired, ht, htrig, if_true]

theorem printFired_fails {i : StationNo} {s : State} {t : Tag} (ht : (s.contentAt (s.station i).offset).tag = some t)
    (h : ∀ j, s.pp.jobs.find? (fun j => !j.triggered) = some j → j.tag = t → j.taken = false) :
    printFired i s = withdraw (stopFault .printSync (some i) s) := by
  have htrig : triggerable s.pp.jobs t = false := by
    cases hj : s.pp.jobs.find? (fun j => !j.triggered) with
    | none => simp only [triggerable, hj]
    | some j =>
      simp only [triggerable, hj]
      by_cases htag : j.tag = t
      · simp [htag, h j hj htag]
      · simp [htag]
  simp only [printFired, ht, htrig, Bool.false_eq_true, if_false]

section
variable {i : StationNo} {s : State} (hk : (s.station i).kind = .print)
include hk

theorem takeFirePoint_print_untagged (hf : s.firing = true) (ht : (s.contentAt (s.station i).offset).tag = none) :
    takeFirePoint i s = setFireWork i (fun w => { w with fired := true, outcome := .declined }) s := by
  generalize hu : setFireWork i (fun w => { w with fired := true }) s = u
  have hfire : takeFirePoint i s = setOutcome i .declined u := by
    rw [← hu]
    have hno : firesOn (s.station i) (s.contentAt (s.station i).offset) = false := by simp only [firesOn, hk, ht]; rfl
    refine (if_pos hf).trans ?_
    unfold fireInFiring
    have hk' : ((setFireWork i (fun w => { w with fired := true }) s).station i).kind = .print := hk
    rw [hk']
    exact if_neg fun h => Bool.false_ne_true (hno.symm.trans h)
  rw [hfire, ← hu]
  exact setFireWork_setFireWork i _ _ s

theorem takeFirePoint_print_tagged {t : Tag} (hf : s.firing = true) (ht : (s.contentAt (s.station i).offset).tag = some t) :
    takeFirePoint i s = printFired i (fireWithPulse i (setFireWork i (fun w => { w with fired := true }) s)) := by
  have hyes : firesOn (s.station i) (s.contentAt (s.station i).offset) = true := by simp only [firesOn, hk, ht]; rfl
  refine (if_pos hf).trans ?_
  unfold fireInFiring
  have hk' : ((setFireWork i (fun w => { w with fired := true }) s).station i).kind = .print := hk
  rw [hk']
  exact if_pos hyes

theorem takeFirePoint_print_skipped (hf : s.firing = false) : takeFirePoint i s =
    printNotTaken i (setFireWork i (fun w => { w with fired := true, outcome := .skipped }) s) := by
  have hskip : takeFirePoint i s = stationMissed i (setOutcome i .skipped (setFireWork i (fun w => { w with fired := true }) s)) :=
    if_neg (fun h => Bool.false_ne_true (hf.symm.trans h))
  rw [hskip, setOutcome, setFireWork_setFireWork]
  exact stationMissed_print hk

end

theorem fireWithPulse_work (i : StationNo) (s : State) : (fireWithPulse i (setFireWork i (fun w => { w with fired := true }) s)).fireWork i =
    { s.fireWork i with fired := true, outcome := .fired, pulse := true, pulseEnd := (s.fireWork i).e + (s.station i).pulseLength } := by
  rw [fireWithPulse, startPulse, fireWork_setFireWork, setOutcome, fireWork_setFireWork, fireWork_setFireWork]
  rfl

/-- A print fire point that triggers the oldest job. -/
theorem printFire_triggers {i : StationNo} {s : State} {t : Tag} {j : Job} (hk : (s.station i).kind = .print)
    (hf : s.firing = true) (ht : (s.contentAt (s.station i).offset).tag = some t)
    (hj : s.pp.jobs.find? (fun j => !j.triggered) = some j) (htag : j.tag = t) (htaken : j.taken = true) :
    (takeFirePoint i s).pp =
      { s.pp with jobs := s.pp.jobs.map (fun k => if k.tag = t then { k with triggered := true } else k) } ∧
    ((takeFirePoint i s).fireWork i).outcome = .fired ∧ ((takeFirePoint i s).fireWork i).pulse = true ∧
    ((takeFirePoint i s).fireWork i).pulseEnd = (s.fireWork i).e + (s.station i).pulseLength ∧
    (takeFirePoint i s).tu = s.tu ∧ (takeFirePoint i s).lc = s.lc := by
  have hwork := fireWithPulse_work i s
  rw [takeFirePoint_print_tagged hk hf ht]
  generalize hv : fireWithPulse i (setFireWork i (fun w => { w with fired := true }) s) = v at hwork ⊢
  have hpp : v.pp = s.pp := by rw [← hv]; rfl
  have hfired := printFired_triggers (i := i) (s := v) (by rw [← hv]; exact ht) (by rw [hpp]; exact hj) htag htaken
  rw [hfired]
  refine ⟨by rw [hpp], ?_, ?_, ?_, by rw [← hv]; rfl, by rw [← hv]; rfl⟩
  · exact congrArg FireWork.outcome hwork
  · exact congrArg FireWork.pulse hwork
  · exact congrArg FireWork.pulseEnd hwork

/-- A print fire point that finds another job the oldest, or its own job not taken. -/
theorem printFire_fails {i : StationNo} {s : State} {t : Tag} (hk : (s.station i).kind = .print)
    (hf : s.firing = true) (ht : (s.contentAt (s.station i).offset).tag = some t) (hjob : ∃ k ∈ s.pp.jobs, k.tag = t)
    (h : ∀ j, s.pp.jobs.find? (fun j => !j.triggered) = some j → j.tag = t → j.taken = false) :
    ((takeFirePoint i s).fireWork i).outcome = .fired ∧ ((takeFirePoint i s).fireWork i).pulse = false ∧
    (takeFirePoint i s).lc.line = .faulted ∧ (takeFirePoint i s).lc.faults.printSync = true ∧
    (takeFirePoint i s).pp.jobs = [] ∧ (takeFirePoint i s).pp.synchronised = false ∧
    (∀ c, s.contentAt (s.station i).offset = .copy c →
      (takeFirePoint i s).contentAt (s.station i).offset =
        .copy { c with marks := c.marks.add .suspect, tag := none }) := by
  have hwork := fireWithPulse_work i s
  rw [takeFirePoint_print_tagged hk hf ht]
  generalize hv : fireWithPulse i (setFireWork i (fun w => { w with fired := true }) s) = v at hwork ⊢
  have hpp : v.pp = s.pp := by rw [← hv]; rfl
  have hfv : v.firing = true := by rw [← hv]; exact hf
  have htu : v.tu = s.tu := by rw [← hv]; rfl
  have hfired := printFired_fails (i := i) (s := v) (by rw [← hv]; exact ht) (by rw [hpp]; exact h)
  have hfault := stopFault_fireWork .printSync (some i) v i hfv
  obtain ⟨f, hfaults⟩ := stopFault_faults .printSync (some i) v
  obtain ⟨q, n, hwpp, -⟩ := withdraw_pp (s := stopFault .printSync (some i) v)
  have hfw : (printFired i v).fireWork i = (stopFault .printSync (some i) v).fireWork i := by
    rw [hfired, State.fireWork, withdraw_fu]; rfl
  rw [hfw, hfault, hwork, hfired, withdraw_lc, hfaults, hwpp]
  refine ⟨rfl, rfl, stopFault_line _ _ _, rfl, rfl, rfl, fun c hc => ?_⟩
  obtain ⟨k, hmem, hkt⟩ := hjob
  have htag : c.tag = some k.tag := by rw [hc] at ht; exact ht.trans (congrArg some hkt.symm)
  rw [contentAt_withdraw, stopFault_pp, hpp]
  rcases stopFault_suspected .printSync (some i) v (s.station i).offset with hsame | hmark
  · rw [hsame, contentAt_of_tu htu, hc]
    exact withdrawContent_named ⟨k, hmem, htag⟩
  · rw [hmark, contentAt_of_tu htu, hc]
    exact withdrawContent_named (c := c.mark .suspect) ⟨k, hmem, htag⟩

/-! ## The print fire point not taken (R105) -/

theorem contentAt_printNotTaken_tagged {i : StationNo} {s : State} {c : Context} {t : Tag}
    (hc : s.contentAt (s.station i).offset = .copy c) (ht : c.tag = some t) :
    (printNotTaken i s).contentAt (s.station i).offset = .copy { c with
      marks := c.marks.add .suspect, tag := if ∃ j ∈ s.pp.jobs, j.tag = t then none else some t } := by
  have hmark := contentAt_markAt .suspect hc
  rw [printNotTaken_tagged (t := t) (by rw [hc]; exact ht), contentAt_withdraw]
  refine (congrArg (withdrawContent s.pp.jobs) hmark).trans ?_
  by_cases h : ∃ j ∈ s.pp.jobs, j.tag = t
  · obtain ⟨j, hj, htag⟩ := h
    rw [if_pos ⟨j, hj, htag⟩]
    exact withdrawContent_named (c := c.mark .suspect) ⟨j, hj, ht.trans (congrArg some htag.symm)⟩
  · rw [if_neg h, ← ht]
    refine withdrawContent_unnamed (c := c.mark .suspect) fun j hj hjt => h ⟨j, hj, ?_⟩
    exact (Option.some.inj (ht.symm.trans hjt)).symm

theorem printNotTaken_ghost {i : StationNo} {s : State} {t : Tag} (h : s.contentAt (s.station i).offset = .ghost (some t)) :
    printNotTaken i s = withdraw s := by
  rw [printNotTaken_tagged (t := t) (by rw [h]; rfl), suspectAt_of_not_isCopy (by rw [h]; rfl)]

theorem printNotTaken_rests {i : StationNo} {s : State}
    (h : s.contentAt (s.station i).offset = .empty ∨ s.contentAt (s.station i).offset = .ghost none) : printNotTaken i s = s := by
  have hnone : (s.contentAt (s.station i).offset).tag = none ∧ (s.contentAt (s.station i).offset).isCopy = false := by
    rcases h with h | h <;> rw [h] <;> exact ⟨rfl, rfl⟩
  rw [printNotTaken_untagged hnone.1, suspectAt_of_not_isCopy hnone.2]

theorem printCloseOut_due {i : StationNo} {s : State} (hk : (s.station i).kind = .print) (h : (s.fireWork i).fired = false) :
    printCloseOut i s = printNotTaken i s := if_pos ⟨by simp [State.notReached, hk, h, StationKind.fires], hk⟩

/-- Settles O43: the withdrawal, and the print fire point taken and not taken. -/
theorem withdrawalGivesUpEveryJob : Obligations.WithdrawalGivesUpEveryJob := by
  refine ⟨fun s => ?_, fun i s hk hf => ⟨takeFirePoint_print_untagged hk hf, fun t ht =>
    ⟨fun j hj htag htaken => printFire_triggers hk hf ht hj htag htaken, fun hjob h => printFire_fails hk hf ht hjob h⟩⟩,
    fun i s hk => ⟨takeFirePoint_print_skipped hk, printCloseOut_due hk, fun c hc ht => ?_, fun c t hc ht => ?_,
      fun t => printNotTaken_ghost, printNotTaken_rests, printNotTaken_lc i s⟩⟩
  · obtain ⟨hquiet, hsent, hwaits⟩ := withdraw_sends s
    obtain ⟨q, n, hpp, -⟩ := withdraw_pp (s := s)
    refine ⟨by rw [hpp], by rw [hpp], by rw [hpp], withdraw_tail_clear s, fun pos c hc h => ?_, fun pos c hc h => ?_,
      fun pos t hc h => ?_, fun pos g hc h => ?_, fun pos hc => ?_, congrArg State.gm (withdraw_eq (s := s)), hquiet, hsent,
      hwaits, withdraw_trackLen s, withdraw_mu s, withdraw_fu s, withdraw_au s, withdraw_lc s, withdraw_ll s, withdraw_bu s⟩
    · rw [contentAt_withdraw, hc]; exact withdrawContent_named h
    · rw [contentAt_withdraw, hc]; exact withdrawContent_unnamed h
    · rw [contentAt_withdraw, hc]; exact withdrawContent_ghost_named h
    · rw [contentAt_withdraw, hc]; exact withdrawContent_ghost_unnamed h
    · rw [contentAt_withdraw, hc]; rfl
  · rw [printNotTaken_untagged (by rw [hc]; exact ht)]
    exact ⟨contentAt_markAt .suspect hc, rfl⟩
  · refine ⟨contentAt_printNotTaken_tagged hc ht, ?_⟩
    rw [printNotTaken_tagged (t := t) (by rw [hc]; exact ht)]
    exact withdraw_pp_congr rfl

end Sys2Proof.Machine
end

section
/-! PROOFS. The gate's decision, at its fire point and as a function of the copy and the port. -/

namespace Sys2Proof.Machine

/-! ## A decision on a context (R115) -/

theorem MarkSet.isEmpty_iff (m : MarkSet) : m.isEmpty = true ↔ m = MarkSet.empty := decide_eq_true_iff

/-- A decision on a context that stands as `d` before the override: it passes, with its marks, or is diverted. -/
theorem decideGate_copy {atFirePoint : Bool} {g : Nat} {pitch : PitchIndex} {s : State} {c d : Context}
    (hc : s.contentAt g = .copy c)
    (hd : decisionMarks atFirePoint g pitch s c = if atFirePoint && s.firing && s.fu.divertAll then d.mark .forced else d) :
    ((decideGate atFirePoint g pitch s).1 = true ↔
      atFirePoint = true ∧ s.firing = true ∧ s.fu.divertAll = false ∧ (d.marks = MarkSet.empty ∨ s.fu.passAll = true)) ∧
    ((decideGate atFirePoint g pitch s).1 = true → (decideGate atFirePoint g pitch s).2 = setContent g (.copy d) s) ∧
    ((decideGate atFirePoint g pitch s).1 = false → (decideGate atFirePoint g pitch s).2.contentAt g = .empty ∧
      (decideGate atFirePoint g pitch s).2 = divert
        (if atFirePoint = true ∧ s.firing = true ∧ s.fu.divertAll = true then { d with marks := d.marks.add .forced } else d)
        g pitch s) := by
  have hdecide : decideGate atFirePoint g pitch s = if passes atFirePoint s (decisionMarks atFirePoint g pitch s c) then
      (true, setContent g (.copy (decisionMarks atFirePoint g pitch s c)) s)
      else (false, divert (decisionMarks atFirePoint g pitch s c) g pitch s) := by
    simp only [decideGate, hc]
  have hforced : decisionMarks atFirePoint g pitch s c =
      if atFirePoint = true ∧ s.firing = true ∧ s.fu.divertAll = true then { d with marks := d.marks.add .forced } else d := by
    rw [hd]
    exact if_congr (by simp [and_assoc]) rfl rfl
  have hpass : passes atFirePoint s (decisionMarks atFirePoint g pitch s c) = true ↔
      atFirePoint = true ∧ s.firing = true ∧ s.fu.divertAll = false ∧ (d.marks = MarkSet.empty ∨ s.fu.passAll = true) := by
    simp only [passes, Bool.and_eq_true, Bool.or_eq_true, Bool.not_eq_true', MarkSet.isEmpty_iff, and_assoc]
    refine and_congr_right fun _ => and_congr_right fun _ => and_congr_right fun hdiv => ?_
    rw [hforced, if_neg (fun h => Bool.false_ne_true (hdiv.symm.trans h.2.2))]
  by_cases h : passes atFirePoint s (decisionMarks atFirePoint g pitch s c) = true
  · rw [hdecide, if_pos h]
    refine ⟨iff_of_true rfl (hpass.mp h), fun _ => ?_, fun hf => Bool.noConfusion hf⟩
    rw [hforced, if_neg (fun hx => Bool.false_ne_true ((hpass.mp h).2.2.1.symm.trans hx.2.2))]
  · rw [hdecide, if_neg h]
    refine ⟨iff_of_false Bool.false_ne_true (mt hpass.mpr h), fun hf => Bool.noConfusion hf, fun _ => ?_⟩
    rw [hforced]
    exact ⟨(divert_spec s _ g pitch).2.1, rfl⟩

/-- With no PRINT station no confirmation is asked for. -/
theorem decisionMarks_noPrint {atFirePoint : Bool} {g : Nat} {pitch : PitchIndex} {s : State} {c : Context}
    (h : s.firstOf .print = none) : decisionMarks atFirePoint g pitch s c =
      if atFirePoint && s.firing && s.fu.divertAll then c.mark .forced else c := by
  simp only [decisionMarks, h]

/-- With a PRINT station the confirmation's mark joins first. -/
theorem decisionMarks_print {atFirePoint : Bool} {g : Nat} {pitch : PitchIndex} {s : State} {c d : Context} {i : StationNo}
    (h : s.firstOf .print = some i)
    (hd : ((((∃ j ∈ s.pp.jobs, c.tag = some j.tag ∧ j.lead + (pitch - j.dispatch).toNat = g) ∨
         c.tag = none ∧ c.marks.suspect = false) ∧
         d = { c with marks := c.marks.add (if s.firing = true then .printUnconfirmed else .suspect) }) ∨
       ((∃ t, c.tag = some t ∧ ∀ j ∈ s.pp.jobs, j.tag = t → j.lead + (pitch - j.dispatch).toNat ≠ g) ∨
         c.tag = none ∧ c.marks.suspect = true) ∧ d = c)) : decisionMarks atFirePoint g pitch s c =
      if atFirePoint && s.firing && s.fu.divertAll then d.mark .forced else d := by
  simp only [decisionMarks, h]
  rcases hd with ⟨hmiss, rfl⟩ | ⟨hfound, rfl⟩
  · have hconf : printConfirmation s.firing g pitch s.pp.jobs c = some (if s.firing = true then .printUnconfirmed else .suspect) := by
      rcases hmiss with ⟨j, hj, ht, hp⟩ | ⟨ht, hs⟩
      · simp only [printConfirmation, ht]
        exact if_pos (List.any_eq_true.mpr ⟨j, hj, decide_eq_true ⟨rfl, hp⟩⟩)
      · simp [printConfirmation, ht, hs]
    rw [hconf]
    rfl
  · have hconf : printConfirmation s.firing g pitch s.pp.jobs d = none := by
      rcases hfound with ⟨t, ht, hnone⟩ | ⟨ht, hs⟩
      · simp only [printConfirmation, ht]
        refine if_neg fun hany => ?_
        obtain ⟨j, hj, hjt⟩ := List.any_eq_true.mp hany
        obtain ⟨htag, hp⟩ := of_decide_eq_true hjt
        exact hnone j hj htag hp
      · simp [printConfirmation, ht, hs]
    rw [hconf]

/-! ## A decision on a ghost (R117) -/

/-- A track that holds nothing keeps its positions where the line stops. -/
theorem stopLine_tu_clear {l : LineState} {s : State} (h : s.trackOccupied = false) : (stopLine l s).tu = s.tu := by
  have hnone : ∀ t : State, t.tu = s.tu → ∀ pos, (t.contentAt pos).isCopy = false := by
    intro t ht pos
    rw [contentAt_of_tu ht, State.contentAt, List.getD_eq_getElem?_getD]
    cases hc : s.tu.track[pos]? with
    | none => rfl
    | some c =>
      have := List.any_eq_false.mp h c (List.mem_of_getElem? hc)
      cases c with
      | copy c => exact absurd rfl this
      | _ => rfl
  have habandon : ∀ t : State, t.tu = s.tu → (forStations abandonMeasurement t).tu = s.tu := by
    refine forStations_inv (fun t => t.tu = s.tu) abandonMeasurement fun i t ht => ?_
    unfold abandonMeasurement
    split
    · rw [suspectAt_of_not_isCopy (hnone _ (by rw [setCheckWork_tu, ht]) _)]
      exact ht
    · exact ht
  have hleave : (leaveFiring (setLine l s)).tu = s.tu := by
    have := habandon (endPulses (setLine l s)) (endPulses_tu _)
    unfold leaveFiring
    generalize forStations abandonMeasurement (endPulses (setLine l s)) = t at this
    exact this
  unfold stopLine
  split
  · exact hleave
  · rfl

theorem reportTrackClear_runs {s : State} (h : s.lc.line ≠ .runOut ∨ s.trackOccupied = true) : reportTrackClear s = s :=
  if_neg fun hc => h.elim (fun hl => hl hc.1) hc.2

theorem reportTrackClear_lc (s : State) : (reportTrackClear s).lc = { s.lc with
    line := if s.lc.line = .runOut ∧ s.trackOccupied = false then .stopped else s.lc.line } := by
  by_cases h : s.lc.line = .runOut ∧ s.trackOccupied = false
  · rw [reportTrackClear, if_pos ⟨h.1, by rw [h.2]; exact Bool.false_ne_true⟩, stopLine_lc, if_pos h]
  · rw [reportTrackClear, if_neg (by simpa using h), if_neg h]

theorem reportTrackClear_tu (s : State) : s.Suspected (reportTrackClear s) ∧
    (s.trackOccupied = false → (reportTrackClear s).tu = s.tu) := by
  unfold reportTrackClear
  split
  · exact ⟨stopLine_suspected .stopped s, stopLine_tu_clear⟩
  · exact ⟨.refl s, fun _ => rfl⟩

theorem ghost_diverted {g : Nat} (s : State) :
    (divertGhost g s).contentAt g = .empty ∧ (divertGhost g s).tu = (setContent g .empty s).tu ∧
    (divertGhost g s).gm = { s.gm with ghostDiverts := min (s.gm.ghostDiverts + 1) 65535 } ∧
    (divertGhost g s).bu = s.bu ∧ (divertGhost g s).au = s.au ∧ (divertGhost g s).pp = s.pp ∧ (divertGhost g s).ll = s.ll ∧
    (divertGhost g s).lc = { s.lc with
      line := if s.lc.line = .runOut ∧ (setContent g .empty s).trackOccupied = false then .stopped else s.lc.line } ∧
    (s.lc.line ≠ .runOut ∨ (setContent g .empty s).trackOccupied = true →
      (divertGhost g s).mu = s.mu ∧ (divertGhost g s).fu = s.fu ∧ (divertGhost g s).cu = s.cu) := by
  generalize hu : ({ setContent g .empty s with
    gm := { s.gm with ghostDiverts := bump s.gm.ghostDiverts } } : State) = u
  have hdivert : divertGhost g s = reportTrackClear u := by rw [← hu]; rfl
  have htrack : u.trackOccupied = (setContent g .empty s).trackOccupied := by rw [← hu]; rfl
  have hline : u.lc = s.lc := by rw [← hu]; rfl
  have hruns (h : s.lc.line ≠ .runOut ∨ (setContent g .empty s).trackOccupied = true) : divertGhost g s = u := by
    rw [hdivert, reportTrackClear_runs (by rw [hline, htrack]; exact h)]
  refine ⟨(divertGhost_spec s g).2.1, ?_, ?_, divertGhost_bu g s, divertGhost_au g s, divertGhost_pp g s,
    divertGhost_ll g s, ?_, fun h => ?_⟩
  · rw [hdivert]
    cases ho : u.trackOccupied with
    | false => rw [(reportTrackClear_tu u).2 ho, ← hu]
    | true => rw [reportTrackClear_runs (.inr ho), ← hu]
  · rw [hdivert, reportTrackClear_gm, ← hu]; rfl
  · rw [hdivert, reportTrackClear_lc, hline, htrack]
  · rw [hruns h, ← hu]
    exact ⟨rfl, rfl, rfl⟩

theorem decideGate_ghost {atFirePoint : Bool} {g : Nat} {pitch : PitchIndex} {s : State} {t : Option Tag}
    (h : s.contentAt g = .ghost t) : decideGate atFirePoint g pitch s = (false, divertGhost g s) := by
  simp only [decideGate, h]

theorem decideGate_empty {atFirePoint : Bool} {g : Nat} {pitch : PitchIndex} {s : State}
    (h : s.contentAt g = .empty) : decideGate atFirePoint g pitch s = (false, s) := by
  simp only [decideGate, h]

/-! ## The GATE fire point (R113) -/

/-- A divert can end pulses, and leaves the rest of the Firing Unit. -/
theorem reportTrackClear_fu (s : State) : (reportTrackClear s).fu = s.fu ∨ (reportTrackClear s).fu = (endPulses s).fu := by
  unfold reportTrackClear
  split
  · rw [stopLine_fu]
    split
    · exact .inr rfl
    · exact .inl rfl
  · exact .inl rfl

theorem endPulses_fu_congr {s t : State} (h : t.fu = s.fu) : (endPulses t).fu = (endPulses s).fu := by
  simp only [endPulses, h]

theorem decideGate_fu (atFirePoint : Bool) (g : Nat) (pitch : PitchIndex) (s : State) :
    (decideGate atFirePoint g pitch s).2.fu = s.fu ∨ (decideGate atFirePoint g pitch s).2.fu = (endPulses s).fu := by
  have cleared (u : State) (hu : u.fu = s.fu) : (reportTrackClear u).fu = s.fu ∨ (reportTrackClear u).fu = (endPulses s).fu := by
    rw [← hu, ← endPulses_fu_congr hu]
    exact reportTrackClear_fu u
  unfold decideGate
  split
  · exact .inl rfl
  · exact cleared _ rfl
  · dsimp only
    split
    · exact .inl rfl
    · unfold divert
      dsimp only
      split
      · exact cleared _ (by simp)
      · exact cleared _ (by simp)

theorem decideGate_decided (atFirePoint : Bool) (g : Nat) (pitch : PitchIndex) (s : State) :
    (decideGate atFirePoint g pitch s).2.gm.decided = s.gm.decided := by
  unfold decideGate
  split
  · rfl
  · exact (divertGhost_spec s g).1.decided
  · dsimp only
    split
    · rfl
    · exact (divert_spec s _ g pitch).1.decided

/-- A decision makes no pulse. -/
theorem decideGate_pulse {atFirePoint : Bool} {g : Nat} {pitch : PitchIndex} {s : State} {i : StationNo}
    (h : ((decideGate atFirePoint g pitch s).2.fireWork i).pulse = true) : (s.fireWork i).pulse = true := by
  rcases decideGate_fu atFirePoint g pitch s with hfu | hfu <;> rw [State.fireWork, hfu] at h
  · exact h
  · have := fireWork_endPulses i s
    rw [State.fireWork] at this
    rw [this] at h
    cases h

theorem decideGate_passed_fu {atFirePoint : Bool} {g : Nat} {pitch : PitchIndex} {s : State}
    (h : (decideGate atFirePoint g pitch s).1 = true) : (decideGate atFirePoint g pitch s).2.fu = s.fu := by
  unfold decideGate at h ⊢
  split at h
  · cases h
  · cases h
  · dsimp only at h ⊢
    split at h
    · rename_i hp; rw [if_pos hp]; rfl
    · cases h

section
variable {i : StationNo} {s : State} (hk : (s.station i).kind = .gate)
include hk

theorem takeFirePoint_gate (hf : s.firing = true) : takeFirePoint i s =
    if (gateFirePoint (setFireWork i (fun w => { w with fired := true }) s)).1 then
      fireWithPulse i (gateFirePoint (setFireWork i (fun w => { w with fired := true }) s)).2
    else setOutcome i .declined (gateFirePoint (setFireWork i (fun w => { w with fired := true }) s)).2 := by
  refine (if_pos hf).trans ?_
  unfold fireInFiring
  have hk' : ((setFireWork i (fun w => { w with fired := true }) s).station i).kind = .gate := hk
  rw [hk']

/-- A second GATE fire point in one pitch. -/
theorem takeFirePoint_gate_decided (hf : s.firing = true) (hd : s.gm.decided = true) :
    takeFirePoint i s = setFireWork i (fun w => { w with fired := true, outcome := .declined }) s := by
  have hgate : gateFirePoint (setFireWork i (fun w => { w with fired := true }) s) =
      (false, setFireWork i (fun w => { w with fired := true }) s) := if_pos hd
  rw [takeFirePoint_gate hk hf, hgate, setOutcome, if_neg Bool.false_ne_true]
  exact setFireWork_setFireWork i _ _ s

theorem takeFirePoint_gate_skipped (hf : s.firing = false) :
    takeFirePoint i s = setFireWork i (fun w => { w with fired := true, outcome := .skipped }) s := by
  refine (if_neg fun h => Bool.false_ne_true (hf.symm.trans h)).trans ?_
  rw [setOutcome, setFireWork_setFireWork]
  refine (stationMissed_action (s := setFireWork i _ s) fun h => StationKind.noConfusion (hk.symm.trans h)).trans ?_
  exact actionMissed_other (.inl hk)

/-- The first GATE fire point in the pitch takes the decision. -/
theorem takeFirePoint_gate_decides {g : Nat} {v : State} (hf : s.firing = true) (hd : s.gm.decided = false)
    (hg : s.tu.gate = some g)
    (hv : v = { setFireWork i (fun w => { w with fired := true }) s with gm := { s.gm with decided := true } }) :
    takeFirePoint i s = if (decideGate true g s.mu.pitch v).1 then fireWithPulse i (decideGate true g s.mu.pitch v).2
      else setOutcome i .declined (decideGate true g s.mu.pitch v).2 := by
  have hgate : gateFirePoint (setFireWork i (fun w => { w with fired := true }) s) = decideGate true g s.mu.pitch v := by
    subst hv
    refine (if_neg fun h => Bool.false_ne_true (hd.symm.trans h)).trans ?_
    dsimp only
    rw [show (setFireWork i (fun w => { w with fired := true }) s).tu.gate = some g from hg]
    rfl
  rw [takeFirePoint_gate hk hf, hgate]

theorem takeFirePoint_gate_sets_decided (hf : s.firing = true) : (takeFirePoint i s).gm.decided = true := by
  cases hd : s.gm.decided with
  | true => rw [takeFirePoint_gate_decided hk hf hd]; exact hd
  | false =>
    have hset : (gateFirePoint (setFireWork i (fun w => { w with fired := true }) s)).2.gm.decided = true := by
      unfold gateFirePoint
      rw [if_neg (show ¬ (setFireWork i (fun w => { w with fired := true }) s).gm.decided = true from
        fun h => Bool.false_ne_true (hd.symm.trans h))]
      dsimp only
      split
      · rfl
      · exact decideGate_decided _ _ _ _
    rw [takeFirePoint_gate hk hf]
    split <;> exact hset

end

/-- Settles O44: the decision, the GATE fire point, and gaps and ghosts at the gate. -/
theorem gatePassesOnlyCleanCopies : Obligations.GatePassesOnlyCleanCopies := by
  refine ⟨fun fp g pitch s c hc hp => decideGate_copy hc (decisionMarks_noPrint hp),
    fun fp g pitch s c d i hc hp hd => decideGate_copy hc (decisionMarks_print hp hd),
    fun i s hk => ⟨fun hf => ⟨takeFirePoint_gate_sets_decided hk hf, fun hd => ?_, fun g v hd hg hv => ⟨fun hpass => ?_, fun hpass => ?_⟩⟩,
      takeFirePoint_gate_skipped hk⟩,
    fun fp g pitch s => ⟨decideGate_empty, fun t u ht hu => ?_⟩⟩
  · have htake := takeFirePoint_gate_decided hk hf hd
    rw [htake]
    refine ⟨rfl, rfl, rfl, rfl, rfl, fun hpulse => ?_⟩
    rw [fireWork_setFireWork] at hpulse
    exact hpulse
  · have htake := takeFirePoint_gate_decides hk hf hd hg hv
    rw [if_pos hpass, fireWithPulse, startPulse, setOutcome, setFireWork_setFireWork] at htake
    have hfu : (decideGate true g s.mu.pitch v).2.fu = (setFireWork i (fun w => { w with fired := true }) s).fu := by
      rw [decideGate_passed_fu hpass, hv]
    have hstation : (setFireWork i (fun w => { w with outcome := .fired }) (decideGate true g s.mu.pitch v).2).station i =
        s.station i := by
      change (decideGate true g s.mu.pitch v).2.fu.stations[i] = _
      rw [hfu]
      rfl
    rw [hstation] at htake
    refine ⟨htake, ?_⟩
    · rw [htake, fireWork_setFireWork]
      have hwork : (decideGate true g s.mu.pitch v).2.fireWork i = { s.fireWork i with fired := true } := by
        rw [State.fireWork, hfu]
        exact fireWork_setFireWork i _ s
      rw [hwork]
      rfl
  · have htake := takeFirePoint_gate_decides hk hf hd hg hv
    rw [if_neg (by rw [hpass]; exact Bool.false_ne_true)] at htake
    refine ⟨htake, fun hpulse => ?_⟩
    rw [htake, setOutcome, fireWork_setFireWork] at hpulse
    have := decideGate_pulse hpulse
    rw [hv] at this
    exact (congrArg FireWork.pulse (fireWork_setFireWork i (fun w => { w with fired := true }) s)).symm.trans this
  · rw [decideGate_ghost ht] at hu ⊢
    subst hu
    exact ⟨rfl, ghost_diverted s⟩

end Sys2Proof.Machine
end

section
/-! PROOFS. The upstream queue: frames that wait for room, records sent, notices, and the backlog's hold cause. -/

namespace Sys2Proof.Machine

/-! ## The backlog's report (R160, R184) -/

theorem reportBacklog_joins {s : State} (h : 96 ≤ s.ll.upstream.length) (hb : s.lc.holds.linkBacklog = false) :
    reportBacklog s = if s.lc.line = .running ∧ s.lc.holds = HoldSet.empty then
      raiseNotice (.holdEntered { HoldSet.empty with linkBacklog := true })
        { s with lc := { s.lc with line := .holding, holds := { HoldSet.empty with linkBacklog := true } } }
      else { s with lc := { s.lc with holds := { s.lc.holds with linkBacklog := true } } } := by
  rw [reportBacklog, if_pos ⟨h, hb⟩, addHold]
  simp only [HoldSet.isEmpty_iff, and_comm (a := s.lc.holds = HoldSet.empty)]
  split
  · rename_i hc
    rw [hc.2]
    rfl
  · rfl

theorem HoldSet.drained_eq_empty_iff {h : HoldSet} (hb : h.linkBacklog = true) :
    h.drained = HoldSet.empty ∧ h ≠ HoldSet.empty ↔ h = { HoldSet.empty with linkBacklog := true } := by
  cases h; simp_all [HoldSet.drained, HoldSet.empty]

theorem reportBacklog_leaves {s : State} (h : s.ll.upstream.length ≤ 32) (hb : s.lc.holds.linkBacklog = true) :
    reportBacklog s = if s.lc.line = .holding ∧ s.lc.holds = { HoldSet.empty with linkBacklog := true } then
      raiseNotice .holdLeft { s with lc := { s.lc with line := .running, holds := HoldSet.empty } }
      else { s with lc := { s.lc with holds := { s.lc.holds with linkBacklog := false } } } := by
  have hiff : (s.lc.holds.drained.isEmpty = true ∧ ¬ s.lc.holds.isEmpty = true ∧ s.lc.line = .holding) ↔
      s.lc.line = .holding ∧ s.lc.holds = { HoldSet.empty with linkBacklog := true } := by
    rw [HoldSet.isEmpty_iff, HoldSet.isEmpty_iff, ← and_assoc, HoldSet.drained_eq_empty_iff hb, and_comm]
  rw [reportBacklog, if_neg (fun hc => by omega), if_pos ⟨h, hb⟩, reduceHolds]
  by_cases hc : s.lc.line = .holding ∧ s.lc.holds = { HoldSet.empty with linkBacklog := true }
  · rw [if_pos hc, if_pos (hiff.mpr hc), hc.2]
    rfl
  · rw [if_neg hc, if_neg (mt hiff.mp hc)]
    rfl

/-- The report changes the queue, the flags and the dropped count, and leaves the rest of the link. -/
theorem reportBacklog_ll (s : State) : ∃ f u n, (reportBacklog s).ll = { s.ll with flags := f, upstream := u, noticesDropped := n } := by
  have raised (n : Notice) (u : State) : ∃ f q k, (raiseNotice n u).ll = { u.ll with flags := f, upstream := q, noticesDropped := k } :=
    ⟨_, _, _, raiseNotice_ll n u⟩
  have same : ∃ f u n, s.ll = { s.ll with flags := f, upstream := u, noticesDropped := n } := ⟨_, _, _, rfl⟩
  unfold reportBacklog
  split
  · rw [addHold_ll]
    split
    · exact raised _ s
    · exact same
  · split
    · rw [reduceHolds_ll]
      split
      · exact raised _ s
      · exact same
    · exact same

/-! ## Frames that wait (R173, R176) -/

/-- The end of an event that leaves a frame held for want of room. -/
theorem finish_held {s : State} (h : s.hasRoom = false) : finish s = beginSending (reportBacklog s) := by
  rw [finish, takeHeld, if_neg fun hc => Bool.false_ne_true (h.symm.trans hc.2)]

/-- What the end of an event leaves of the link where a frame is held for want of room. -/
theorem finish_held_keeps {s : State} (h : s.hasRoom = false) : (finish s).ll.receive = s.ll.receive ∧
    (finish s).ll.buffer = s.ll.buffer ∧ (finish s).ll.receiveOverruns = s.ll.receiveOverruns ∧ (finish s).au = s.au ∧
    (finish s).bu = s.bu := by
  obtain ⟨f, u, n, hll⟩ := reportBacklog_ll s
  rw [finish_held h, beginSending_ll, hll]
  exact ⟨rfl, rfl, rfl, by simp, by simp⟩

theorem heldFrame (p : Pins) (o : Byte) (s : State) (hs : s.inReset = false) :
    (s.ll.receive = .crcLow → s.ll.buffer.crc = s.ll.buffer.crcHigh ++ o → s.hasRoom = false →
      ∃ t, exec (.linkOctet p o) s = .next t ∧ t.ll.receive = .held ∧ t.au = s.au ∧ t.bu = s.bu ∧
        t.ll.buffer = { s.ll.buffer with crcLow := o }) ∧
    (s.ll.receive = .held → s.hasRoom = false →
      ∃ t, exec (.linkOctet p o) s = .next t ∧ t.ll.receive = .held ∧ t.ll.buffer = s.ll.buffer ∧ t.au = s.au ∧
        t.ll.receiveOverruns = min (s.ll.receiveOverruns + 1) 65535) ∧
    (s.ll.receive = .held → s.hasRoom = true → exec (.heldFrameTaken p) s =
      .next (finish (takeFrame s.ll.buffer.kind s.ll.buffer.payload
        { s with pins := p, ll := { s.ll with receive := .search } }))) ∧
    (∀ r rest, s.ll.receive = .held → s.ll.sending = true → s.ll.upstream = r :: rest →
      rest.length + s.stagingFill + 80 ≤ 256 → exec (.upstreamFrameSent p) s =
      .next (beginSending (reportBacklog (takeFrame s.ll.buffer.kind s.ll.buffer.payload
        { s with pins := p, ll := { s.ll with receive := .search, upstream := rest, sending := false } })))) := by
  have hevent (work : State → State) : event p work s = .next (finish (work (setPins p s))) := event_open p work s hs
  refine ⟨fun hr hcrc hroom => ?_, fun hr hroom => ?_, fun hr hroom => ?_, fun r rest hr hsend hup hroom => ?_⟩
  · generalize hu : setReceive .held (setBuffer (fun b => { b with crcLow := o }) (setPins p s)) = u
    have hwork : receiveOctet o (setPins p s) = u := by
      have hr' : (setPins p s).ll.receive = .crcLow := hr
      rw [receiveOctet, hr', ← hu]
      refine (if_pos hcrc).trans (if_neg ?_)
      exact fun h => Bool.false_ne_true (hroom.symm.trans h)
    have hroomu : u.hasRoom = false := by rw [← hu]; exact hroom
    obtain ⟨h1, h2, -, h3, h4⟩ := finish_held_keeps hroomu
    refine ⟨_, (hevent (receiveOctet o)).trans (by rw [hwork]), ?_, ?_, ?_, ?_⟩
    · rw [h1, ← hu]; rfl
    · rw [h3, ← hu]; rfl
    · rw [h4, ← hu]; rfl
    · rw [h2, ← hu]; rfl
  · generalize hu : ({ setPins p s with ll := { s.ll with receiveOverruns := bump s.ll.receiveOverruns } } : State) = u
    have hwork : receiveOctet o (setPins p s) = u := by
      have hr' : (setPins p s).ll.receive = .held := hr
      rw [receiveOctet, hr', ← hu]
      rfl
    have hroomu : u.hasRoom = false := by rw [← hu]; exact hroom
    obtain ⟨h1, h2, h3, h4, -⟩ := finish_held_keeps hroomu
    refine ⟨_, (hevent (receiveOctet o)).trans (by rw [hwork]), ?_, ?_, ?_, ?_⟩
    · rw [h1, ← hu]; exact hr
    · rw [h2, ← hu]
    · rw [h4, ← hu]; rfl
    · rw [h3, ← hu]; rfl
  · refine (hevent takeHeld).trans (congrArg _ (congrArg finish ?_))
    exact if_pos ⟨hr, hroom⟩
  · generalize hu : ({ s with pins := p, ll := { s.ll with upstream := rest, sending := false } } : State) = u
    have hwork : frameSent (setPins p s) = u := by
      rw [frameSent, if_pos (show (setPins p s).ll.sending = true from hsend), ← hu]
      simp only [setPins, hup, List.tail_cons]
    have htake : takeHeld u = takeFrame u.ll.buffer.kind u.ll.buffer.payload (setReceive .search u) := by
      refine if_pos ⟨by rw [← hu]; exact hr, ?_⟩
      rw [← hu]
      exact decide_eq_true hroom
    refine (hevent frameSent).trans ?_
    rw [hwork, finish, htake, ← hu]
    rfl

/-! ## Records sent (R172) -/

theorem frameSent_eq {p : Pins} {s : State} (hsend : s.ll.sending = true) : frameSent (setPins p s) =
    { s with pins := p, ll := { s.ll with upstream := s.ll.upstream.tail, sending := false } } := if_pos hsend

theorem beginSending_eq (s : State) : beginSending s = { s with ll := { s.ll with
    sending := s.ll.sending || (s.pins.lrdyIn && decide (s.ll.upstream ≠ [])) } } := by
  have hll := beginSending_ll s
  have hrest : beginSending s = { s with ll := (beginSending s).ll } := by
    unfold beginSending; split <;> rfl
  rw [hrest, hll]

theorem recordsSent (p : Pins) (s : State) (hs : s.Calm) :
    (s.ll.sending = true → exec (.upstreamFrameSent p) s = .next { s with
      pins := p
      ll := { s.ll with upstream := s.ll.upstream.tail
                        sending := p.lrdyIn && decide (s.ll.upstream.tail ≠ []) } }) ∧
    (∃ t, exec (.lrdyInActive p) s = .next t ∧ t.pins.lrdyIn = true ∧
      t = { s with pins := t.pins, ll := { s.ll with sending := s.ll.sending || decide (s.ll.upstream ≠ []) } }) := by
  obtain ⟨hres, hrec, hlen, hback⟩ := hs
  refine ⟨fun hsend => ?_, ?_⟩
  · refine (event_unreported (work := frameSent) hres (frameSent_eq hsend) hrec ⟨fun _ => ?_, fun h => ?_⟩).trans ?_
    · have := List.length_tail (l := s.ll.upstream)
      exact (le_of_eq this).trans (by omega)
    · exact absurd (hback.symm.trans h) Bool.noConfusion
    · rw [beginSending_eq]
      simp only [Bool.false_or]
  · have hcalm : (setPins (readyPins p) s).Unreported := unreported_of_calm (s := s) ⟨hres, hrec, hlen, hback⟩
    refine ⟨_, event_unreported (work := id) (u := setPins (readyPins p) s) hres rfl hrec hcalm, ?_, ?_⟩
    · rw [beginSending_eq]; rfl
    · rw [beginSending_eq]
      simp only [setPins, readyPins, Bool.true_and]
      rfl

/-! ## Notices and LRDY_OUT (R182, R43) -/

theorem noticeRaised (n : Notice) (s : State) (enabled room : Bool) (he : enabled = s.ll.mask.getLsbD (noticeCode n))
    (hr : room = decide (s.ll.upstream.length + s.stagingFill + 80 ≤ 256)) :
    raiseNotice n s = { s with ll := { s.ll with
      flags := s.ll.flags ||| BitVec.twoPow 11 (noticeCode n)
      upstream := if enabled && room then s.ll.upstream ++ [.notice n s.mu.pitch] else s.ll.upstream
      noticesDropped :=
        if enabled && !room then min (s.ll.noticesDropped + 1) 65535 else s.ll.noticesDropped } } := by
  have hroom : s.hasRoom = room := hr.symm
  unfold raiseNotice
  dsimp only
  rw [← he, hroom]
  cases enabled <;> cases room <;> rfl

theorem freeStaging_isSome_iff (s : State) : s.freeStaging.isSome = true ↔ ∃ i : Fin 16, s.au.staging[i] = .free := by
  have hmem : ∀ i : Fin 16, i ∈ entryNos := by decide
  rw [State.freeStaging, List.find?_isSome]
  constructor
  · rintro ⟨i, -, hi⟩
    exact ⟨i, of_decide_eq_true hi⟩
  · rintro ⟨i, hi⟩
    exact ⟨i, hmem i, decide_eq_true hi⟩

theorem readyOut_iff (s : State) (h : s.inReset = false) : s.readyOut = true ↔
    (∃ i : Fin 16, s.au.staging[i] = .free) ∧ s.bu.table.length < 8 ∧ s.ll.upstream.length + s.stagingFill + 80 ≤ 256 := by
  simp only [State.readyOut, h, Bool.not_false, Bool.true_and, Bool.and_eq_true, State.stagingReady, freeStaging_isSome_iff,
    State.bundlesReady, State.hasRoom, decide_eq_true_eq, and_assoc]

/-! ## The backlog at the end of an event -/

theorem statusRead_open (p : Pins) (ref : Byte) {s : State} (hs : s.Open) (hlen : s.ll.upstream.length ≤ 159) :
    exec (.statusRead p ref []) s = .next (beginSending (reportBacklog
      (place (.reply ref 0x06 .ok 0 s.statusOctets) (setPins p s)))) := by
  obtain ⟨hres, hrec⟩ := hs
  have harrive : arriveFrame 0x06 [ref] (setPins p s) = place (.reply ref 0x06 .ok 0 s.statusOctets) (setPins p s) := by
    rw [arriveFrame_other [ref] (by decide) (s := setPins p s) hrec (hasRoom_of_short (by
      change s.ll.upstream.length ≤ _; omega))]
    rfl
  refine (event_open p (arriveFrame 0x06 [ref]) s hres).trans ?_
  rw [harrive, finish_open (s := place _ (setPins p s)) hrec]

/-- LINK_BACKLOG joins at an event that leaves 96 to 160 records. -/
theorem backlog_joins {s : State} (h96 : 96 ≤ s.ll.upstream.length) (h160 : s.ll.upstream.length ≤ 160)
    (hb : s.lc.holds.linkBacklog = false) :
    (reportBacklog s).lc = { s.lc with
      holds := { s.lc.holds with linkBacklog := true }
      line := if s.lc.line = .running ∧ s.lc.holds = HoldSet.empty then .holding else s.lc.line } ∧
    (s.lc.line = .running → s.lc.holds = HoldSet.empty → (reportBacklog s).ll.flags.getLsbD 1 = true ∧
      (s.ll.mask.getLsbD 1 = true → (reportBacklog s).ll.upstream = s.ll.upstream ++
        [.notice (.holdEntered (reportBacklog s).lc.holds) s.mu.pitch])) ∧
    (s.lc.line ≠ .running ∨ s.lc.holds ≠ HoldSet.empty → (reportBacklog s).ll.upstream = s.ll.upstream) := by
  have hreport := reportBacklog_joins h96 hb
  by_cases hc : s.lc.line = .running ∧ s.lc.holds = HoldSet.empty
  · rw [if_pos hc] at hreport
    have hll := raiseNotice_kind (n := .holdEntered { HoldSet.empty with linkBacklog := true }) (k := 1) (s :=
      { s with lc := { s.lc with line := .holding, holds := { HoldSet.empty with linkBacklog := true } } })
      (hasRoom_of_short h160) rfl
    rw [hreport, raiseNotice_lc, if_pos hc, hll]
    refine ⟨by rw [hc.2], fun _ _ => ⟨getLsbD_setFlag _ 1 (by decide), fun hm => congrArg (s.ll.upstream ++ ·) (if_pos hm)⟩,
      fun hn => absurd hc (not_and_or.mpr hn)⟩
  · rw [if_neg hc] at hreport
    rw [hreport, if_neg hc]
    exact ⟨rfl, fun hl hh => absurd ⟨hl, hh⟩ hc, fun _ => rfl⟩

/-- LINK_BACKLOG leaves at an event that leaves 32 records. -/
theorem backlog_leaves {s : State} (h32 : s.ll.upstream.length ≤ 32) (hb : s.lc.holds.linkBacklog = true) :
    (reportBacklog s).lc = { s.lc with
      holds := { s.lc.holds with linkBacklog := false }
      line := if s.lc.line = .holding ∧ s.lc.holds = { HoldSet.empty with linkBacklog := true } then .running
        else s.lc.line } ∧
    (s.lc.line = .holding → s.lc.holds = { HoldSet.empty with linkBacklog := true } →
      (reportBacklog s).ll.flags.getLsbD 2 = true ∧
      (s.ll.mask.getLsbD 2 = true → (reportBacklog s).ll.upstream = s.ll.upstream ++ [.notice .holdLeft s.mu.pitch])) ∧
    (s.lc.line ≠ .holding ∨ s.lc.holds ≠ { HoldSet.empty with linkBacklog := true } →
      (reportBacklog s).ll.upstream = s.ll.upstream) := by
  have hreport := reportBacklog_leaves h32 hb
  by_cases hc : s.lc.line = .holding ∧ s.lc.holds = { HoldSet.empty with linkBacklog := true }
  · rw [if_pos hc] at hreport
    have hll := raiseNotice_kind (n := .holdLeft) (k := 2) (s :=
      { s with lc := { s.lc with line := .running, holds := HoldSet.empty } })
      (hasRoom_of_short (by change s.ll.upstream.length ≤ _; omega)) rfl
    rw [hreport, raiseNotice_lc, if_pos hc, hll]
    refine ⟨by rw [hc.2]; rfl, fun _ _ => ⟨getLsbD_setFlag _ 2 (by decide), fun hm => congrArg (s.ll.upstream ++ ·) (if_pos hm)⟩,
      fun hn => absurd hc (not_and_or.mpr hn)⟩
  · rw [if_neg hc] at hreport
    rw [hreport, if_neg hc]
    exact ⟨rfl, fun hl hh => absurd ⟨hl, hh⟩ hc, fun _ => rfl⟩

/-- Settles O59: frames held and taken, records sent, notices, LRDY_OUT and the backlog. -/
theorem framesWaitForRoomAndRecordsAreSent : Obligations.FramesWaitForRoomAndRecordsAreSent := by
  refine ⟨heldFrame, recordsSent, noticeRaised, readyOut_iff, fun s => ⟨reportBacklog_joins, reportBacklog_leaves,
    fun h33 h95 => reportBacklog_unreported ⟨fun _ => h95, fun _ => h33⟩⟩, fun p ref s hs => ⟨fun h95 h159 hb => ?_,
    fun h33 hsend hb => ?_⟩⟩
  · obtain ⟨hlc, hrun, hrest⟩ := backlog_joins (s := place (.reply ref 0x06 .ok 0 s.statusOctets) (setPins p s))
      (by rw [place_upstream, List.length_append]; exact Nat.succ_le_succ h95)
      (by rw [place_upstream, List.length_append]; exact Nat.succ_le_succ h159) hb
    refine ⟨_, statusRead_open p ref hs h159, ?_, fun hl hh => ?_, fun hn => ?_⟩
    · rw [beginSending_lc]; exact hlc
    · obtain ⟨hflag, hup⟩ := hrun hl hh
      rw [beginSending_lc, beginSending_upstream, beginSending_ll]
      refine ⟨hflag, fun hm => (hup hm).trans ?_⟩
      rw [place_upstream, List.append_assoc]
      rfl
    · rw [beginSending_upstream]; exact hrest hn
  · obtain ⟨hres, hrec⟩ := hs
    generalize hu : ({ s with pins := p, ll := { s.ll with upstream := s.ll.upstream.tail, sending := false } } : State) = u
    have hlc : u.lc = s.lc := by rw [← hu]
    have hlen : u.ll.upstream.length ≤ 32 := by
      rw [← hu]
      have := List.length_tail (l := s.ll.upstream)
      exact (le_of_eq this).trans (by omega)
    have hexec : exec (.upstreamFrameSent p) s = .next (beginSending (reportBacklog u)) := by
      refine (event_open p frameSent s hres).trans ?_
      rw [frameSent_eq hsend, hu, finish_open (by rw [← hu]; exact hrec)]
    obtain ⟨hblc, hhold, hrest⟩ := backlog_leaves hlen (by rw [hlc]; exact hb)
    rw [hlc] at hblc hhold hrest
    refine ⟨_, hexec, ?_, fun hl hh => ?_, fun hn => ?_⟩
    · rw [beginSending_lc]; exact hblc
    · obtain ⟨hflag, hup⟩ := hhold hl hh
      rw [beginSending_upstream, beginSending_ll]
      refine ⟨hflag, fun hm => (hup (by rw [← hu]; exact hm)).trans ?_⟩
      rw [← hu]
    · rw [beginSending_upstream, hrest hn, ← hu]

end Sys2Proof.Machine
end

section
/-! PROOFS. The stations' work as a run of single changes: a relation that each of them keeps is kept by the whole of the work,
the gate, the stack and the kicks apart. -/

namespace Sys2Proof.Machine

/-- A relation between states, reflexive and transitive, that holds over each single change of the stations' work. -/
structure StationWork (R : State → State → Prop) : Prop where
  refl : ∀ s, R s s
  trans : ∀ {s t u}, R s t → R t u → R s u
  mark : ∀ pos m s, R s (markAt pos m s)
  check : ∀ i f s, R s (setCheckWork i f s)
  stray : ∀ s n, R s { s with cu := { s.cu with strayProduct := n } }
  sample : ∀ i s, R s (takeSample i s)
  trigger : ∀ s jobs, R s { s with pp := { s.pp with jobs := jobs } }
  hold : ∀ c s, R s (addHold c s)
  notice : ∀ n s, R s (raiseNotice n s)
  fault : ∀ c st s, R s (stopFault c st s)
  withdraw : ∀ s, R s (withdraw s)

namespace StationWork

variable {R : State → State → Prop} (h : StationWork R)
include h

theorem forStations {f : StationNo → State → State} (hf : ∀ (i : StationNo) (s : State), R s (f i s)) (s : State) :
    R s (forStations f s) :=
  forStations_inv (fun t => R s t) f (fun i _ ht => h.trans ht (hf i _)) s (h.refl s)

theorem abandonMeasurement (i : StationNo) (s : State) : R s (abandonMeasurement i s) := by
  unfold Machine.abandonMeasurement
  split
  · exact h.trans (h.check i _ s) (h.mark _ _ _)
  · exact h.refl s

/-! ## Stations that did not act, and the print fire point -/

theorem printNotTaken (i : StationNo) (s : State) : R s (printNotTaken i s) := by
  unfold Machine.printNotTaken
  dsimp only
  split
  · exact h.trans (h.mark _ _ s) (h.withdraw _)
  · exact h.mark _ _ s

theorem actionMissed (i : StationNo) (s : State) : R s (actionMissed i s) := by
  rcases actionMissed_cases i s with hm | hm <;> rw [hm]
  · exact h.refl s
  · exact h.mark _ _ s

theorem stationMissed (i : StationNo) (s : State) : R s (stationMissed i s) := by
  by_cases hk : (s.station i).kind = .print
  · rw [stationMissed_print hk]; exact h.printNotTaken i s
  · rw [stationMissed_action hk]; exact h.actionMissed i s

theorem printFired (i : StationNo) (s : State) : R s (printFired i s) := by
  unfold Machine.printFired
  split
  · exact h.refl s
  · split
    · exact h.trigger s _
    · exact h.trans (h.fault _ _ s) (h.withdraw _)

/-! ## The Check Unit -/

theorem faultVerdict (i : StationNo) (m : Mark) (c : Context) (s : State) : R s (faultVerdict i m c s) := by
  unfold Machine.faultVerdict
  dsimp only
  split
  · exact h.mark _ m s
  · split
    · exact h.trans (h.mark _ m s) (h.check i _ _)
    · exact h.trans (h.trans (h.trans (h.mark _ m s) (h.check i _ _)) (h.hold _ _)) (h.notice _ _)

theorem cleanVerdict (i : StationNo) (s : State) : R s (cleanVerdict i s) := h.check i _ s

theorem presenceVerdict (i : StationNo) (c : Context) (s : State) : R s (presenceVerdict i c s) := by
  unfold Machine.presenceVerdict
  dsimp only
  split
  · split
    · exact h.faultVerdict i _ c s
    · exact h.cleanVerdict i s
  · split
    · split
      · exact h.cleanVerdict i s
      · split <;> exact h.faultVerdict i _ c s
    · exact h.mark _ _ s

theorem presenceNotTaken (i : StationNo) (s : State) : R s (presenceNotTaken i s) := by
  unfold Machine.presenceNotTaken
  split
  · split
    · exact h.mark _ _ s
    · exact h.refl s
  · exact h.refl s

theorem closeWindow (i : StationNo) (s : State) : R s (closeWindow i s) := by
  have hset := h.check i (fun w => { w with windowClosed := true }) s
  unfold Machine.closeWindow
  dsimp only
  split
  · exact hset
  · split
    · exact h.trans hset (h.stray _ _)
    · exact hset
  · split
    · exact h.trans hset (h.presenceVerdict i _ _)
    · exact h.trans hset (h.presenceNotTaken i _)

theorem zeroCheck (i : StationNo) (reading : Nat) (s : State) : R s (zeroCheck i reading s) := by
  unfold Machine.zeroCheck
  dsimp only
  split
  · exact h.refl s
  · split
    · exact h.check i _ s
    · split
      · exact h.check i _ s
      · exact h.trans (h.trans (h.check i _ s) (h.hold _ _)) (h.notice _ _)

theorem thicknessVerdict (i : StationNo) (reading : Nat) (c : Context) (s : State) : R s (thicknessVerdict i reading c s) := by
  unfold Machine.thicknessVerdict
  simp only
  generalize (if s.firstCaliper i then c.values.low1 else c.values.low2) = low
  generalize (if s.firstCaliper i then c.values.high1 else c.values.high2) = high
  split
  · exact h.faultVerdict i _ c s
  · split
    · exact h.faultVerdict i _ c s
    · exact h.cleanVerdict i s

theorem completeMeasurement (i : StationNo) (s : State) : R s (completeMeasurement i s) := by
  have hset := h.check i (fun w => { w with measure := .done }) s
  unfold Machine.completeMeasurement
  dsimp only
  split
  · exact h.trans hset (h.thicknessVerdict i _ _ _)
  · exact h.trans hset (h.zeroCheck i _ _)
  · exact hset

theorem takeSamples (i : StationNo) (fuel : Nat) (s : State) : R s (takeSamples i fuel s) := by
  induction fuel generalizing s with
  | zero => exact h.refl s
  | succ fuel ih =>
    unfold Machine.takeSamples
    split
    · dsimp only
      split
      · exact h.trans (h.sample i s) (h.completeMeasurement i _)
      · exact h.trans (h.sample i s) (ih _)
    · exact h.refl s

theorem beginMeasurement (i : StationNo) (s : State) : R s (beginMeasurement i s) := by
  unfold Machine.beginMeasurement
  split
  · split
    · exact h.check i _ s
    · exact h.trans (h.check i _ s) (h.takeSamples i _ _)
  · exact h.trans (h.check i _ s) (h.mark _ _ _)

theorem caliperCount (i : StationNo) (s : State) : R s (caliperCount i s) := by
  unfold Machine.caliperCount
  split
  · exact h.beginMeasurement i s
  · exact h.takeSamples i _ s
  · exact h.refl s
  · exact h.refl s

theorem raiseJam (i : StationNo) (s : State) : R s (raiseJam i s) := h.trans (h.check i _ s) (h.fault _ _ _)

theorem verifyJudgement (firing : Bool) (s : State) : R s (verifyJudgement firing s) := by
  unfold Machine.verifyJudgement
  split
  · exact h.refl s
  · split
    · split
      · exact h.refl s
      · split
        · exact h.mark _ _ s
        · split
          · split
            · exact h.cleanVerdict _ s
            · exact h.faultVerdict _ _ _ s
          · exact h.faultVerdict _ _ _ s
    · exact h.refl s

/-! ## The close-out -/

theorem presenceCloseOut (i : StationNo) (s : State) : R s (presenceCloseOut i s) := by
  unfold Machine.presenceCloseOut
  split
  exacts [h.presenceNotTaken i s, h.refl s]

theorem actionCloseOut (i : StationNo) (s : State) : R s (actionCloseOut i s) := by
  unfold Machine.actionCloseOut
  split
  exacts [h.actionMissed i s, h.refl s]

theorem printCloseOut (i : StationNo) (s : State) : R s (printCloseOut i s) := by
  unfold Machine.printCloseOut
  split
  exacts [h.printNotTaken i s, h.refl s]

theorem checkCloseOut (firing : Bool) (s : State) : R s (checkCloseOut firing s) :=
  h.trans (h.trans (h.forStations h.presenceCloseOut s) (h.forStations h.abandonMeasurement _)) (h.verifyJudgement firing _)

end StationWork

end Sys2Proof.Machine
end

section
/-! PROOFS. Coasting: what the work at a count does to the Motion Unit, the Firing Unit and the line where it takes no fire
point. It can stop the line, which ends every pulse and the simulated source, and order kicks, and leaves the rest. -/

namespace Sys2Proof.Machine

/-! ## The relation -/

/-- The line goes on or stops, which stops the simulated source; the rest of the Motion Unit stays. -/
structure State.Stops (s t : State) : Prop where
  firing : t.firing = true → s.firing = true
  mu : t.mu = if s.firing = true ∧ t.firing = false then { s.mu with sim := .stopped } else s.mu
  faulted : s.lc.line = .faulted → t.lc.line = .faulted ∧ (s.lc.faults.jam = true → t.lc.faults.jam = true)
  displaced : t.lc.displaced = s.lc.displaced

/-- No fire point is taken, no pulse begins and no kick is taken. -/
structure State.Coasts (s t : State) : Prop extends State.Stops s t where
  fu : t.fu = if s.firing = true ∧ t.firing = false then (endPulses s).fu else s.fu
  kicks : ∃ more, t.bu.kicks = s.bu.kicks ++ more

namespace State.Stops

theorem refl (s : State) : s.Stops s := by
  refine ⟨id, ?_, fun h => ⟨h, id⟩, rfl⟩
  cases s.firing <;> rfl

theorem mu_stays {s t : State} (h : s.Stops t) (ht : t.firing = s.firing) : t.mu = s.mu := by
  rw [h.mu, if_neg fun hc => Bool.noConfusion ((ht.symm.trans hc.2).symm.trans hc.1)]

theorem stopped {s t : State} (h : s.Stops t) (hs : s.firing = false) : t.firing = false :=
  Bool.eq_false_iff.mpr fun ht => Bool.noConfusion (hs.symm.trans (h.firing ht))

theorem trans {s t u : State} (h : s.Stops t) (k : t.Stops u) : s.Stops u := by
  refine ⟨fun hu => h.firing (k.firing hu), ?_, fun hs => ?_, k.displaced.trans h.displaced⟩
  · cases ht : t.firing with
    | true =>
      have hs := h.firing ht
      rw [k.mu, h.mu_stays (ht.trans hs.symm), ht, hs]
    | false =>
      have hu := k.stopped ht
      rw [k.mu_stays (hu.trans ht.symm), h.mu, ht, hu]
  · obtain ⟨hline, hjam⟩ := h.faulted hs
    exact ⟨(k.faulted hline).1, fun hj => (k.faulted hline).2 (hjam hj)⟩

end State.Stops

namespace State.Coasts

/-- A change of other units, and of holds or records. -/
theorem of_line {s t : State} (hmu : t.mu = s.mu) (hfu : t.fu = s.fu) (hf : t.firing = s.firing)
    (hl : s.lc.line = .faulted → t.lc.line = .faulted ∧ (s.lc.faults.jam = true → t.lc.faults.jam = true))
    (hd : t.lc.displaced = s.lc.displaced) (hk : ∃ more, t.bu.kicks = s.bu.kicks ++ more) :
    s.Coasts t := by
  have hno : ¬ (s.firing = true ∧ t.firing = false) := fun h => Bool.noConfusion ((hf.symm.trans h.2).symm.trans h.1)
  exact ⟨⟨fun h => hf ▸ h, by rw [if_neg hno, hmu], hl, hd⟩, by rw [if_neg hno, hfu], hk⟩

/-- A change of other units and of the kicks that wait. -/
theorem of_units {s t : State} (hmu : t.mu = s.mu) (hfu : t.fu = s.fu) (hlc : t.lc = s.lc)
    (hk : ∃ more, t.bu.kicks = s.bu.kicks ++ more) : s.Coasts t :=
  of_line hmu hfu (by rw [State.firing, State.firing, hlc]) (fun h => by rw [hlc]; exact ⟨h, id⟩) (by rw [hlc]) hk

/-- A change of other units alone. -/
theorem of_frame {s t : State} (hmu : t.mu = s.mu) (hfu : t.fu = s.fu) (hlc : t.lc = s.lc) (hk : t.bu.kicks = s.bu.kicks) :
    s.Coasts t := of_units hmu hfu hlc ⟨[], by rw [hk, List.append_nil]⟩

theorem refl (s : State) : s.Coasts s := of_frame rfl rfl rfl rfl

theorem fu_stays {s t : State} (h : s.Coasts t) (ht : t.firing = s.firing) : t.fu = s.fu := by
  rw [h.fu, if_neg fun hc => Bool.noConfusion ((ht.symm.trans hc.2).symm.trans hc.1)]

theorem trans {s t u : State} (h : s.Coasts t) (k : t.Coasts u) : s.Coasts u := by
  refine ⟨h.toStops.trans k.toStops, ?_, ?_⟩
  · cases ht : t.firing with
    | true =>
      have hs := h.firing ht
      have hfu := h.fu_stays (ht.trans hs.symm)
      rw [k.fu, endPulses_fu_congr hfu, hfu, ht, hs]
    | false =>
      have hu := k.stopped ht
      rw [k.fu_stays (hu.trans ht.symm), h.fu, ht, hu]
  · obtain ⟨a, ha⟩ := h.kicks
    obtain ⟨b, hb⟩ := k.kicks
    exact ⟨a ++ b, by rw [hb, ha, List.append_assoc]⟩

end State.Coasts

/-! ## Shared operations -/

theorem markAt_coasts (pos : Nat) (m : Mark) (s : State) : s.Coasts (markAt pos m s) := .of_frame rfl rfl rfl rfl

theorem setCheckWork_coasts (i : StationNo) (f : CheckWork → CheckWork) (s : State) : s.Coasts (setCheckWork i f s) :=
  .of_frame rfl rfl rfl rfl

theorem setContent_coasts (pos : Nat) (c : Content) (s : State) : s.Coasts (setContent pos c s) :=
  .of_frame rfl rfl rfl rfl

theorem raiseNotice_coasts (n : Notice) (s : State) : s.Coasts (raiseNotice n s) :=
  .of_frame (by simp) (by simp) (by simp) (by simp)

theorem addHold_coasts (c : HoldCause) (s : State) : s.Coasts (addHold c s) := by
  refine .of_line (by simp) (by simp) (addHold_firing c s) (fun h => ?_) ?_ ⟨[], by simp⟩ <;> rw [addHold_lc]
  exact ⟨by simp [h], id⟩

theorem withdraw_coasts (s : State) : s.Coasts (withdraw s) :=
  .of_frame (by simp) (by simp) (by simp) (by simp)

theorem testComplete_coasts (o : Word16) (s : State) : s.Coasts (testComplete o s) := by
  unfold testComplete
  split
  · exact .refl s
  · split
    · obtain ⟨more, hk⟩ := closeBundles_kicks (modifyBundle o (fun b => { b with complete := true }) s)
      exact .of_units rfl rfl rfl ⟨more, hk⟩
    · exact .refl s

/-- A stop of the line at which it leaves the firing states. -/
theorem stopLine_coasts {l : LineState} (hl : l.firing = false) (s : State)
    (h : s.lc.line ≠ .faulted) : s.Coasts (stopLine l s) := by
  have hstop : (stopLine l s).firing = false := by rw [State.firing, stopLine_lc]; exact hl
  refine ⟨⟨fun ht => Bool.noConfusion (hstop.symm.trans ht), ?_, fun hs => absurd hs h, by rw [stopLine_lc]⟩, ?_,
    ⟨[], by simp⟩⟩
  · rw [hstop]
    cases hs : s.firing with
    | true => rw [stopLine, if_pos hs, (leaveFiring_outputs (setLine l s)).2.2.2]; simp [setLine]
    | false => rw [stopLine, if_neg (by rw [hs]; exact Bool.false_ne_true)]; simp [setLine]
  · rw [hstop, stopLine_fu]
    simp

theorem stopFault_coasts (c : FaultCause) (st : Option StationNo) (s : State) : s.Coasts (stopFault c st s) := by
  have hstop : (stopFault c st s).firing = false := by rw [State.firing, stopFault_line]; rfl
  obtain ⟨hout, hin⟩ := stopFault_lc c st s
  refine ⟨⟨fun ht => Bool.noConfusion (hstop.symm.trans ht), ?_, fun hs => ⟨stopFault_line c st s, fun hj => ?_⟩, ?_⟩,
    by rw [stopFault_fu, hstop]; simp, ⟨[], by simp⟩⟩
  · rw [hstop]
    by_cases hl : s.lc.line = .faulted
    · have hs : s.firing = false := by rw [State.firing, hl]; rfl
      rw [(stopFault_tu_faulted c st hl).2.1, hs, if_neg (fun h => Bool.noConfusion h.1)]
    · have hstopped : (stopLine .faulted s).firing = false := by rw [State.firing, stopLine_lc]; rfl
      have hmu := (stopLine_coasts (l := .faulted) rfl s hl).mu
      rw [hstopped] at hmu
      rw [stopFault, if_neg hl, beginEpisode, raiseNotice_mu, ← hmu]
  · rw [hin hs]
    cases c with
    | jam => rfl
    | _ => exact hj
  · by_cases hl : s.lc.line = .faulted
    · rw [hin hl]
    · rw [hout hl]

theorem reportTrackClear_coasts (s : State) : s.Coasts (reportTrackClear s) := by
  unfold reportTrackClear
  split
  · rename_i h; exact stopLine_coasts rfl s (by rw [h.1]; exact LineState.noConfusion)
  · exact .refl s

/-! ## The gate -/

theorem sweep_coasts (o : Word16) (pitch : PitchIndex) (g : Nat) (s : State) : s.Coasts (sweep o pitch g s) := by
  induction g generalizing s with
  | zero => exact .refl s
  | succ g ih =>
    refine State.Coasts.trans ?_ (ih _)
    unfold sweepAt
    split
    · split
      · exact .of_frame rfl rfl rfl rfl
      · exact .refl s
    · exact .refl s

theorem exceptAtGate_coasts (c : Context) (r : ExceptionReason) (pitch : PitchIndex) (s : State) :
    s.Coasts (exceptAtGate c r pitch s) := by
  have hcount : s.Coasts (countExcepted c.copy.ordinal (place (c.record .exception (some r) pitch) s)) :=
    .of_frame rfl rfl rfl rfl
  exact (hcount.trans (testComplete_coasts c.copy.ordinal _)).trans (.of_frame rfl rfl rfl rfl)

theorem sendToMakeUp_coasts (c : Context) (g : Nat) (pitch : PitchIndex) (s : State) : s.Coasts (sendToMakeUp c g pitch s) :=
  .trans (t := place (c.record .diverted none pitch) (enqueue c s)) (.of_frame rfl rfl rfl rfl) (sweep_coasts _ _ _ _)

theorem divert_coasts (c : Context) (g : Nat) (pitch : PitchIndex) (s : State) : s.Coasts (divert c g pitch s) := by
  unfold divert
  dsimp only
  split
  · exact ((setContent_coasts g .empty s).trans (exceptAtGate_coasts _ _ pitch _)).trans (reportTrackClear_coasts _)
  · exact ((setContent_coasts g .empty s).trans (sendToMakeUp_coasts _ g pitch _)).trans (reportTrackClear_coasts _)

theorem divertGhost_coasts (g : Nat) (s : State) : s.Coasts (divertGhost g s) := by
  refine State.Coasts.trans ?_ (reportTrackClear_coasts _)
  exact .of_frame rfl rfl rfl rfl

theorem decideGate_coasts (atFirePoint : Bool) (g : Nat) (pitch : PitchIndex) (s : State) :
    s.Coasts (decideGate atFirePoint g pitch s).2 := by
  unfold decideGate
  split
  · exact .refl s
  · exact divertGhost_coasts g s
  · dsimp only
    split
    · exact setContent_coasts g _ s
    · exact divert_coasts _ g pitch s

theorem gateFirePoint_coasts (s : State) : s.Coasts (gateFirePoint s).2 := by
  unfold gateFirePoint
  split
  · exact .refl s
  · dsimp only
    have hset : s.Coasts { s with gm := { s.gm with decided := true } } := .of_frame rfl rfl rfl rfl
    split
    · exact hset
    · exact hset.trans (decideGate_coasts _ _ _ _)

theorem gateCloseOut_coasts (ended : PitchIndex) (s : State) : s.Coasts (gateCloseOut ended s) := by
  unfold gateCloseOut
  split
  · exact .refl s
  · split
    · exact .refl s
    · exact decideGate_coasts _ _ _ _

/-! ## The stack -/

theorem deliver_coasts (c : Context) (s : State) : s.Coasts (deliver c s) := by
  rw [deliver_eq]
  refine State.Coasts.trans ?_ (reportTrackClear_coasts _)
  refine State.Coasts.trans ?_ (testComplete_coasts _ _)
  exact .of_frame rfl rfl rfl rfl

theorem lose_coasts (c : Context) (pitch : PitchIndex) (s : State) : s.Coasts (lose c pitch s) := by
  rw [lose_eq]
  refine State.Coasts.trans ?_ (reportTrackClear_coasts _)
  refine State.Coasts.trans ?_ (testComplete_coasts _ _)
  exact .of_frame rfl rfl rfl rfl

theorem stackEvent_coasts (i : StationNo) (s : State) : s.Coasts (stackEvent i s) := by
  unfold stackEvent
  split
  · split
    · exact deliver_coasts _ s
    · exact lose_coasts _ _ s
  · exact .refl s

theorem stackCloseOut_coasts (ended : PitchIndex) (s : State) : s.Coasts (stackCloseOut ended s) := by
  unfold stackCloseOut
  split
  · exact (setContent_coasts _ _ s).trans (lose_coasts _ _ _)
  · exact .refl s

/-! ## The stations' work -/

theorem takeSample_coasts (i : StationNo) (s : State) : s.Coasts (takeSample i s) :=
  .of_frame (by simp) (by simp) (by simp) (by simp)

/-- The stations' work takes no fire point. -/
theorem stationWork_coasts : StationWork State.Coasts where
  refl := .refl
  trans := .trans
  mark := markAt_coasts
  check := setCheckWork_coasts
  stray _ _ := .of_frame rfl rfl rfl rfl
  sample := takeSample_coasts
  trigger _ _ := .of_frame rfl rfl rfl rfl
  hold := addHold_coasts
  notice := raiseNotice_coasts
  fault := stopFault_coasts
  withdraw := withdraw_coasts

/-! ## The close-out and the boundary's other work -/

theorem closeOut_coasts (line : LineState) (ended : PitchIndex) (s : State) : s.Coasts (closeOut line ended s) :=
  ((((stationWork_coasts.forStations stationWork_coasts.actionCloseOut s).trans
    (stationWork_coasts.checkCloseOut line.firing _)).trans
    (stationWork_coasts.forStations stationWork_coasts.printCloseOut _)).trans (stackCloseOut_coasts ended _)).trans
    (gateCloseOut_coasts ended _)

theorem shiftTrack_coasts (s : State) : s.Coasts (shiftTrack s) := by
  unfold shiftTrack
  split
  · exact .refl s
  · exact .of_frame rfl rfl rfl rfl

theorem release_coasts (line : LineState) (s : State) : s.Coasts (release line s) := by
  unfold release
  split
  · unfold releaseRunning
    split
    · exact .of_frame rfl rfl rfl rfl
    · split
      · exact .of_frame rfl rfl rfl rfl
      · unfold starvedPitch
        dsimp only
        split
        · exact .of_frame rfl rfl rfl rfl
        · refine State.Coasts.trans ?_ (raiseNotice_coasts _ _)
          exact .of_frame rfl rfl rfl rfl
  · exact .of_frame rfl rfl rfl rfl

theorem dispatchJob_coasts (s : State) : s.Coasts (dispatchJob s) := by
  unfold dispatchJob
  split
  · exact .refl s
  · split
    · exact .refl s
    · dsimp only
      split
      · split
        · exact markAt_coasts _ _ s
        · split
          · exact .of_frame rfl rfl rfl rfl
          · exact (stopFault_coasts _ _ s).trans (markAt_coasts _ _ _)
      · exact .refl s

theorem newPitchGate_coasts (s : State) : s.Coasts (newPitchGate s) := .of_frame rfl rfl rfl rfl

theorem newPitchChecks_coasts (s : State) : s.Coasts (newPitchChecks s) :=
  .of_frame (by simp) (by simp) (by simp) (by simp)

theorem senseCount_coasts (s : State) : s.Coasts (senseCount s) := .of_frame (by simp) (by simp) (by simp) (by simp)

end Sys2Proof.Machine
end

section
/-! PROOFS. The tasks of one count, one after another: what they do to the Motion Unit, to the stations and to the kicks. -/

namespace Sys2Proof.Machine

/-! ## Coasting, station by station -/

theorem State.Coasts.fireWork {s t : State} (h : s.Coasts t) (i : StationNo) : t.fireWork i =
    { s.fireWork i with pulse := (s.fireWork i).pulse && (t.firing || !s.firing) } := by
  by_cases hs : s.firing = true ∧ t.firing = false
  · have hfu := h.fu
    rw [if_pos hs] at hfu
    rw [State.fireWork, hfu, hs.1, hs.2]
    exact (fireWork_endPulses i s).trans (by simp)
  · have hfu := h.fu
    rw [if_neg hs] at hfu
    have hgo : (t.firing || !s.firing) = true := by
      cases hf : s.firing with
      | false => simp
      | true => simpa [hf] using hs
    rw [State.fireWork, hfu, hgo, Bool.and_true]
    rfl

theorem State.Coasts.tables {s t : State} (h : s.Coasts t) : t.fu.stations = s.fu.stations ∧ t.fu.curves = s.fu.curves ∧
    t.fu.outputs = s.fu.outputs ∧ t.fu.latchedSpeed = s.fu.latchedSpeed := by
  have hfu := h.fu
  by_cases hs : s.firing = true ∧ t.firing = false
  · rw [if_pos hs] at hfu
    simp only [hfu, endPulses, and_self]
  · rw [if_neg hs] at hfu
    simp only [hfu, and_self]

theorem station_of_tables {s t : State} (h : t.fu.stations = s.fu.stations) (i : StationNo) : t.station i = s.station i := by
  rw [State.station, h]; rfl

/-! ## The kicks -/

/-- The kick pulses and the pitch's record of its kick go on, the pulses while the line fires. -/
structure State.KicksRest (s t : State) : Prop where
  taken : t.fu.kickTaken = s.fu.kickTaken
  finish : t.fu.kickEnd = s.fu.kickEnd
  bundle : t.fu.bundleKick = (s.fu.bundleKick && (t.firing || !s.firing))
  tray : t.fu.trayKick = (s.fu.trayKick && (t.firing || !s.firing))

/-- Kicks join the list, and at most the oldest is taken from it: with the pitch's record, where none was taken before. -/
def State.KicksTaken (s t : State) : Prop :=
  (t.fu.kickTaken = s.fu.kickTaken ∧ ∃ more, t.bu.kicks = s.bu.kicks ++ more) ∨
  (s.fu.kickTaken = false ∧ t.fu.kickTaken = true ∧ ∃ tray more, s.bu.kicks ++ more = tray :: t.bu.kicks)

theorem State.KicksTaken.trans {s t u : State} (h : s.KicksTaken t) (k : t.KicksTaken u) : s.KicksTaken u := by
  rcases h with ⟨ht, a, ha⟩ | ⟨hs, ht, tray, a, ha⟩ <;> rcases k with ⟨hu, b, hb⟩ | ⟨ht', hu, tray', b, hb⟩
  · exact .inl ⟨hu.trans ht, a ++ b, by rw [hb, ha, List.append_assoc]⟩
  · exact .inr ⟨ht.symm.trans ht', hu, tray', a ++ b, by rw [← hb, ha, List.append_assoc]⟩
  · exact .inr ⟨hs, hu.trans ht, tray, a ++ b, by rw [hb, ← List.append_assoc, ha]; rfl⟩
  · exact Bool.noConfusion (ht.symm.trans ht')

theorem pulse_trans {a b c p : Bool} (h : b = true → a = true) (k : c = true → b = true) :
    (p && (b || !a) && (c || !b)) = (p && (c || !a)) := by
  cases a <;> cases b <;> cases c <;> simp_all

theorem State.KicksRest.trans {s t u : State} (h : s.KicksRest t) (k : t.KicksRest u) (ht : s.Stops t) (hu : t.Stops u) :
    s.KicksRest u :=
  ⟨k.taken.trans h.taken, k.finish.trans h.finish, by rw [k.bundle, h.bundle, pulse_trans ht.firing hu.firing],
    by rw [k.tray, h.tray, pulse_trans ht.firing hu.firing]⟩

theorem State.Coasts.kicksTaken {s t : State} (h : s.Coasts t) : s.KicksTaken t := by
  refine .inl ⟨?_, h.kicks⟩
  rw [h.fu]
  split <;> rfl

theorem State.Coasts.kicksRest {s t : State} (h : s.Coasts t) : s.KicksRest t := by
  have hfu := h.fu
  by_cases hs : s.firing = true ∧ t.firing = false
  · rw [if_pos hs] at hfu
    exact ⟨by rw [hfu]; rfl, by rw [hfu]; rfl, by rw [hfu, hs.1, hs.2]; simp [endPulses], by rw [hfu, hs.1, hs.2]; simp [endPulses]⟩
  · rw [if_neg hs] at hfu
    have hgo : (t.firing || !s.firing) = true := by
      cases hf : s.firing with
      | false => simp
      | true => simpa [hf] using hs
    exact ⟨by rw [hfu], by rw [hfu], by rw [hfu, hgo, Bool.and_true], by rw [hfu, hgo, Bool.and_true]⟩

/-! ## Within one count -/

/-- What the tasks of one count do: each station rests, or takes the fire point that is due to it. -/
structure State.Within (s t : State) : Prop extends State.Stops s t where
  stations : t.fu.stations = s.fu.stations
  curves : t.fu.curves = s.fu.curves
  outputs : t.fu.outputs = s.fu.outputs
  speed : t.fu.latchedSpeed = s.fu.latchedSpeed
  e : ∀ i, (t.fireWork i).e = (s.fireWork i).e
  fired : ∀ i, (s.fireWork i).fired = true → (t.fireWork i).fired = true
  rests : ∀ i, (t.fireWork i).fired = (s.fireWork i).fired →
    t.fireWork i = { s.fireWork i with pulse := (s.fireWork i).pulse && (t.firing || !s.firing) }
  fires : ∀ i, (s.fireWork i).fired = false → (t.fireWork i).fired = true →
    s.fireDue i = true ∧ (t.fireWork i).outcome ≠ .none ∧ (s.firing = false → (t.fireWork i).outcome = .skipped)
  kicksRest : (∀ j, (s.station j).kind = .stack → (t.fireWork j).fired = (s.fireWork j).fired) → s.KicksRest t
  kicksTaken : s.KicksTaken t

theorem State.fireDue_iff (s : State) (i : StationNo) : s.fireDue i = true ↔
    (s.station i).kind.fires = true ∧ (s.fireWork i).fired = false ∧ (s.fireWork i).e = s.mu.phase := by
  simp [State.fireDue, and_assoc]

namespace State.Within

theorem of_coasts {s t : State} (h : s.Coasts t) : s.Within t := by
  obtain ⟨hst, hcu, hout, hsp⟩ := h.tables
  have hw := h.fireWork
  have hfired (i : StationNo) : (t.fireWork i).fired = (s.fireWork i).fired := by rw [hw i]
  exact ⟨h.toStops, hst, hcu, hout, hsp, fun i => by rw [hw i], fun i hf => by rw [hfired i]; exact hf,
    fun i _ => hw i, fun i hf ht => Bool.noConfusion (hf.symm.trans ((hfired i).symm.trans ht)), fun _ => h.kicksRest, h.kicksTaken⟩

theorem refl (s : State) : s.Within s := of_coasts (.refl s)

theorem phase {s t : State} (h : s.Within t) : t.mu.phase = s.mu.phase := by
  rw [h.mu]; split <;> rfl

theorem station {s t : State} (h : s.Within t) (i : StationNo) : t.station i = s.station i := station_of_tables h.stations i

/-- A fire point due later in the count was due at its start, unless it has been taken. -/
theorem due_back {s t : State} (h : s.Within t) {i : StationNo} (hd : t.fireDue i = true) : s.fireDue i = true := by
  rw [State.fireDue_iff] at hd ⊢
  obtain ⟨hk, hf, he⟩ := hd
  refine ⟨h.station i ▸ hk, ?_, by rw [← h.e i, he, h.phase]⟩
  exact Bool.eq_false_iff.mpr fun hs => Bool.noConfusion (hf.symm.trans (h.fired i hs))

theorem trans {s t u : State} (h : s.Within t) (k : t.Within u) : s.Within u := by
  have unfired {i : StationNo} (hu : (u.fireWork i).fired = (s.fireWork i).fired) :
      (t.fireWork i).fired = (s.fireWork i).fired ∧ (u.fireWork i).fired = (t.fireWork i).fired := by
    have ht : (t.fireWork i).fired = (s.fireWork i).fired := by
      cases hs : (s.fireWork i).fired with
      | true => exact h.fired i hs
      | false =>
        refine Bool.eq_false_iff.mpr fun ht => ?_
        exact Bool.noConfusion ((hu.trans hs).symm.trans (k.fired i ht))
    exact ⟨ht, hu.trans ht.symm⟩
  refine ⟨h.toStops.trans k.toStops, k.stations.trans h.stations, k.curves.trans h.curves, k.outputs.trans h.outputs,
    k.speed.trans h.speed, fun i => (k.e i).trans (h.e i), fun i hf => k.fired i (h.fired i hf), fun i hu => ?_,
    fun i hs hu => ?_, fun hst => ?_, h.kicksTaken.trans k.kicksTaken⟩
  · obtain ⟨ht, hut⟩ := unfired hu
    rw [k.rests i hut, h.rests i ht]
    simp only [pulse_trans h.firing k.firing]
  · cases ht : (t.fireWork i).fired with
    | true =>
      obtain ⟨hdue, hout, hskip⟩ := h.fires i hs ht
      rw [k.rests i (hu.trans ht.symm)]
      exact ⟨hdue, hout, hskip⟩
    | false =>
      obtain ⟨hdue, hout, hskip⟩ := k.fires i ht hu
      exact ⟨h.due_back hdue, hout, fun hsf => hskip (h.stopped hsf)⟩
  · refine (h.kicksRest fun j hj => (unfired (hst j hj)).1).trans (k.kicksRest fun j hj => ?_) h.toStops k.toStops
    exact (unfired (hst j (h.station j ▸ hj))).2

end State.Within

/-! ## A fire point taken (R25 to R30) -/

/-- A change of a station's flag, outcome and pulse that gives the outcome `o`. -/
structure FiresAs (f : FireWork → FireWork) (o : PitchOutcome) : Prop where
  e : ∀ w, (f w).e = w.e
  fired : ∀ w, (f w).fired = w.fired
  outcome : ∀ w, (f w).outcome = o

theorem setOutcome_firesAs (o : PitchOutcome) : FiresAs (fun w => { w with outcome := o }) o :=
  ⟨fun _ => rfl, fun _ => rfl, fun _ => rfl⟩

theorem fireWithPulse_eq (i : StationNo) (s : State) : ∃ f, FiresAs f .fired ∧ fireWithPulse i s = setFireWork i f s :=
  ⟨fun w => { w with outcome := .fired, pulse := true, pulseEnd := w.e + (s.station i).pulseLength },
    ⟨fun _ => rfl, fun _ => rfl, fun _ => rfl⟩, setFireWork_setFireWork i _ _ s⟩

/-- The fired flag set, as the first step of every fire point. -/
def flagged (i : StationNo) (s : State) : State := setFireWork i (fun w => { w with fired := true }) s

/-- A fire point taken: the flag, what the unit does before its outcome, the outcome, and what it does after; a STACK station
then takes its kick. -/
theorem takeFirePoint_shape (i : StationNo) (s : State) : ∃ u w f o, (flagged i s).Coasts u ∧ FiresAs f o ∧
    (setFireWork i f u).Coasts w ∧ o ≠ .none ∧ (s.firing = false → o = .skipped ∧ ∀ x, (f x).pulse = x.pulse) ∧
    (takeFirePoint i s = w ∨ (s.station i).kind = .stack ∧ takeFirePoint i s = takeKick i w) := by
  cases hf : s.firing with
  | false =>
    have htake : takeFirePoint i s = stationMissed i (setOutcome i .skipped (flagged i s)) :=
      if_neg fun h => Bool.noConfusion (hf.symm.trans h)
    exact ⟨_, _, _, _, .refl _, setOutcome_firesAs .skipped, stationWork_coasts.stationMissed i _, PitchOutcome.noConfusion,
      fun _ => ⟨rfl, fun _ => rfl⟩, .inl htake⟩
  | true =>
    have htake : takeFirePoint i s = fireInFiring i (flagged i s) := if_pos hf
    have acts (b : Bool) : ∃ w f o, FiresAs f o ∧ (setFireWork i f (flagged i s)).Coasts w ∧ o ≠ .none ∧
        (if b then fireWithPulse i (flagged i s) else setOutcome i .declined (flagged i s)) = w := by
      cases b with
      | true =>
        obtain ⟨f, hfires, heq⟩ := fireWithPulse_eq i (flagged i s)
        exact ⟨_, f, .fired, hfires, .refl _, PitchOutcome.noConfusion, heq⟩
      | false => exact ⟨_, _, .declined, setOutcome_firesAs .declined, .refl _, PitchOutcome.noConfusion, rfl⟩
    have simple (h : fireInFiring i (flagged i s) =
        if firesOn ((flagged i s).station i) ((flagged i s).contentAt ((flagged i s).station i).offset)
          then fireWithPulse i (flagged i s) else setOutcome i .declined (flagged i s)) :
        ∃ u w f o, (flagged i s).Coasts u ∧ FiresAs f o ∧ (setFireWork i f u).Coasts w ∧ o ≠ .none ∧
          (true = false → o = .skipped ∧ ∀ x, (f x).pulse = x.pulse) ∧
          (takeFirePoint i s = w ∨ (s.station i).kind = .stack ∧ takeFirePoint i s = takeKick i w) := by
      obtain ⟨w, f, o, hfires, hcoasts, ho, heq⟩ := acts (firesOn ((flagged i s).station i)
        ((flagged i s).contentAt ((flagged i s).station i).offset))
      exact ⟨_, w, f, o, .refl _, hfires, hcoasts, ho, Bool.noConfusion, .inl (htake.trans (h.trans heq))⟩
    have hkind : ((flagged i s).station i).kind = (s.station i).kind := rfl
    cases hk : (s.station i).kind with
    | gate =>
      have hgate : fireInFiring i (flagged i s) = if (gateFirePoint (flagged i s)).1 then
          fireWithPulse i (gateFirePoint (flagged i s)).2 else setOutcome i .declined (gateFirePoint (flagged i s)).2 := by
        unfold fireInFiring; rw [hkind, hk]
      rw [htake, hgate]
      cases hp : (gateFirePoint (flagged i s)).1 with
      | true =>
        obtain ⟨f, hfires, heq⟩ := fireWithPulse_eq i (gateFirePoint (flagged i s)).2
        exact ⟨_, _, f, .fired, gateFirePoint_coasts _, hfires, .refl _, PitchOutcome.noConfusion, Bool.noConfusion, .inl heq⟩
      | false =>
        exact ⟨_, _, _, .declined, gateFirePoint_coasts _, setOutcome_firesAs .declined, .refl _, PitchOutcome.noConfusion,
          Bool.noConfusion, .inl rfl⟩
    | stack =>
      have hstack : fireInFiring i (flagged i s) = takeKick i (stackEvent i (setOutcome i .fired (flagged i s))) := by
        unfold fireInFiring; rw [hkind, hk]
      exact ⟨_, _, _, .fired, .refl _, setOutcome_firesAs .fired, stackEvent_coasts i _, PitchOutcome.noConfusion,
        Bool.noConfusion, .inr ⟨rfl, htake.trans hstack⟩⟩
    | print =>
      have hprint : fireInFiring i (flagged i s) =
          if firesOn ((flagged i s).station i) ((flagged i s).contentAt ((flagged i s).station i).offset)
            then printFired i (fireWithPulse i (flagged i s)) else setOutcome i .declined (flagged i s) := by
        unfold fireInFiring; rw [hkind, hk]
      rw [htake, hprint]
      split
      · obtain ⟨f, hfires, heq⟩ := fireWithPulse_eq i (flagged i s)
        exact ⟨_, _, f, .fired, .refl _, hfires, heq ▸ stationWork_coasts.printFired i _, PitchOutcome.noConfusion, Bool.noConfusion, .inl rfl⟩
      · exact ⟨_, _, _, .declined, .refl _, setOutcome_firesAs .declined, .refl _, PitchOutcome.noConfusion, Bool.noConfusion,
          .inl rfl⟩
    | _ => exact hk ▸ simple (by unfold fireInFiring; rw [hkind, hk])

end Sys2Proof.Machine
end

section
/-! PROOFS. The tasks due at one announced count: each is taken, and the count's work ends within the count. -/

namespace Sys2Proof.Machine

/-! ## The fire points -/

theorem flagged_stops (i : StationNo) (s : State) : s.Stops (flagged i s) := by
  refine ⟨id, ?_, fun h => ⟨h, id⟩, rfl⟩
  rw [if_neg fun hc => Bool.noConfusion (hc.1.symm.trans (show s.firing = false from hc.2))]
  rfl

theorem setFireWork_stops (i : StationNo) (f : FireWork → FireWork) (s : State) : s.Stops (setFireWork i f s) := by
  refine ⟨id, ?_, fun h => ⟨h, id⟩, rfl⟩
  rw [if_neg fun hc => Bool.noConfusion (hc.1.symm.trans (show s.firing = false from hc.2))]
  rfl

/-- The working state of the station that takes its fire point, up to its kick. -/
theorem fired_work {i : StationNo} {s u w : State} {f : FireWork → FireWork} {o : PitchOutcome}
    (hu : (flagged i s).Coasts u) (hf : FiresAs f o) (hw : (setFireWork i f u).Coasts w) :
    (w.fireWork i).fired = true ∧ (w.fireWork i).outcome = o ∧ (w.fireWork i).e = (s.fireWork i).e := by
  have hflag : (flagged i s).fireWork i = { s.fireWork i with fired := true } := fireWork_setFireWork i _ s
  rw [hw.fireWork i, fireWork_setFireWork]
  refine ⟨(hf.fired _).trans (by rw [hu.fireWork i, hflag]), hf.outcome _, (hf.e _).trans (by rw [hu.fireWork i, hflag])⟩

theorem fired_work_other {i j : StationNo} {s u w : State} {f : FireWork → FireWork} (hj : j ≠ i)
    (hu : (flagged i s).Coasts u) (hw : (setFireWork i f u).Coasts w) :
    w.fireWork j = { s.fireWork j with pulse := (s.fireWork j).pulse && (w.firing || !s.firing) } := by
  have hflag : (flagged i s).fireWork j = s.fireWork j := fireWork_setFireWork_other i j _ s hj
  rw [hw.fireWork j, fireWork_setFireWork_other i j f u hj, hu.fireWork j, hflag]
  exact congrArg (fun b => { s.fireWork j with pulse := b }) (pulse_trans hu.firing hw.firing)

theorem takeKick_fireWork (i j : StationNo) (s : State) : (takeKick i s).fireWork j = s.fireWork j := by
  rcases takeKick_cases i s with ⟨h, -⟩ | ⟨tray, rest, -, -, -, h⟩ <;> rw [h] <;> rfl

theorem takeKick_kicksTaken (i : StationNo) (s : State) : s.KicksTaken (takeKick i s) := by
  rcases takeKick_cases i s with ⟨h, -⟩ | ⟨tray, rest, hk, -, hno, h⟩ <;> rw [h]
  · exact .inl ⟨rfl, [], (List.append_nil _).symm⟩
  · exact .inr ⟨hno, rfl, tray, [], by rw [hk, List.append_nil]⟩

/-- A STACK station's kick, after the fire point that is due to it. -/
theorem State.Within.kick {s t : State} {i : StationNo} (h : s.Within t) (hk : (s.station i).kind = .stack)
    (hs : (s.fireWork i).fired = false) (ht : (t.fireWork i).fired = true) : s.Within (takeKick i t) := by
  have hwork := takeKick_fireWork i
  have hrest : (takeKick i t).mu = t.mu ∧ (takeKick i t).lc = t.lc ∧
      (takeKick i t).fu.stations = t.fu.stations ∧ (takeKick i t).fu.curves = t.fu.curves ∧
      (takeKick i t).fu.outputs = t.fu.outputs ∧ (takeKick i t).fu.latchedSpeed = t.fu.latchedSpeed := by
    rcases takeKick_cases i t with ⟨h, -⟩ | ⟨tray, rest, -, -, -, h⟩ <;> rw [h] <;> exact ⟨rfl, rfl, rfl, rfl, rfl, rfl⟩
  obtain ⟨hmu, hlc, h1, h2, h3, h4⟩ := hrest
  have hfiring : (takeKick i t).firing = t.firing := by rw [State.firing, State.firing, hlc]
  refine ⟨⟨fun hf => h.firing (hfiring ▸ hf), by rw [hmu, hfiring]; exact h.mu, fun hl => by rw [hlc]; exact h.faulted hl,
    by rw [hlc]; exact h.displaced⟩, h1.trans h.stations, h2.trans h.curves, h3.trans h.outputs,
    h4.trans h.speed, fun j => by rw [hwork]; exact h.e j, fun j hj => by rw [hwork]; exact h.fired j hj, fun j hj => ?_,
    fun j hj htj => ?_, fun hst => ?_, h.kicksTaken.trans (takeKick_kicksTaken i t)⟩
  · rw [hwork] at hj ⊢
    rw [hfiring]
    exact h.rests j hj
  · rw [hwork] at htj ⊢
    exact h.fires j hj htj
  · have := hst i hk
    rw [hwork, ht, hs] at this
    cases this

theorem takeFirePoint_within {i : StationNo} {s : State} (hdue : s.fireDue i = true) : s.Within (takeFirePoint i s) := by
  obtain ⟨u, w, f, o, hu, hf, hw, ho, hskip, htake⟩ := takeFirePoint_shape i s
  obtain ⟨hfired, hout, he⟩ := fired_work hu hf hw
  have hunfired : (s.fireWork i).fired = false := ((s.fireDue_iff i).mp hdue).2.1
  have hstops : s.Stops w := ((flagged_stops i s).trans hu.toStops).trans ((setFireWork_stops i f u).trans hw.toStops)
  obtain ⟨hu1, hu2, hu3, hu4⟩ := hu.tables
  obtain ⟨hw1, hw2, hw3, hw4⟩ := hw.tables
  have hwithin : s.Within w := by
    refine ⟨hstops, hw1.trans hu1, hw2.trans hu2, hw3.trans hu3, hw4.trans hu4, fun j => ?_, fun j hj => ?_, fun j hj => ?_,
      fun j hj hwj => ?_, fun hst => ?_, ?_⟩
    · by_cases hji : j = i
      · subst hji; exact he
      · rw [fired_work_other hji hu hw]
    · by_cases hji : j = i
      · subst hji; exact hfired
      · rw [fired_work_other hji hu hw]; exact hj
    · by_cases hji : j = i
      · subst hji; exact Bool.noConfusion (hfired.symm.trans (hj.trans hunfired))
      · exact fired_work_other hji hu hw
    · by_cases hji : j = i
      · subst hji; rw [hout]; exact ⟨hdue, ho, fun hs => (hskip hs).1⟩
      · rw [fired_work_other hji hu hw] at hwj
        exact Bool.noConfusion (hj.symm.trans hwj)
    · have hflag : s.KicksRest (flagged i s) := by
        have hgo : (s.firing || !s.firing) = true := by cases s.firing <;> rfl
        exact ⟨rfl, rfl, by rw [show (flagged i s).firing = s.firing from rfl, hgo, Bool.and_true]; rfl,
          by rw [show (flagged i s).firing = s.firing from rfl, hgo, Bool.and_true]; rfl⟩
      have hset : u.KicksRest (setFireWork i f u) := by
        have hgo : (u.firing || !u.firing) = true := by cases u.firing <;> rfl
        exact ⟨rfl, rfl, by rw [show (setFireWork i f u).firing = u.firing from rfl, hgo, Bool.and_true]; rfl,
          by rw [show (setFireWork i f u).firing = u.firing from rfl, hgo, Bool.and_true]; rfl⟩
      have hfront := hflag.trans hu.kicksRest (flagged_stops i s) hu.toStops
      have hback := hset.trans hw.kicksRest (setFireWork_stops i f u) hw.toStops
      exact hfront.trans hback ((flagged_stops i s).trans hu.toStops) ((setFireWork_stops i f u).trans hw.toStops)
    · have hflag : s.KicksTaken (flagged i s) := .inl ⟨rfl, [], (List.append_nil _).symm⟩
      have hset : u.KicksTaken (setFireWork i f u) := .inl ⟨rfl, [], (List.append_nil _).symm⟩
      exact (hflag.trans hu.kicksTaken).trans (hset.trans hw.kicksTaken)
  rcases htake with htake | ⟨hk, htake⟩ <;> rw [htake]
  · exact hwithin
  · exact hwithin.kick hk hunfired hfired

theorem takeFirePoint_fired (i : StationNo) (s : State) : ((takeFirePoint i s).fireWork i).fired = true := by
  obtain ⟨u, w, f, o, hu, hf, hw, -, -, htake⟩ := takeFirePoint_shape i s
  obtain ⟨hfired, -⟩ := fired_work hu hf hw
  rcases htake with htake | ⟨-, htake⟩ <;> rw [htake]
  · exact hfired
  · rw [takeKick_fireWork]; exact hfired

/-! ## The tasks of one count -/

theorem within_ite {s t : State} {c : Prop} [Decidable c] (h : c → s.Within t) : s.Within (if c then t else s) := by
  split
  · exact h ‹_›
  · exact .refl s

theorem runTask_within (forward : Bool) (s : State) (task : CountTask) : s.Within (runTask forward s task) := by
  cases task with
  | firePoint i => exact within_ite takeFirePoint_within
  | windowClose i => exact within_ite fun _ => .of_coasts (stationWork_coasts.closeWindow i s)
  | caliper i => exact within_ite fun _ => .of_coasts (stationWork_coasts.caliperCount i s)
  | jam i => exact within_ite fun _ => .of_coasts (stationWork_coasts.raiseJam i s)

theorem runTasks_within (forward : Bool) (l : List CountTask) (s : State) : s.Within (l.foldl (runTask forward) s) := by
  induction l generalizing s with
  | nil => exact .refl s
  | cons task l ih => exact (runTask_within forward s task).trans (ih _)

theorem mem_insertTask (rank : CountTask → Nat) (t u : CountTask) (l : List CountTask) :
    u ∈ insertTask rank t l ↔ u = t ∨ u ∈ l := by
  induction l with
  | nil => simp [insertTask]
  | cons v l ih =>
    unfold insertTask
    split
    · simp
    · simp only [List.mem_cons, ih]
      tauto

theorem mem_orderTasks (rank : CountTask → Nat) (u : CountTask) (ts : List CountTask) : u ∈ orderTasks rank ts ↔ u ∈ ts := by
  induction ts with
  | nil => simp [orderTasks]
  | cons t ts ih =>
    rw [orderTasks, List.foldr_cons, mem_insertTask, ← orderTasks, ih, List.mem_cons]

/-- A task's turn among the tasks of the count: those before it, itself, and those after. -/
theorem takeTasks_turn {forward : Bool} {s : State} {task : CountTask} (h : task ∈ s.dueTasks forward) :
    ∃ (t : State) (a b : List CountTask), s.Within t ∧ t = a.foldl (runTask forward) s ∧ takeTasks forward s =
      countUp (b.foldl (runTask forward) (runTask forward t task)) := by
  obtain ⟨a, b, hl⟩ := List.append_of_mem ((mem_orderTasks (Config.rank s.countIndex) task (s.dueTasks forward)).mpr h)
  exact ⟨_, a, b, runTasks_within forward a s, rfl, by rw [takeTasks, hl, List.foldl_append, List.foldl_cons]⟩

theorem takeTasks_eq (forward : Bool) (s : State) : ∃ t, s.Within t ∧ takeTasks forward s = countUp t :=
  ⟨_, runTasks_within forward _ s, rfl⟩

theorem mem_dueTasks_firePoint (s : State) (forward : Bool) (i : StationNo) :
    CountTask.firePoint i ∈ s.dueTasks forward ↔ s.fireDue i = true := by
  simp [State.dueTasks, mem_stationNos]

theorem mem_dueTasks_windowClose (s : State) (forward : Bool) (i : StationNo) :
    CountTask.windowClose i ∈ s.dueTasks forward ↔ s.closeDue i = true := by
  simp [State.dueTasks, mem_stationNos]

theorem mem_dueTasks_jam (s : State) (forward : Bool) (i : StationNo) :
    CountTask.jam i ∈ s.dueTasks forward ↔ forward = true ∧ s.jamDue i = true := by
  simp [State.dueTasks, mem_stationNos]

/-- A fire point that is due at the count is taken. -/
theorem takeTasks_fires {forward : Bool} {s : State} {i : StationNo} (h : s.fireDue i = true) :
    ((takeTasks forward s).fireWork i).fired = true := by
  obtain ⟨t, a, b, hst, -, htake⟩ := takeTasks_turn ((mem_dueTasks_firePoint s forward i).mpr h)
  have hturn : ((runTask forward t (.firePoint i)).fireWork i).fired = true := by
    cases ht : (t.fireWork i).fired with
    | true => exact (runTask_within forward t _).fired i ht
    | false =>
      obtain ⟨hk, -, he⟩ := (s.fireDue_iff i).mp h
      have hdue : t.fireDue i = true := (t.fireDue_iff i).mpr ⟨hst.station i ▸ hk, ht, by rw [hst.e i, he, hst.phase]⟩
      simp only [runTask, hdue, if_true]
      exact takeFirePoint_fired i t
  rw [htake]
  exact (runTasks_within forward b _).fired i hturn

theorem takeTasks_fired_iff (forward : Bool) (s : State) (i : StationNo) : ((takeTasks forward s).fireWork i).fired = true ↔
    (s.fireWork i).fired = true ∨ (s.station i).kind.fires = true ∧ (s.fireWork i).e = s.mu.phase := by
  obtain ⟨t, hst, htake⟩ := takeTasks_eq forward s
  constructor
  · intro h
    cases hs : (s.fireWork i).fired with
    | true => exact .inl rfl
    | false =>
      rw [htake] at h
      obtain ⟨hk, -, he⟩ := (s.fireDue_iff i).mp (hst.fires i hs h).1
      exact .inr ⟨hk, he⟩
  · rintro (h | ⟨hk, he⟩)
    · rw [htake]; exact hst.fired i h
    · cases hs : (s.fireWork i).fired with
      | true => rw [htake]; exact hst.fired i hs
      | false => exact takeTasks_fires ((s.fireDue_iff i).mpr ⟨hk, hs, he⟩)

end Sys2Proof.Machine
end

section
/-! PROOFS. Counts as events: the state in which the tasks of a count are taken, and what the end of the event leaves. -/

namespace Sys2Proof.Machine

/-! ## Staging through the tasks of a count -/

/-- The Admission Unit without its text blocks in use: staging, the resolver and the plans. -/
def State.admitted (s : State) : AdmissionUnit := { s.au with blocksUsed := 0 }

theorem admitted_of_au {s t : State} (h : t.au = s.au) : t.admitted = s.admitted := by rw [State.admitted, State.admitted, h]

theorem freeText_admitted (blocks : List Nat) (s : State) : (freeText blocks s).admitted = s.admitted := rfl

theorem reportTrackClear_admitted (s : State) : (reportTrackClear s).admitted = s.admitted := admitted_of_au (by simp)

theorem divert_admitted (c : Context) (g : Nat) (pitch : PitchIndex) (s : State) :
    (divert c g pitch s).admitted = s.admitted := by
  unfold divert
  dsimp only
  split
  · rw [reportTrackClear_admitted]
    exact (freeText_admitted _ _).trans (admitted_of_au (by simp))
  · rw [reportTrackClear_admitted]
    exact admitted_of_au (by simp)

theorem decideGate_admitted (atFirePoint : Bool) (g : Nat) (pitch : PitchIndex) (s : State) :
    (decideGate atFirePoint g pitch s).2.admitted = s.admitted := by
  unfold decideGate
  split
  · rfl
  · exact admitted_of_au (by simp)
  · dsimp only
    split
    · rfl
    · exact divert_admitted _ g pitch s

theorem gateFirePoint_admitted (s : State) : (gateFirePoint s).2.admitted = s.admitted := by
  unfold gateFirePoint
  split
  · rfl
  · dsimp only
    split
    · rfl
    · exact decideGate_admitted _ _ _ _

theorem exited_admitted (count : State → State) (r : Record) (c : Context) (s : State) (h : ∀ u, (count u).au = u.au) :
    (testComplete c.copy.ordinal (exited count r c s)).admitted = s.admitted := by
  rw [admitted_of_au (testComplete_au _ _), exited]
  simp only [State.admitted, h, place_au, setContent_au, freeText]

theorem stackEvent_admitted (i : StationNo) (s : State) : (stackEvent i s).admitted = s.admitted := by
  unfold stackEvent
  split
  · split
    · rw [deliver_eq, reportTrackClear_admitted]; exact exited_admitted _ _ _ _ fun _ => rfl
    · rw [lose_eq, reportTrackClear_admitted]; exact exited_admitted _ _ _ _ fun _ => rfl
  · rfl

theorem takeFirePoint_admitted (i : StationNo) (s : State) : (takeFirePoint i s).admitted = s.admitted := by
  unfold takeFirePoint
  dsimp only
  split
  · unfold fireInFiring
    split
    · split
      · exact (admitted_of_au (fireWithPulse_au _ _)).trans (gateFirePoint_admitted _)
      · exact (admitted_of_au (setOutcome_au _ _ _)).trans (gateFirePoint_admitted _)
    · exact (admitted_of_au (takeKick_au _ _)).trans (stackEvent_admitted _ _)
    · split <;> exact admitted_of_au (by simp)
    · split <;> exact admitted_of_au (by simp)
  · exact admitted_of_au (by simp)

theorem runTask_admitted (forward : Bool) (s : State) (task : CountTask) : (runTask forward s task).admitted = s.admitted := by
  cases task with
  | firePoint i => unfold runTask; dsimp only; split; exacts [takeFirePoint_admitted i s, rfl]
  | windowClose i => unfold runTask; dsimp only; split; exacts [admitted_of_au (by simp), rfl]
  | caliper i => unfold runTask; dsimp only; split; exacts [admitted_of_au (by simp), rfl]
  | jam i => unfold runTask; dsimp only; split; exacts [admitted_of_au (by simp), rfl]

theorem takeTasks_admitted (forward : Bool) (s : State) : (takeTasks forward s).admitted = s.admitted :=
  foldl_runTask_inv (fun t => t.admitted = s.admitted) forward (fun _ _ h => (runTask_admitted forward _ _).trans h) _ s rfl

/-! ## The end of the event -/

theorem reduceHolds_coasts (h : HoldSet) (s : State) : s.Coasts (reduceHolds h s) := by
  refine .of_line (by simp) (by simp) (reduceHolds_firing h s) (fun hl => ?_) ?_ ⟨[], by simp⟩ <;> rw [reduceHolds_lc]
  exact ⟨by simp [hl], id⟩

theorem reportBacklog_coasts (s : State) : s.Coasts (reportBacklog s) := by
  unfold reportBacklog
  split
  · exact addHold_coasts _ s
  · split
    · exact reduceHolds_coasts _ s
    · exact .refl s

theorem beginSending_coasts (s : State) : s.Coasts (beginSending s) :=
  .of_frame (by simp) (by simp) (by simp) (by simp)

theorem countUp_coasts (s : State) : s.Coasts (countUp s) := .of_frame rfl rfl rfl rfl

/-- The tasks of a count and the end of an event with no frame held. -/
structure CountEnds (forward : Bool) (n t : State) : Prop extends State.Within n t where
  ends : (takeTasks forward n).Coasts t
  tu : t.tu = (takeTasks forward n).tu
  cu : t.cu = (takeTasks forward n).cu
  gm : t.gm = (takeTasks forward n).gm
  bu : t.bu = (takeTasks forward n).bu
  au : t.au = (takeTasks forward n).au
  count : t.countIndex = n.countIndex + 1

theorem takeTasks_countIndex (forward : Bool) (s : State) : (takeTasks forward s).countIndex = s.countIndex + 1 := by
  have : ∀ l : List CountTask, (l.foldl (runTask forward) s).countIndex = s.countIndex := fun l =>
    foldl_runTask_inv (fun t => t.countIndex = s.countIndex) forward (fun u task h => (runTask_countIndex forward task u).trans h) l s rfl
  exact congrArg (· + 1) (this _)

theorem takeTasks_within (forward : Bool) (s : State) : s.Within (takeTasks forward s) :=
  (runTasks_within forward _ s).trans (.of_coasts (countUp_coasts _))

/-- An event whose work is a count. -/
theorem count_event {p : Pins} {work : State → State} {s n : State} {forward : Bool} (hs : s.Open)
    (hwork : work (setPins p s) = takeTasks forward n) (hn : n.ll.receive = s.ll.receive) :
    ∃ t, event p work s = .next t ∧ CountEnds forward n t := by
  have hrec : (takeTasks forward n).ll.receive ≠ .held := by
    rw [Acts.receive (takeTasks_acts (may := Anyhow) n forward), hn]; exact hs.2
  have hends : (takeTasks forward n).Coasts (beginSending (reportBacklog (takeTasks forward n))) :=
    (reportBacklog_coasts _).trans (beginSending_coasts _)
  refine ⟨_, event_open p work s hs.1, ?_⟩
  rw [hwork, finish_open hrec]
  exact ⟨(takeTasks_within forward n).trans (.of_coasts hends), hends, by simp, by simp, by simp, by simp, by simp,
    by rw [beginSending_countIndex, reportBacklog_countIndex, takeTasks_countIndex]⟩

end Sys2Proof.Machine
end

section
/-! PROOFS. Counts inside the pitch and at its boundary: the phase, the fire points of the pitch that begins, and the sources. -/

namespace Sys2Proof.Machine

/-! ## The state in which the tasks are taken -/

/-- Before the tasks of a forward count inside the pitch. -/
def raised (s : State) : State := senseCount (endDuePulses (raisePhase (countForward s)))

/-- Before the tasks of a reverse count. -/
def lowered (s : State) : State := lowerPhase (countReverse s)

/-- Before the tasks of a forward count that ends the pitch. -/
def bounded (s : State) : State := senseCount (pitchBoundary (countForward s))

theorem forwardCount_inside {s : State} (h : s.mu.phase + 1 < s.mu.len) : forwardCount s = takeTasks true (raised s) := by
  have hadvance : advancePhase (countForward s) = endDuePulses (raisePhase (countForward s)) := if_pos h
  rw [forwardCount, hadvance, raised]

theorem forwardCount_boundary {s : State} (h : s.mu.len ≤ s.mu.phase + 1) : forwardCount s = takeTasks true (bounded s) := by
  have hadvance : advancePhase (countForward s) = pitchBoundary (countForward s) := if_neg (Nat.not_lt.mpr h)
  rw [forwardCount, hadvance, bounded]

theorem reverseCount_eq (s : State) : reverseCount s = takeTasks false (lowered s) := rfl

theorem raised_units (s : State) : (raised s).lc = s.lc ∧ (raised s).ll = s.ll ∧ (raised s).tu = s.tu ∧ (raised s).au = s.au ∧
    (raised s).gm = s.gm ∧ (raised s).bu = s.bu ∧ (raised s).countIndex = s.countIndex ∧
    (raised s).mu = { s.mu with phase := s.mu.phase + 1, windowCount := windowUp s.mu.windowCount } := by
  simp only [raised, senseCount_lc, senseCount_ll, senseCount_tu, senseCount_au, senseCount_gm, senseCount_bu,
    senseCount_countIndex, senseCount_mu, endDuePulses_lc, endDuePulses_ll, endDuePulses_tu, endDuePulses_au, endDuePulses_gm,
    endDuePulses_bu, endDuePulses_countIndex, endDuePulses_mu]
  exact ⟨rfl, rfl, rfl, rfl, rfl, rfl, rfl, rfl⟩

theorem raised_fu (s : State) : (raised s).fu.stations = s.fu.stations ∧ (raised s).fu.curves = s.fu.curves ∧
    (raised s).fu.outputs = s.fu.outputs ∧ (raised s).fu.latchedSpeed = s.fu.latchedSpeed ∧
    (raised s).fu.kickTaken = s.fu.kickTaken ∧ (raised s).fu.kickEnd = s.fu.kickEnd ∧
    (raised s).fu.bundleKick = (s.fu.bundleKick && decide (s.fu.kickEnd ≠ s.mu.phase + 1)) ∧
    (raised s).fu.trayKick = (s.fu.trayKick && decide (s.fu.kickEnd ≠ s.mu.phase + 1)) ∧
    ∀ i, (raised s).fireWork i = endDuePulse (s.mu.phase + 1) (s.fireWork i) := by
  have hfu : (raised s).fu = (endDuePulses (raisePhase (countForward s))).fu := senseCount_fu _
  refine ⟨?_, ?_, ?_, ?_, ?_, ?_, ?_, ?_, fun i => ?_⟩
  case refine_9 =>
    rw [State.fireWork, hfu]
    simp only [endDuePulses]
    rw [mapAll_get]
    rfl
  all_goals
    rw [hfu]
    simp only [endDuePulses]
    rfl

/-! ## The boundary, step by step -/

/-- The boundary with the Motion Unit's work and the displacement report done. -/
def begun (s : State) : State := reportDisplacement (motionBoundary s)

/-- The ended pitch closed out. -/
def closedOut (s : State) : State := closeOut s.lc.line s.mu.pitch (begun s)

/-- The fire points of the pitch that begins computed. -/
def opened (s : State) : State := newPitchFiring (closedOut s)

theorem pitchBoundary_eq (s : State) : pitchBoundary s =
    newPitchChecks (dispatchJob (newPitchGate (release s.lc.line (shiftTrack (opened s))))) := rfl

theorem begun_units (s : State) : (begun s).mu = (motionBoundary s).mu ∧ (begun s).fu = s.fu ∧ (begun s).lc.line = s.lc.line ∧
    (begun s).bu = s.bu ∧ (begun s).tu = s.tu ∧ (begun s).au = s.au ∧ (begun s).gm = s.gm ∧ (begun s).cu = s.cu := by
  unfold begun reportDisplacement
  split <;> exact ⟨rfl, rfl, rfl, rfl, rfl, rfl, rfl, rfl⟩

theorem closedOut_coasts (s : State) : (begun s).Coasts (closedOut s) := closeOut_coasts _ _ _

theorem opened_stops (s : State) : (closedOut s).Stops (opened s) := by
  generalize hc : closedOut s = c
  have ho : opened s = newPitchFiring c := by rw [opened, hc]
  have hlc : (newPitchFiring c).lc = c.lc := newPitchFiring_lc c
  have hf : (newPitchFiring c).firing = c.firing := by rw [State.firing, State.firing, hlc]
  rw [ho]
  refine ⟨fun h => hf ▸ h, ?_, fun h => by rw [hlc]; exact ⟨h, id⟩, by rw [hlc]⟩
  rw [newPitchFiring_mu, hf, if_neg fun h => Bool.noConfusion (h.1.symm.trans h.2)]

theorem bounded_coasts (s : State) : (opened (countForward s)).Coasts (bounded s) :=
  (((((shiftTrack_coasts _).trans (release_coasts _ _)).trans (newPitchGate_coasts _)).trans (dispatchJob_coasts _)).trans
    (newPitchChecks_coasts _)).trans (senseCount_coasts _)

theorem bounded_stops (s : State) : (begun (countForward s)).Stops (bounded s) :=
  ((closedOut_coasts _).toStops.trans (opened_stops _)).trans (bounded_coasts s).toStops

/-! ### The Firing Unit's boundary work (R20, R22, R23) -/

theorem newPitchFiring_fu (s : State) : (newPitchFiring s).fu.stations = s.fu.stations ∧
    (newPitchFiring s).fu.outputs = s.fu.outputs ∧
    (newPitchFiring s).fu.latchedSpeed = s.mu.speed ∧ (newPitchFiring s).fu.kickTaken = false ∧
    (newPitchFiring s).fu.bundleKick = false ∧ (newPitchFiring s).fu.trayKick = false ∧
    (∀ k : Fin 4, (newPitchFiring s).fu.curves[k] = s.fu.curves[k].applied) := by
  refine ⟨?_, ?_, ?_, ?_, ?_, ?_, fun k => ?_⟩
  case refine_7 =>
    simp only [newPitchFiring, latchPitch, endPulses]
    exact mapAll_get _ _ k
  all_goals simp only [newPitchFiring, latchPitch, endPulses]

theorem newPitchFiring_work (s : State) (i : StationNo) : ((newPitchFiring s).fireWork i).fired = false ∧
    ((newPitchFiring s).fireWork i).outcome = .none ∧ ((newPitchFiring s).fireWork i).pulse = false ∧
    ((s.station i).kind.fires = true →
      ((newPitchFiring s).fireWork i).e = (newPitchFiring s).firePointOf (s.station i)) := by
  have hwork : (newPitchFiring s).fireWork i =
      newPitchFire (latchPitch s) (s.station i) { s.fireWork i with pulse := false } := by
    have hlatch : (latchPitch s).fu.work[i] = { s.fireWork i with pulse := false } := fireWork_endPulses i s
    rw [State.fireWork]
    simp only [newPitchFiring]
    rw [mapAll_get, hlatch]
    exact congrArg (fun e => newPitchFire (latchPitch s) e { s.fireWork i with pulse := false })
      (station_of_tables (s := s) (t := latchPitch s) (by simp only [latchPitch, endPulses]) i)
  have hpoint : (latchPitch s).firePointOf (s.station i) = (newPitchFiring s).firePointOf (s.station i) := by
    simp only [State.firePointOf, State.advance, newPitchFiring]
  rw [hwork]
  refine ⟨rfl, rfl, rfl, fun hk => ?_⟩
  simp only [newPitchFire, hk, if_true]
  exact hpoint

/-- The tables of the pitch that begins: the curves with their pending shadows, and S latched. -/
theorem bounded_tables (s : State) : (bounded s).fu.stations = s.fu.stations ∧
    (bounded s).fu.latchedSpeed = s.mu.speed ∧ ∀ k : Fin 4, (bounded s).fu.curves[k] = s.fu.curves[k].applied := by
  obtain ⟨hst, hcu, -, hsp⟩ := (bounded_coasts s).tables
  obtain ⟨host, -, hosp, -, -, -, hocu⟩ := newPitchFiring_fu (closedOut (countForward s))
  obtain ⟨hcst, hccu, -, -⟩ := (closedOut_coasts (countForward s)).tables
  obtain ⟨hbmu, hbfu, -⟩ := begun_units (countForward s)
  have hspeed : (closedOut (countForward s)).mu.speed = s.mu.speed := by
    rw [(closedOut_coasts (countForward s)).mu]
    split <;> (rw [hbmu]; rfl)
  refine ⟨?_, (hsp.trans hosp).trans hspeed, fun k => ?_⟩
  · rw [hst, opened, host, hcst, hbfu]
    rfl
  · rw [hcu]
    exact (hocu k).trans (by rw [hccu, hbfu]; rfl)

theorem bounded_firePoint (s : State) (i : StationNo) (hk : (s.station i).kind.fires = true) :
    ((bounded s).fireWork i).e = (bounded s).firePointOf (s.station i) := by
  obtain ⟨hst, hcu, -, hsp⟩ := (bounded_coasts s).tables
  have hstation : (closedOut (countForward s)).station i = s.station i :=
    station_of_tables ((newPitchFiring_fu _).1.symm.trans (hst.symm.trans (bounded_tables s).1)) i
  have hwork := (newPitchFiring_work (closedOut (countForward s)) i).2.2.2 (by rw [hstation]; exact hk)
  rw [hstation] at hwork
  rw [(bounded_coasts s).fireWork i]
  refine hwork.trans ?_
  simp only [State.firePointOf, State.advance, hcu, hsp, opened]

end Sys2Proof.Machine
end

section
/-! PROOFS. The motion events: encoder edges and simulated counts, inside the pitch and at its boundary. -/

namespace Sys2Proof.Machine

theorem State.Stops.mu_sim {s t : State} (h : s.Stops t) : t.mu = { s.mu with sim := t.mu.sim } := by
  have hmu := h.mu
  by_cases hc : s.firing = true ∧ t.firing = false
  · rw [if_pos hc] at hmu; rw [hmu]
  · rw [if_neg hc] at hmu; rw [hmu]

/-! ## The commands that are counts -/

/-- The pins taken and the encoder's new state kept. -/
abbrev edged (p : Pins) (a b : Bool) (s : State) : State := setEncoder a b (setPins p s)

theorem encoderState_forward {p : Pins} {a b : Bool} {s : State} (hsrc : s.mu.profile.source = .encoder)
    (h : (s.mu.encA, s.mu.encB, a, b) ∈ forwardEdges) : encoderState a b (setPins p s) = forwardCount (edged p a b s) := by
  have hk := edgeKind_of_mem_forwardEdges _ _ _ _ h
  unfold encoderState
  simp only [edged, setPins, hsrc, hk]

theorem encoderState_reverse {p : Pins} {a b : Bool} {s : State} (hsrc : s.mu.profile.source = .encoder)
    (h : (s.mu.encA, s.mu.encB, a, b) ∈ reverseEdges) : encoderState a b (setPins p s) = reverseCount (edged p a b s) := by
  have hk := edgeKind_of_mem_reverseEdges _ _ _ _ h
  unfold encoderState
  simp only [edged, setPins, hsrc, hk]

theorem simulatedTick_generating {s : State} {rate issued : Nat} (h : s.mu.sim = .generating rate issued) :
    simulatedTick s = forwardCount { s with mu := { s.mu with
      sim := .generating rate (if issued + 1 < rate then issued + 1 else 0) } } := by
  unfold simulatedTick
  rw [h]
  rfl

theorem bounded_receive (s : State) : (bounded s).ll.receive = s.ll.receive := by
  rw [bounded, senseCount_ll, Acts.receive (pitchBoundary_acts (may := Anyhow) (countForward s))]
  rfl

theorem forwardEdge_inside {p : Pins} {a b : Bool} {s : State} (hs : s.Open) (hsrc : s.mu.profile.source = .encoder)
    (h : (s.mu.encA, s.mu.encB, a, b) ∈ forwardEdges) (hin : s.mu.phase + 1 < s.mu.len) :
    ∃ t, exec (.encoderEdge p a b) s = .next t ∧ CountEnds true (raised (edged p a b s)) t :=
  count_event (work := encoderState a b) hs
    ((encoderState_forward hsrc h).trans (forwardCount_inside (s := edged p a b s) hin)) (congrArg LinkController.receive (raised_units _).2.1)

theorem forwardEdge_boundary {p : Pins} {a b : Bool} {s : State} (hs : s.Open) (hsrc : s.mu.profile.source = .encoder)
    (h : (s.mu.encA, s.mu.encB, a, b) ∈ forwardEdges) (hend : s.mu.len ≤ s.mu.phase + 1) :
    ∃ t, exec (.encoderEdge p a b) s = .next t ∧ CountEnds true (bounded (edged p a b s)) t :=
  count_event (work := encoderState a b) hs
    ((encoderState_forward hsrc h).trans (forwardCount_boundary (s := edged p a b s) hend)) (bounded_receive _)

theorem reverseEdge {p : Pins} {a b : Bool} {s : State} (hs : s.Open) (hsrc : s.mu.profile.source = .encoder)
    (h : (s.mu.encA, s.mu.encB, a, b) ∈ reverseEdges) :
    ∃ t, exec (.encoderEdge p a b) s = .next t ∧ CountEnds false (lowered (edged p a b s)) t :=
  count_event (work := encoderState a b) hs ((encoderState_reverse hsrc h).trans (reverseCount_eq _)) rfl

/-- The Motion Unit after a boundary count: its own work, and the simulated source where the line stops. -/
theorem boundary_mu {s t : State} {forward : Bool} (h : CountEnds forward (bounded s) t) :
    t.mu = { (motionBoundary (countForward s)).mu with sim := t.mu.sim } := by
  have hstops := (bounded_stops s).trans h.toStops
  rw [hstops.mu_sim, (begun_units (countForward s)).1]

theorem bounded_countIndex (s : State) : (bounded s).countIndex = s.countIndex := by
  rw [bounded, senseCount_countIndex, pitchBoundary_countIndex]
  rfl

theorem nextPitch_eq (p : LineProfile) (acc : Nat) :
    nextPitch p acc = (if 256 ≤ acc + p.f then p.p + 1 else p.p, (acc + p.f) % 256) := by
  unfold nextPitch; split <;> rfl

/-! ## The phase (O17) -/

theorem bounded_timing (s : State) : (bounded s).mu.timing = (motionBoundary (countForward s)).mu.timing := by
  rw [bounded, senseCount_mu, pitchBoundary_timing]

/-- A motion event leaves phase, pitch index and length as its count leaves them, a held frame taken at its end or not. -/
theorem countEvent_timing {p : Pins} {work : State → State} {s n : State} {forward : Bool} (h : s.inReset = false)
    (hwork : work (setPins p s) = takeTasks forward n) :
    ∃ t, event p work s = .next t ∧ t.mu.phase = n.mu.phase ∧ t.mu.pitch = n.mu.pitch ∧ t.mu.len = n.mu.len := by
  obtain ⟨t, ht, htiming⟩ := event_timing p work s h
  rw [hwork, takeTasks_timing] at htiming
  exact ⟨t, ht, congrArg MotionTiming.phase htiming, congrArg MotionTiming.pitch htiming, congrArg MotionTiming.len htiming⟩

/-- Settles O17: each count by the state in which its tasks are taken. -/
theorem encoderCountsMoveThePhase : Obligations.EncoderCountsMoveThePhase := by
  refine ⟨fun p a b s hs hsrc hedge hin => ?_, fun p a b s hs hsrc hedge hend => ?_, fun p a b s hs hsrc hedge => ?_,
    fun p a b s hres hsrc => ⟨fun hedge hin => ?_, fun hedge hend => ?_, fun hedge => ?_⟩⟩
  · obtain ⟨t, ht, h⟩ := forwardEdge_inside (p := p) hs hsrc hedge hin
    obtain ⟨-, -, -, hau, -, -, hc, hmu⟩ := raised_units (edged p a b s)
    obtain ⟨hst, hcu, hout, hsp, -⟩ := raised_fu (edged p a b s)
    have hadm : t.admitted = s.admitted := (admitted_of_au h.au).trans ((takeTasks_admitted _ _).trans (admitted_of_au hau))
    refine ⟨t, ht, by rw [h.count, hc]; rfl, h.stations.trans hst, h.curves.trans hcu, h.outputs.trans hout, h.speed.trans hsp,
      show t.admitted.staging = s.admitted.staging by rw [hadm], show t.admitted.plans = s.admitted.plans by rw [hadm], ?_⟩
    rw [h.mu_sim, hmu]
    rfl
  · obtain ⟨t, ht, h⟩ := forwardEdge_boundary (p := p) hs hsrc hedge hend
    refine ⟨t, ht, by rw [h.count, bounded_countIndex]; rfl, ?_⟩
    rw [boundary_mu h]
    simp only [motionBoundary, nextPitch_eq]
    rfl
  · obtain ⟨t, ht, h⟩ := reverseEdge (p := p) hs hsrc hedge
    refine ⟨t, ht, h.count, ?_⟩
    rw [h.mu_sim]
    rfl
  · obtain ⟨t, ht, hphase, hpitch, hlen⟩ := countEvent_timing (p := p) (work := encoderState a b) hres
      ((encoderState_forward hsrc hedge).trans (forwardCount_inside (s := edged p a b s) hin))
    rw [(raised_units (edged p a b s)).2.2.2.2.2.2.2] at hphase hpitch hlen
    exact ⟨t, ht, hphase, hpitch, hlen⟩
  · obtain ⟨t, ht, hphase, hpitch, hlen⟩ := countEvent_timing (p := p) (work := encoderState a b) hres
      ((encoderState_forward hsrc hedge).trans (forwardCount_boundary (s := edged p a b s) hend))
    have htiming := bounded_timing (edged p a b s)
    refine ⟨t, ht, hphase.trans (congrArg MotionTiming.phase htiming), hpitch.trans (congrArg MotionTiming.pitch htiming),
      (hlen.trans (congrArg MotionTiming.len htiming)).trans ?_⟩
    exact congrArg Prod.fst (nextPitch_eq s.mu.profile s.mu.acc)
  · obtain ⟨t, ht, hphase, hpitch, hlen⟩ := countEvent_timing (p := p) (work := encoderState a b) hres
      ((encoderState_reverse hsrc hedge).trans (reverseCount_eq _))
    exact ⟨t, ht, hphase, hpitch, hlen⟩

/-! ## The fire points of the pitch that begins (O18) -/

/-- Settles O18: the Firing Unit's boundary work, which the rest of the event leaves. -/
theorem boundaryComputesTheFirePoints : Obligations.BoundaryComputesTheFirePoints := by
  intro p a b s hs hsrc hedge hend
  obtain ⟨t, ht, h⟩ := forwardEdge_boundary (p := p) hs hsrc hedge hend
  obtain ⟨hst, hsp, hcu⟩ := bounded_tables (edged p a b s)
  have hslot (k : Fin 4) : t.fu.curves[k] = s.fu.curves[k].applied := by rw [h.curves]; exact hcu k
  have hlatched : t.fu.latchedSpeed = s.mu.speed := h.speed.trans hsp
  have hactive (k : Fin 4) : s.fu.curves[k].applied.active =
      if s.fu.curves[k].pending then s.fu.curves[k].shadow else s.fu.curves[k].active := by
    unfold CurveSlot.applied; split <;> rfl
  have he (i : StationNo) (hk : (s.station i).kind.fires = true) : (t.fireWork i).e = t.firePointOf (s.station i) := by
    refine (h.e i).trans ((bounded_firePoint (edged p a b s) i hk).trans ?_)
    simp only [State.firePointOf, State.advance, h.curves, h.speed]
    rfl
  refine ⟨t, ht, h.stations.trans hst, hlatched, fun k => ⟨?_, ?_⟩, fun i hk hcurve => ?_,
    fun i k hk hcurve => ⟨rawAdvance t.fu.curves[k].active s.mu.speed, clampedAdvance t.fu.curves[k].active s.mu.speed,
      fun c hc => ⟨fun h1 => ?_, fun h1 h2 => ?_, fun h1 h2 h3 => ?_, fun h1 h2 h3 => ?_, ?_⟩, ?_⟩⟩
  · rw [hslot]
    unfold CurveSlot.applied
    split
    · rfl
    · exact Bool.not_eq_true _ ▸ ‹_›
  · rw [hslot, hactive]
  · rw [he i hk, State.firePointOf, State.advance, hcurve]
    exact congrArg ((s.station i).phi - ·) (Nat.min_zero _)
  · subst hc; exact if_pos h1
  · subst hc; exact (if_neg (Nat.not_lt.mpr h1)).trans (if_pos h2)
  · subst hc; exact (if_neg (Nat.not_lt.mpr h1)).trans ((if_neg (Nat.not_lt.mpr h2)).trans (if_pos h3))
  · subst hc
    exact (if_neg (Nat.not_lt.mpr h1)).trans ((if_neg (Nat.not_lt.mpr h2)).trans (if_neg (Nat.not_lt.mpr h3)))
  · subst hc; rfl
  · rw [he i hk, State.firePointOf, State.advance, hcurve, hlatched]

/-! ## The simulated source (O20) -/

/-- The state a simulated count starts from. -/
abbrev ticked (p : Pins) (sim : SimSource) (s : State) : State := { setPins p s with mu := { s.mu with sim := sim } }

/-- Settles O20: the count from the source that has issued it. -/
theorem simulatedCountCounts : Obligations.SimulatedCountCounts := by
  intro p s rate issued hs hsim
  generalize hsrc : SimSource.generating rate (if issued + 1 < rate then issued + 1 else 0) = sim
  have hwork : simulatedTick (setPins p s) = forwardCount (ticked p sim s) := by
    rw [← hsrc]; exact simulatedTick_generating hsim
  have key (n : State) (hn : n.ll.receive = s.ll.receive) (htask : forwardCount (ticked p sim s) = takeTasks true n)
      (base : State) (hbase : base.Stops n) (hline : base.lc.line = s.lc.line) :
      ∃ t, exec (.simulatedCount p) s = .next t ∧ t.countIndex = n.countIndex + 1 ∧
        t.mu = { base.mu with sim := if s.firing = true ∧ t.firing = false then .stopped else base.mu.sim } := by
    obtain ⟨t, ht, h⟩ := count_event (work := simulatedTick) hs (hwork.trans htask) hn
    have hmu := (hbase.trans h.toStops).mu
    have hfiring : base.firing = s.firing := by rw [State.firing, hline, State.firing]
    rw [hfiring] at hmu
    refine ⟨t, ht, h.count, ?_⟩
    rw [hmu]
    split <;> rfl
  by_cases hin : s.mu.phase + 1 < s.mu.len
  · obtain ⟨hlc, hll, -, -, -, -, hc, hmu⟩ := raised_units (ticked p sim s)
    obtain ⟨t, ht, hcount, htmu⟩ := key (raised (ticked p sim s)) (by rw [hll]; rfl)
      (forwardCount_inside (s := ticked p sim s) hin) _ (.refl _) (by rw [hlc]; rfl)
    rw [hmu] at htmu
    refine ⟨t, ht, by rw [hcount, hc]; rfl, ?_, (congrArg MotionUnit.windowCount htmu :), (congrArg MotionUnit.profile htmu :),
      (congrArg MotionUnit.speed htmu :), (congrArg MotionUnit.motionErrors htmu :), fun _ => by rw [htmu]; exact ⟨rfl, rfl, rfl, rfl⟩, fun h => absurd hin (Nat.not_lt.mpr h)⟩
    exact congrArg MotionUnit.sim htmu
  · have hend := Nat.not_lt.mp hin
    obtain ⟨hmu, -, hlc, -⟩ := begun_units (countForward (ticked p sim s))
    obtain ⟨t, ht, hcount, htmu⟩ := key (bounded (ticked p sim s)) (bounded_receive _)
      (forwardCount_boundary (s := ticked p sim s) hend) _ (bounded_stops _) (by rw [hlc]; rfl)
    rw [hmu] at htmu
    refine ⟨t, ht, by rw [hcount, bounded_countIndex]; rfl, ?_, (congrArg MotionUnit.windowCount htmu :),
      (congrArg MotionUnit.profile htmu :), (congrArg MotionUnit.speed htmu :), (congrArg MotionUnit.motionErrors htmu :),
      fun h => absurd h hin, fun _ => by rw [htmu]; exact ⟨rfl, rfl⟩⟩
    exact congrArg MotionUnit.sim htmu

end Sys2Proof.Machine
end

section
/-! PROOFS. The fire points of a count: which are taken, what an action station does at its own, and when pulses end. -/

namespace Sys2Proof.Machine

/-! ## One fire point (R25 to R31, R70) -/

theorem takeFirePoint_skipped {i : StationNo} {s : State} (hf : s.firing = false) :
    ((takeFirePoint i s).fireWork i).outcome = .skipped ∧ ((takeFirePoint i s).fireWork i).pulse = (s.fireWork i).pulse := by
  obtain ⟨u, w, f, o, hu, hfires, hw, -, hskip, htake⟩ := takeFirePoint_shape i s
  obtain ⟨rfl, hpulse⟩ := hskip hf
  obtain ⟨-, hout, -⟩ := fired_work hu hfires hw
  have huf : u.firing = false := hu.stopped hf
  have hwork : (takeFirePoint i s).fireWork i = w.fireWork i := by
    rcases htake with htake | ⟨-, htake⟩ <;> rw [htake]
    exact takeKick_fireWork i i w
  have hflag : (flagged i s).fireWork i = { s.fireWork i with fired := true } := fireWork_setFireWork i _ s
  have hsf : (setFireWork i f u).firing = false := huf
  rw [hwork]
  refine ⟨hout, ?_⟩
  rw [hw.fireWork i, fireWork_setFireWork, hsf]
  simp only [hpulse, hu.fireWork i, hflag, Bool.not_false, Bool.or_true, Bool.and_true]
  rw [show (flagged i s).firing = false from hf]
  simp

/-- An action station with no work of its own at a fire point in a firing state. -/
theorem takeFirePoint_action {i : StationNo} {s : State} (hf : s.firing = true) {fires : Bool}
    (hk : (s.station i).kind ≠ .gate ∧ (s.station i).kind ≠ .stack ∧ (s.station i).kind ≠ .print)
    (hfires : firesOn (s.station i) (s.contentAt (s.station i).offset) = fires) :
    takeFirePoint i s = setFireWork i (fun w =>
      if fires then { w with fired := true, outcome := .fired, pulse := true, pulseEnd := w.e + (s.station i).pulseLength }
      else { w with fired := true, outcome := .declined }) s := by
  have hfire : takeFirePoint i s = if fires then fireWithPulse i (flagged i s) else setOutcome i .declined (flagged i s) := by
    have hstation : (flagged i s).station i = s.station i := rfl
    subst hfires
    refine (if_pos hf).trans ?_
    change fireInFiring i (flagged i s) = _
    unfold fireInFiring
    obtain ⟨h1, h2, h3⟩ := hk
    split
    · rename_i h; exact absurd h h1
    · rename_i h; exact absurd h h2
    · rename_i h; exact absurd h h3
    · rfl
  rw [hfire]
  cases fires with
  | true =>
    rw [if_pos rfl, fireWithPulse, startPulse, setOutcome, flagged, setFireWork_setFireWork, setFireWork_setFireWork]
    rfl
  | false =>
    rw [if_neg Bool.false_ne_true, setOutcome, flagged, setFireWork_setFireWork]
    rfl

theorem firesOn_insert {e : StationEntry} {c : Content} (h : e.kind = .insert) :
    firesOn e c = true ↔ ∃ d, c = .copy d ∧ d.values.callsFor e.feeder = true := by
  unfold firesOn
  rw [h]
  cases c with
  | copy d => simp
  | _ => simp

/-- Settles O23, the fire point of an action station. -/
theorem actionFires (i : StationNo) (s : State) : ((takeFirePoint i s).fireWork i).fired = true ∧
    (s.firing = false → ((takeFirePoint i s).fireWork i).outcome = .skipped ∧
      ((takeFirePoint i s).fireWork i).pulse = (s.fireWork i).pulse) ∧
    (s.firing = true → ∀ fires : Bool,
      (((s.station i).kind = .feed ∨ (s.station i).kind = .carrier) ∧
          fires = (s.contentAt (s.station i).offset).isCopy ∨
        (s.station i).kind = .seal ∧ fires = true ∨
        (s.station i).kind = .insert ∧ (fires = true ↔ ∃ c, s.contentAt (s.station i).offset = .copy c ∧
          c.values.callsFor (s.station i).feeder = true)) →
      takeFirePoint i s = setFireWork i (fun w =>
        if fires then { w with fired := true, outcome := .fired, pulse := true, pulseEnd := w.e + (s.station i).pulseLength }
        else { w with fired := true, outcome := .declined }) s) := by
  refine ⟨takeFirePoint_fired i s, takeFirePoint_skipped, fun hf fires h => ?_⟩
  rcases h with ⟨hk | hk, rfl⟩ | ⟨hk, rfl⟩ | ⟨hk, hiff⟩
  · exact takeFirePoint_action hf (by rw [hk]; decide) (by simp only [firesOn, hk])
  · exact takeFirePoint_action hf (by rw [hk]; decide) (by simp only [firesOn, hk])
  · exact takeFirePoint_action hf (by rw [hk]; decide) (by simp only [firesOn, hk])
  · exact takeFirePoint_action hf (by rw [hk]; decide) (Bool.eq_iff_iff.mpr ((firesOn_insert hk).trans hiff.symm))

theorem takeFirePoint_missed {i : StationNo} {s : State} (hf : s.firing = false) (hk : (s.station i).kind ≠ .print) :
    takeFirePoint i s = actionMissed i (setFireWork i (fun w => { w with fired := true, outcome := .skipped }) s) := by
  refine (if_neg fun h => Bool.noConfusion (hf.symm.trans h)).trans ?_
  rw [setOutcome, setFireWork_setFireWork]
  exact stationMissed_action (s := setFireWork i _ s) hk

theorem serves_kind {e : StationEntry} {c : Context} (h : e.Serves c) : e.kind ≠ .print ∧ e.kind.fires = true := by
  rcases h with h | h | h | ⟨h, -⟩ <;> rw [h] <;> exact ⟨StationKind.noConfusion, rfl⟩

theorem actionCloseOut_served {i : StationNo} {s : State} {c : Context} (hc : s.contentAt (s.station i).offset = .copy c)
    (h : (s.station i).Serves c) (hf : (s.fireWork i).fired = false) :
    actionCloseOut i s = suspectAt (s.station i).offset s := by
  rw [actionCloseOut, if_pos (by simp [State.notReached, (serves_kind h).2, hf]), actionMissed_served hc h]

theorem actionCloseOut_fired {i : StationNo} {s : State} (h : (s.fireWork i).fired = true) : actionCloseOut i s = s :=
  if_neg (by simp [State.notReached, h])

/-- Settles O23, the context that an action station should have served. -/
theorem actionMarks (i : StationNo) (s : State) :
    (∀ c, s.contentAt (s.station i).offset = .copy c →
      ((s.station i).kind = .feed ∨ (s.station i).kind = .carrier ∨ (s.station i).kind = .seal ∨
        (s.station i).kind = .insert ∧ c.values.callsFor (s.station i).feeder = true) →
      (s.firing = false → (takeFirePoint i s).contentAt (s.station i).offset = .copy { c with marks := c.marks.add .suspect }) ∧
      ((s.fireWork i).fired = false →
        (actionCloseOut i s).contentAt (s.station i).offset = .copy { c with marks := c.marks.add .suspect })) ∧
    ((s.station i).kind ≠ .print →
      (s.contentAt (s.station i).offset).isCopy = false ∨
        (∃ c, s.contentAt (s.station i).offset = .copy c ∧ (s.station i).kind = .insert ∧
          c.values.callsFor (s.station i).feeder = false) →
      (s.firing = false → (takeFirePoint i s).tu = s.tu) ∧ actionCloseOut i s = s) ∧
    ((s.fireWork i).fired = true → actionCloseOut i s = s) ∧
    (∀ forward, runTask forward s (.firePoint i) =
      if (s.station i).kind.fires = true ∧ (s.fireWork i).fired = false ∧ (s.fireWork i).e = s.mu.phase then
        takeFirePoint i s else s) := by
  refine ⟨fun c hc h => ⟨fun hf => ?_, fun hf => ?_⟩, fun hk h => ⟨fun hf => ?_, ?_⟩, actionCloseOut_fired, fun forward => ?_⟩
  · rw [takeFirePoint_missed hf (serves_kind h).1]
    have hmiss := actionMissed_served (i := i) (c := c)
      (s := setFireWork i (fun w => { w with fired := true, outcome := .skipped }) s) hc h
    rw [hmiss]
    exact contentAt_markAt (s := setFireWork i (fun w => { w with fired := true, outcome := .skipped }) s) .suspect hc
  · rw [actionCloseOut_served hc h hf]
    exact contentAt_markAt .suspect hc
  · rw [takeFirePoint_missed hf hk,
      actionMissed_rests (s := setFireWork i (fun w => { w with fired := true, outcome := .skipped }) s) h]
    rfl
  · unfold actionCloseOut
    split
    · exact actionMissed_rests h
    · rfl
  · exact if_congr (s.fireDue_iff i) rfl rfl

/-! ## The counts of a pitch, by command -/

/-- The state in which the tasks of a count inside the pitch are taken, at a phase. -/
structure Inside (phase : Nat) (s n : State) : Prop where
  atPhase : n.mu.phase = phase
  pitch : n.mu.pitch = s.mu.pitch
  lc : n.lc = s.lc
  bu : n.bu = s.bu
  tu : n.tu = s.tu
  stations : n.fu.stations = s.fu.stations
  work : ∀ i, n.fireWork i = if s.mu.phase < phase then endDuePulse phase (s.fireWork i) else s.fireWork i
  taken : n.fu.kickTaken = s.fu.kickTaken
  finish : n.fu.kickEnd = s.fu.kickEnd
  bundle : n.fu.bundleKick = (s.fu.bundleKick && decide (phase ≤ s.mu.phase ∨ s.fu.kickEnd ≠ phase))
  tray : n.fu.trayKick = (s.fu.trayKick && decide (phase ≤ s.mu.phase ∨ s.fu.kickEnd ≠ phase))
  closed : ∀ i, (n.checkWork i).windowClosed = (s.checkWork i).windowClosed

theorem senseCount_closed (s : State) (i : StationNo) :
    ((senseCount s).checkWork i).windowClosed = (s.checkWork i).windowClosed := by
  have hwork : (senseCount s).checkWork i =
      jamCount (s.station i) s.pins (filterCount (s.station i) s.pins s.mu.phase (s.checkWork i)) := by
    rw [State.checkWork, senseCount, mapAll_get]
    rfl
  have hjam (e : StationEntry) (w : CheckWork) : (jamCount e s.pins w).windowClosed = w.windowClosed := by
    unfold jamCount; (repeat' split) <;> rfl
  have hfilter (e : StationEntry) (n : Nat) (w : CheckWork) : (filterCount e s.pins n w).windowClosed = w.windowClosed := by
    unfold filterCount; (repeat' split) <;> rfl
  rw [hwork, hjam, hfilter]

theorem raised_inside {s v : State} (hfu : v.fu = s.fu) (hlc : v.lc = s.lc) (hcu : v.cu = s.cu) (hbu : v.bu = s.bu)
    (htu : v.tu = s.tu) (hphase : v.mu.phase = s.mu.phase) (hpitch : v.mu.pitch = s.mu.pitch) :
    Inside (s.mu.phase + 1) s (raised v) := by
  obtain ⟨hrlc, -, hrtu, -, -, hrbu, -, hrmu⟩ := raised_units v
  obtain ⟨hst, -, -, -, htaken, hend, hbundle, htray, hwork⟩ := raised_fu v
  have hup : s.mu.phase < s.mu.phase + 1 := Nat.lt_succ_self _
  have hdec : decide (s.mu.phase + 1 ≤ s.mu.phase ∨ s.fu.kickEnd ≠ s.mu.phase + 1) = decide (s.fu.kickEnd ≠ s.mu.phase + 1) :=
    decide_eq_decide.mpr ⟨fun h => h.resolve_left (Nat.not_le.mpr hup), .inr⟩
  rw [hphase] at hrmu hbundle htray hwork
  refine ⟨by rw [hrmu], by rw [hrmu, ← hpitch], hrlc.trans hlc, hrbu.trans hbu, hrtu.trans htu, hst.trans (by rw [hfu]),
    fun i => ?_, htaken.trans (by rw [hfu]), hend.trans (by rw [hfu]), by rw [hbundle, hfu, hdec], by rw [htray, hfu, hdec],
    fun i => ?_⟩
  · rw [if_pos hup, hwork, State.fireWork, hfu]; rfl
  · rw [raised, senseCount_closed, State.checkWork, endDuePulses_cu]
    exact congrArg (fun c : CheckUnit => c.work[i].windowClosed) hcu

theorem lowered_inside {s v : State} (hfu : v.fu = s.fu) (hlc : v.lc = s.lc) (hcu : v.cu = s.cu) (hbu : v.bu = s.bu)
    (htu : v.tu = s.tu) (hphase : v.mu.phase = s.mu.phase) (hpitch : v.mu.pitch = s.mu.pitch) :
    Inside (s.mu.phase - 1) s (lowered v) := by
  have hdown : ¬ s.mu.phase < s.mu.phase - 1 := Nat.not_lt.mpr (Nat.sub_le _ _)
  have hdec : decide (s.mu.phase - 1 ≤ s.mu.phase ∨ s.fu.kickEnd ≠ s.mu.phase - 1) = true :=
    decide_eq_true (.inl (Nat.sub_le _ _))
  have hlfu : (lowered v).fu = s.fu := hfu
  refine ⟨congrArg (· - 1) hphase, hpitch, hlc, hbu, htu, by rw [hlfu], fun i => by rw [if_neg hdown, State.fireWork, hlfu]; rfl,
    by rw [hlfu], by rw [hlfu], by rw [hlfu, hdec, Bool.and_true], by rw [hlfu, hdec, Bool.and_true], fun i => ?_⟩
  exact congrArg (fun c : CheckUnit => c.work[i].windowClosed) hcu

/-- The counts of a pitch: what begins, as a command, a count forward. -/
def ForwardCommand (p : Pins) (cmd : Instr) (s : State) : Prop :=
  (∃ a b, cmd = .encoderEdge p a b ∧ s.mu.profile.source = .encoder ∧ (s.mu.encA, s.mu.encB, a, b) ∈ forwardEdges) ∨
  cmd = .simulatedCount p ∧ s.mu.sim ≠ .stopped

/-- A command that is a reverse count. -/
def ReverseCommand (p : Pins) (cmd : Instr) (s : State) : Prop :=
  ∃ a b, cmd = .encoderEdge p a b ∧ s.mu.profile.source = .encoder ∧ (s.mu.encA, s.mu.encB, a, b) ∈ reverseEdges

/-- A forward count, by whichever command, starts from the state but for the pins, the encoder's state and the source. -/
theorem forward_command {p : Pins} {cmd : Instr} {s : State} (h : ForwardCommand p cmd s) :
    ∃ work m, (∀ u, exec cmd u = event p work u) ∧ work (setPins p s) = forwardCount { setPins p s with mu := m } ∧
      m.phase = s.mu.phase ∧ m.pitch = s.mu.pitch ∧ m.len = s.mu.len := by
  rcases h with ⟨a, b, rfl, hsrc, hedge⟩ | ⟨rfl, hsim⟩
  · exact ⟨encoderState a b, _, fun _ => rfl, encoderState_forward hsrc hedge, rfl, rfl, rfl⟩
  · cases hgen : s.mu.sim with
    | stopped => exact absurd hgen hsim
    | generating rate issued =>
      exact ⟨simulatedTick, _, fun _ => rfl, simulatedTick_generating (s := setPins p s) hgen, rfl, rfl, rfl⟩

theorem inside_command {p : Pins} {cmd : Instr} {s : State} {phase : Nat} (hs : s.Open)
    (h : ForwardCommand p cmd s ∧ phase = s.mu.phase + 1 ∧ s.mu.phase + 1 < s.mu.len ∨
      ReverseCommand p cmd s ∧ phase = s.mu.phase - 1) :
    ∃ forward n t, exec cmd s = .next t ∧ CountEnds forward n t ∧ Inside phase s n := by
  rcases h with ⟨hcmd, rfl, hin⟩ | ⟨⟨a, b, rfl, hsrc, hedge⟩, rfl⟩
  · obtain ⟨work, m, hexec, hwork, hphase, hpitch, hlen⟩ := forward_command hcmd
    have hin' : m.phase + 1 < m.len := by rw [hphase, hlen]; exact hin
    obtain ⟨t, ht, hends⟩ := count_event hs
      (hwork.trans (forwardCount_inside (s := { setPins p s with mu := m }) hin')) (congrArg LinkController.receive (raised_units _).2.1)
    exact ⟨true, _, t, (hexec s).trans ht, hends, raised_inside rfl rfl rfl rfl rfl hphase hpitch⟩
  · obtain ⟨t, ht, hends⟩ := reverseEdge (p := p) hs hsrc hedge
    exact ⟨false, _, t, ht, hends, lowered_inside rfl rfl rfl rfl rfl rfl rfl⟩

theorem boundary_command {p : Pins} {cmd : Instr} {s : State} (hs : s.Open) (h : ForwardCommand p cmd s)
    (hend : s.mu.len ≤ s.mu.phase + 1) : ∃ m t, exec cmd s = .next t ∧
      CountEnds true (bounded { setPins p s with mu := m }) t ∧ m.phase = s.mu.phase ∧ m.pitch = s.mu.pitch ∧
      m.len = s.mu.len := by
  obtain ⟨work, m, hexec, hwork, hphase, hpitch, hlen⟩ := forward_command h
  have hend' : m.len ≤ m.phase + 1 := by rw [hphase, hlen]; exact hend
  obtain ⟨t, ht, hends⟩ := count_event hs
    (hwork.trans (forwardCount_boundary (s := { setPins p s with mu := m }) hend')) (bounded_receive _)
  exact ⟨m, t, (hexec s).trans ht, hends, hphase, hpitch, hlen⟩

/-! ## Flags and pulses at a count (R25, R31) -/

theorem CountEnds.fired_iff {forward : Bool} {n t : State} (h : CountEnds forward n t) (i : StationNo) :
    (t.fireWork i).fired = true ↔
      (n.fireWork i).fired = true ∨ (n.station i).kind.fires = true ∧ (n.fireWork i).e = n.mu.phase := by
  rw [h.ends.fireWork i]
  exact takeTasks_fired_iff forward n i

theorem endDuePulse_keeps (phase : Nat) (w : FireWork) : (endDuePulse phase w).e = w.e ∧ (endDuePulse phase w).fired = w.fired ∧
    (endDuePulse phase w).outcome = w.outcome ∧ (endDuePulse phase w).pulseEnd = w.pulseEnd := by
  unfold endDuePulse; split <;> exact ⟨rfl, rfl, rfl, rfl⟩

theorem Inside.keeps {phase : Nat} {s n : State} (h : Inside phase s n) (i : StationNo) :
    (n.fireWork i).e = (s.fireWork i).e ∧ (n.fireWork i).fired = (s.fireWork i).fired ∧
    (n.fireWork i).outcome = (s.fireWork i).outcome ∧ (n.fireWork i).pulseEnd = (s.fireWork i).pulseEnd := by
  rw [h.work i]
  split
  · exact endDuePulse_keeps _ _
  · exact ⟨rfl, rfl, rfl, rfl⟩

theorem Inside.firing {phase : Nat} {s n : State} (h : Inside phase s n) : n.firing = s.firing := by
  rw [State.firing, State.firing, h.lc]

theorem Inside.pulse_ends {phase : Nat} {s n : State} (h : Inside phase s n) {i : StationNo} (hup : s.mu.phase < phase)
    (hend : (s.fireWork i).pulseEnd = phase) : (n.fireWork i).pulse = false := by
  rw [h.work i, if_pos hup, endDuePulse, if_pos hend]

theorem Inside.pulse_stays {phase : Nat} {s n : State} (h : Inside phase s n) {i : StationNo}
    (hgo : phase ≤ s.mu.phase ∨ (s.fireWork i).pulseEnd ≠ phase) : (n.fireWork i).pulse = (s.fireWork i).pulse := by
  rw [h.work i]
  split
  · rename_i hup
    rw [endDuePulse, if_neg (hgo.resolve_left (Nat.not_le.mpr hup))]
  · rfl

/-- Settles O23, a count inside the pitch. -/
theorem count_inside (p : Pins) (s : State) (cmd : Instr) (i : StationNo) (phase : Nat) (hs : s.Open)
    (hcmd : ForwardCommand p cmd s ∧ phase = s.mu.phase + 1 ∧ s.mu.phase + 1 < s.mu.len ∨
      ReverseCommand p cmd s ∧ phase = s.mu.phase - 1) :
    ∃ t, exec cmd s = .next t ∧ t.mu.phase = phase ∧ (t.fireWork i).e = (s.fireWork i).e ∧
      ((t.fireWork i).fired = true ↔ (s.fireWork i).fired = true ∨ (s.station i).kind.fires = true ∧ (s.fireWork i).e = phase) ∧
      ((t.fireWork i).fired = (s.fireWork i).fired → (t.fireWork i).outcome = (s.fireWork i).outcome) ∧
      ((s.fireWork i).fired = false → (t.fireWork i).fired = true →
        (s.firing = false → (t.fireWork i).outcome = .skipped) ∧ (s.firing = true → (t.fireWork i).outcome ≠ .none)) ∧
      ((t.fireWork i).fired = (s.fireWork i).fired →
        (s.mu.phase < phase → (s.fireWork i).pulseEnd = phase → (t.fireWork i).pulse = false) ∧
        (t.firing = true → phase ≤ s.mu.phase ∨ (s.fireWork i).pulseEnd ≠ phase →
          (t.fireWork i).pulse = (s.fireWork i).pulse ∧ (t.fireWork i).pulseEnd = (s.fireWork i).pulseEnd)) ∧
      ((∀ j, (s.station j).kind = .stack → (t.fireWork j).fired = (s.fireWork j).fired) →
        t.fu.kickTaken = s.fu.kickTaken ∧
        (s.mu.phase < phase → s.fu.kickEnd = phase → t.fu.bundleKick = false ∧ t.fu.trayKick = false) ∧
        (t.firing = true → phase ≤ s.mu.phase ∨ s.fu.kickEnd ≠ phase →
          t.fu.bundleKick = s.fu.bundleKick ∧ t.fu.trayKick = s.fu.trayKick ∧ t.fu.kickEnd = s.fu.kickEnd)) := by
  obtain ⟨forward, n, t, ht, h, hin⟩ := inside_command hs hcmd
  obtain ⟨he, hfired, hout, hpend⟩ := hin.keeps i
  have hstation (j : StationNo) : n.station j = s.station j := station_of_tables hin.stations j
  refine ⟨t, ht, h.phase.trans hin.atPhase, (h.e i).trans he, ?_, fun hsame => ?_, fun hs hf => ?_, fun hsame => ?_, fun hst => ?_⟩
  · rw [h.fired_iff i, hfired, hstation, he, hin.atPhase]
  · rw [h.rests i (hsame.trans hfired.symm)]; exact hout
  · obtain ⟨-, hne, hskip⟩ := h.fires i (hfired.trans hs) hf
    exact ⟨fun hsf => hskip (hin.firing.trans hsf), fun _ => hne⟩
  · rw [h.rests i (hsame.trans hfired.symm)]
    refine ⟨fun hup hend => ?_, fun htf hgo => ⟨?_, hpend⟩⟩
    · simp only [hin.pulse_ends hup hend, Bool.false_and]
    · simp only [hin.pulse_stays hgo, htf, Bool.true_or, Bool.and_true]
  · have hkicks := h.kicksRest fun j hj => (hst j (hstation j ▸ hj)).trans (hin.keeps j).2.1.symm
    refine ⟨hkicks.taken.trans hin.taken, fun hup hend => ?_, fun htf hgo => ?_⟩
    · have hno : decide (phase ≤ s.mu.phase ∨ s.fu.kickEnd ≠ phase) = false :=
        decide_eq_false fun hc => hc.elim (fun hle => absurd hup (Nat.not_lt.mpr hle)) fun hne => hne hend
      rw [hkicks.bundle, hkicks.tray, hin.bundle, hin.tray, hno]
      simp
    · rw [hkicks.bundle, hkicks.tray, hkicks.finish, hin.bundle, hin.tray, hin.finish, decide_eq_true hgo, htf]
      simp

/-! ## Flags and pulses at the boundary (R22) -/

theorem bounded_phase (s : State) : (bounded s).mu.phase = 0 := congrArg MotionTiming.phase (bounded_timing s)

/-- The stations of the pitch that begins, before its first tasks. -/
theorem bounded_work (s : State) (i : StationNo) : ((bounded s).fireWork i).fired = false ∧
    ((bounded s).fireWork i).outcome = .none ∧ ((bounded s).fireWork i).pulse = false := by
  obtain ⟨hfired, hout, hpulse, -⟩ := newPitchFiring_work (closedOut (countForward s)) i
  rw [(bounded_coasts s).fireWork i]
  exact ⟨hfired, hout, by simp only [opened, hpulse, Bool.false_and]⟩

theorem bounded_kicks (s : State) : (bounded s).fu.bundleKick = false ∧ (bounded s).fu.trayKick = false ∧
    (bounded s).fu.kickTaken = false := by
  obtain ⟨-, -, -, htaken, hbundle, htray, -⟩ := newPitchFiring_fu (closedOut (countForward s))
  have h := (bounded_coasts s).kicksRest
  exact ⟨by rw [h.bundle, opened, hbundle, Bool.false_and], by rw [h.tray, opened, htray, Bool.false_and],
    by rw [h.taken, opened, htaken]⟩

/-- Settles O23, a count at the boundary. -/
theorem count_boundary (p : Pins) (s : State) (cmd : Instr) (hs : s.Open) (hend : s.mu.len ≤ s.mu.phase + 1)
    (hcmd : ForwardCommand p cmd s) :
    ∃ t, exec cmd s = .next t ∧
      (∀ i, ((t.fireWork i).fired = true ↔ (s.station i).kind.fires = true ∧ (t.fireWork i).e = 0) ∧
        ((t.fireWork i).fired = false → (t.fireWork i).outcome = .none ∧ (t.fireWork i).pulse = false)) ∧
      ((∀ j, (s.station j).kind = .stack → (t.fireWork j).fired = false) →
        t.fu.bundleKick = false ∧ t.fu.trayKick = false ∧ t.fu.kickTaken = false) := by
  obtain ⟨m, t, ht, h, -⟩ := boundary_command hs hcmd hend
  have hstation (j : StationNo) : (bounded { setPins p s with mu := m }).station j = s.station j :=
    station_of_tables (bounded_tables _).1 j
  refine ⟨t, ht, fun i => ⟨?_, fun hf => ?_⟩, fun hst => ?_⟩
  · obtain ⟨hfired, -⟩ := bounded_work { setPins p s with mu := m } i
    rw [h.fired_iff i, hfired, hstation, bounded_phase, h.e i]
    simp
  · obtain ⟨hfired, hout, hpulse⟩ := bounded_work { setPins p s with mu := m } i
    rw [h.rests i (hf.trans hfired.symm)]
    exact ⟨hout, by simp only [hpulse, Bool.false_and]⟩
  · have hkicks := h.kicksRest fun j hj => (hst j (hstation j ▸ hj)).trans (bounded_work _ j).1.symm
    obtain ⟨hbundle, htray, htaken⟩ := bounded_kicks { setPins p s with mu := m }
    rw [hkicks.bundle, hkicks.tray, hkicks.taken, hbundle, htray, htaken]
    simp

/-- Settles O23: the fire point itself, and the counts inside the pitch and at its boundary. -/
theorem actionStationsTakeTheirFirePoint : Obligations.ActionStationsTakeTheirFirePoint :=
  ⟨actionFires, actionMarks, count_inside, count_boundary⟩

end Sys2Proof.Machine
end

section
/-! PROOFS. What the work of a count leaves of the sensing: the presence runs, the jam runs and their flags. -/

namespace Sys2Proof.Machine

/-! ## The sensing of the stations -/

/-- The Check Unit's working state of a station without its measurement and its two counters. -/
def CheckWork.sensed (w : CheckWork) : CheckWork :=
  { w with measure := .idle, nextSample := 0, sampleSum := 0, faultRun := 0, drift := 0 }

/-- The presence runs, the jam runs and their flags, of every station. -/
def State.sensing (s : State) (i : StationNo) : CheckWork := (s.checkWork i).sensed

theorem sensing_of_cu {s t : State} (h : t.cu = s.cu) : t.sensing = s.sensing := by
  funext j; rw [State.sensing, State.sensing, State.checkWork, State.checkWork, h]

theorem setCheckWork_sensing (i : StationNo) (f : CheckWork → CheckWork) (s : State)
    (h : ∀ w, (f w).sensed = w.sensed := by intro; rfl) : (setCheckWork i f s).sensing = s.sensing := by
  funext j
  by_cases hj : j = i
  · subst hj; rw [State.sensing, checkWork_setCheckWork, h, State.sensing]
  · rw [State.sensing, checkWork_setCheckWork_other i j f s hj, State.sensing]

theorem abandonMeasurement_sensing (i : StationNo) (s : State) : (abandonMeasurement i s).sensing = s.sensing := by
  unfold abandonMeasurement
  split
  · exact (sensing_of_cu (markAt_cu _ _ _)).trans (setCheckWork_sensing i _ s)
  · rfl

theorem stopLine_sensing (l : LineState) (s : State) : (stopLine l s).sensing = s.sensing := by
  unfold stopLine
  split
  · have h := forStations_inv (fun t => t.sensing = s.sensing) abandonMeasurement
      (fun i _ ht => (abandonMeasurement_sensing i _).trans ht) (endPulses (setLine l s)) (sensing_of_cu (endPulses_cu _))
    exact (sensing_of_cu (by simp only [leaveFiring])).trans h
  · rfl

theorem stopFault_sensing (c : FaultCause) (st : Option StationNo) (s : State) : (stopFault c st s).sensing = s.sensing := by
  unfold stopFault
  split
  · exact sensing_of_cu (by simp [furtherFault])
  · rw [beginEpisode]
    exact ((sensing_of_cu (raiseNotice_cu _ _)).trans (sensing_of_cu rfl)).trans (stopLine_sensing .faulted s)

theorem reportTrackClear_sensing (s : State) : (reportTrackClear s).sensing = s.sensing := by
  unfold reportTrackClear
  split
  · exact stopLine_sensing .stopped s
  · rfl

theorem divert_sensing (c : Context) (g : Nat) (pitch : PitchIndex) (s : State) : (divert c g pitch s).sensing = s.sensing := by
  unfold divert
  dsimp only
  split <;> exact (reportTrackClear_sensing _).trans (sensing_of_cu (by simp))

theorem decideGate_sensing (atFirePoint : Bool) (g : Nat) (pitch : PitchIndex) (s : State) :
    (decideGate atFirePoint g pitch s).2.sensing = s.sensing := by
  unfold decideGate
  split
  · rfl
  · exact (reportTrackClear_sensing _).trans (sensing_of_cu (by simp))
  · dsimp only
    split
    · rfl
    · exact divert_sensing _ g pitch s

theorem gateFirePoint_sensing (s : State) : (gateFirePoint s).2.sensing = s.sensing := by
  unfold gateFirePoint
  split
  · rfl
  · dsimp only
    split
    · rfl
    · exact decideGate_sensing _ _ _ _

theorem stackEvent_sensing (i : StationNo) (s : State) : (stackEvent i s).sensing = s.sensing := by
  unfold stackEvent
  split
  · split
    · rw [deliver_eq, reportTrackClear_sensing]; exact sensing_of_cu (by simp [exited])
    · rw [lose_eq, reportTrackClear_sensing]; exact sensing_of_cu (by simp [exited])
  · rfl

theorem printFired_sensing (i : StationNo) (s : State) : (printFired i s).sensing = s.sensing := by
  unfold printFired
  split
  · rfl
  · split
    · rfl
    · exact (sensing_of_cu (withdraw_cu _)).trans (stopFault_sensing _ _ _)

theorem takeFirePoint_sensing (i : StationNo) (s : State) : (takeFirePoint i s).sensing = s.sensing := by
  unfold takeFirePoint
  dsimp only
  split
  · unfold fireInFiring
    split
    · split
      · exact (sensing_of_cu (fireWithPulse_cu _ _)).trans (gateFirePoint_sensing _)
      · exact (sensing_of_cu (setOutcome_cu _ _ _)).trans (gateFirePoint_sensing _)
    · exact (sensing_of_cu (takeKick_cu _ _)).trans (stackEvent_sensing _ _)
    · split
      · exact (printFired_sensing _ _).trans (sensing_of_cu (fireWithPulse_cu _ _))
      · exact sensing_of_cu (setOutcome_cu _ _ _)
    · split <;> exact sensing_of_cu (by simp)
  · exact sensing_of_cu (by simp)

/-! ## Verdicts and measurements -/

theorem cleanVerdict_sensing (i : StationNo) (s : State) : (cleanVerdict i s).sensing = s.sensing :=
  setCheckWork_sensing i _ s

theorem faultVerdict_sensing (i : StationNo) (m : Mark) (c : Context) (s : State) :
    (faultVerdict i m c s).sensing = s.sensing := by
  have hset {f : CheckWork → CheckWork} (h : ∀ w, (f w).sensed = w.sensed) :
      (setCheckWork i f (markAt (s.station i).offset m s)).sensing = s.sensing :=
    (setCheckWork_sensing i f _ h).trans (sensing_of_cu (markAt_cu _ _ _))
  unfold faultVerdict
  dsimp only
  split
  · exact sensing_of_cu (markAt_cu _ _ _)
  · split
    · exact hset fun _ => rfl
    · exact (sensing_of_cu ((raiseNotice_cu _ _).trans (addHold_cu _ _))).trans (hset fun _ => rfl)

theorem presenceVerdict_sensing (i : StationNo) (c : Context) (s : State) : (presenceVerdict i c s).sensing = s.sensing := by
  unfold presenceVerdict
  dsimp only
  split
  · split
    · exact faultVerdict_sensing _ _ _ _
    · exact cleanVerdict_sensing _ _
  · split
    · split
      · exact cleanVerdict_sensing _ _
      · split <;> exact faultVerdict_sensing _ _ _ _
    · rfl

/-- Window close sets its flag, whatever the verdict. -/
theorem closeWindow_sensing (i : StationNo) (s : State) :
    (closeWindow i s).sensing = (setCheckWork i (fun w => { w with windowClosed := true }) s).sensing := by
  unfold closeWindow
  dsimp only
  split
  · rfl
  · split <;> rfl
  · split
    · exact presenceVerdict_sensing _ _ _
    · unfold presenceNotTaken
      split
      · split <;> rfl
      · rfl

theorem zeroCheck_sensing (i : StationNo) (reading : Nat) (s : State) : (zeroCheck i reading s).sensing = s.sensing := by
  unfold zeroCheck
  dsimp only
  split
  · rfl
  · split
    · exact setCheckWork_sensing i _ s
    · split
      · exact setCheckWork_sensing i _ s
      · exact (sensing_of_cu ((raiseNotice_cu _ _).trans (addHold_cu _ _))).trans (setCheckWork_sensing i _ s)

theorem completeMeasurement_sensing (i : StationNo) (s : State) : (completeMeasurement i s).sensing = s.sensing := by
  have hdone : (setCheckWork i (fun w => { w with measure := .done }) s).sensing = s.sensing :=
    setCheckWork_sensing i _ s
  unfold completeMeasurement
  dsimp only
  split
  · refine Eq.trans ?_ hdone
    unfold thicknessVerdict
    dsimp only
    generalize (if (setCheckWork i _ s).firstCaliper i then _ else _ : Nat) = low
    generalize (if (setCheckWork i _ s).firstCaliper i then _ else _ : Nat) = high
    split
    · exact faultVerdict_sensing _ _ _ _
    · split
      · exact faultVerdict_sensing _ _ _ _
      · exact cleanVerdict_sensing _ _
  · exact (zeroCheck_sensing _ _ _).trans hdone
  · exact hdone

theorem takeSample_sensing (i : StationNo) (s : State) : (takeSample i s).sensing = s.sensing := by
  refine (setCheckWork_sensing i _ _).trans ?_
  split <;> rfl

theorem takeSamples_sensing (i : StationNo) (fuel : Nat) (s : State) : (takeSamples i fuel s).sensing = s.sensing := by
  induction fuel generalizing s with
  | zero => rfl
  | succ fuel ih =>
    unfold takeSamples
    dsimp only
    split
    · split
      · exact (completeMeasurement_sensing _ _).trans (takeSample_sensing _ _)
      · exact (ih _).trans (takeSample_sensing _ _)
    · rfl

theorem caliperCount_sensing (i : StationNo) (s : State) : (caliperCount i s).sensing = s.sensing := by
  have hset {f : CheckWork → CheckWork} (h : ∀ w, (f w).sensed = w.sensed) := setCheckWork_sensing i f s h
  unfold caliperCount
  split
  · unfold beginMeasurement
    split
    · split
      · exact hset fun _ => rfl
      · exact (takeSamples_sensing _ _ _).trans (hset fun _ => rfl)
    · exact (sensing_of_cu (markAt_cu _ _ _)).trans (hset fun _ => rfl)
  · exact takeSamples_sensing _ _ _
  · rfl
  · rfl

theorem raiseJam_sensing (i : StationNo) (s : State) :
    (raiseJam i s).sensing = (setCheckWork i (fun w => { w with jamRaised := true }) s).sensing := stopFault_sensing _ _ _

/-! ## The tasks of a count (R77, R92) -/

/-- The phase is the window end of a station that takes a presence verdict. -/
def State.closeAt (s : State) (i : StationNo) : Bool := (s.station i).hasVerdict && decide (s.mu.phase = (s.station i).windowEnd)

/-- The jam run of a station that senses a jam has reached the jam length. -/
def State.jamAt (s : State) (i : StationNo) : Bool :=
  (s.station i).kind.jams && (s.station i).sensor.isSome && decide (0 < (s.station i).jamLength) &&
  decide ((s.station i).jamLength ≤ (s.checkWork i).jamRun)

theorem State.closeDue_eq (s : State) (i : StationNo) : s.closeDue i = (s.closeAt i && !(s.checkWork i).windowClosed) := by
  rw [State.closeDue, State.closeAt, Bool.and_right_comm]

theorem State.jamDue_eq (s : State) (i : StationNo) : s.jamDue i = (s.jamAt i && !(s.checkWork i).jamRaised) := rfl

/-- The two flags that the tasks of a count set. -/
def CheckWork.tasked (close jam : Bool) (w : CheckWork) : CheckWork :=
  { w with windowClosed := w.windowClosed || close, jamRaised := w.jamRaised || jam }

theorem CheckWork.tasked_tasked (a b c d : Bool) (w : CheckWork) : (w.tasked a b).tasked c d = w.tasked (a || c) (b || d) := by
  simp only [CheckWork.tasked, Bool.or_assoc]

/-- A flag set for one station. -/
theorem sensing_setCheckWork (i j : StationNo) (f : CheckWork → CheckWork) (s : State) (h : ∀ w, (f w).sensed = f w.sensed) :
    (setCheckWork i f s).sensing j = if j = i then f (s.sensing j) else s.sensing j := by
  split
  · rename_i hj; subst hj; rw [State.sensing, checkWork_setCheckWork, h, State.sensing]
  · rename_i hj; rw [State.sensing, checkWork_setCheckWork_other i j f s hj, State.sensing]

theorem runTask_sensing (forward : Bool) (s : State) (task : CountTask) (j : StationNo) :
    (runTask forward s task).sensing j = (s.sensing j).tasked (s.closeAt j && decide (task = .windowClose j))
      (forward && s.jamAt j && decide (task = .jam j)) := by
  have hrest {t : State} {c : Prop} [Decidable c] (h : t.sensing = s.sensing) : (if c then t else s).sensing = s.sensing := by
    split
    exacts [h, rfl]
  cases task with
  | firePoint i =>
    have hsame : (runTask forward s (.firePoint i)).sensing = s.sensing := hrest (takeFirePoint_sensing i s)
    rw [hsame]
    simp [CheckWork.tasked]
  | caliper i =>
    have hsame : (runTask forward s (.caliper i)).sensing = s.sensing := hrest (caliperCount_sensing i s)
    rw [hsame]
    simp [CheckWork.tasked]
  | windowClose i =>
    have hclosed : (s.sensing i).windowClosed = (s.checkWork i).windowClosed := rfl
    have hturn : (runTask forward s (.windowClose i)).sensing j =
        if j = i then { s.sensing j with windowClosed := (s.sensing j).windowClosed || s.closeAt j } else s.sensing j := by
      unfold runTask
      dsimp only
      split
      · rename_i hdue
        rw [State.closeDue_eq, Bool.and_eq_true] at hdue
        rw [closeWindow_sensing, sensing_setCheckWork i j (fun w => { w with windowClosed := true }) s fun _ => rfl]
        split
        · rename_i hj; subst hj; rw [hdue.1, Bool.or_true]
        · rfl
      · rename_i hdue
        rw [State.closeDue_eq, Bool.not_eq_true] at hdue
        split
        · rename_i hj
          subst hj
          have : ((s.sensing j).windowClosed || s.closeAt j) = (s.sensing j).windowClosed := by
            rw [hclosed]
            revert hdue
            cases s.closeAt j <;> cases (s.checkWork j).windowClosed <;> simp
          rw [this]
        · rfl
    rw [hturn]
    by_cases hj : j = i
    · subst hj; simp [CheckWork.tasked]
    · simp [CheckWork.tasked, hj, Ne.symm hj]
  | jam i =>
    have hraised : (s.sensing i).jamRaised = (s.checkWork i).jamRaised := rfl
    have hturn : (runTask forward s (.jam i)).sensing j =
        if j = i then { s.sensing j with jamRaised := (s.sensing j).jamRaised || forward && s.jamAt j } else s.sensing j := by
      unfold runTask
      dsimp only
      split
      · rename_i hdue
        rw [State.jamDue_eq, Bool.and_eq_true] at hdue
        rw [raiseJam_sensing, sensing_setCheckWork i j (fun w => { w with jamRaised := true }) s fun _ => rfl]
        split
        · rename_i hj; subst hj; rw [hdue.1, hdue.2.1, Bool.and_true, Bool.or_true]
        · rfl
      · rename_i hdue
        rw [State.jamDue_eq, Bool.and_eq_true] at hdue
        split
        · rename_i hj
          subst hj
          have : ((s.sensing j).jamRaised || forward && s.jamAt j) = (s.sensing j).jamRaised := by
            rw [hraised]
            revert hdue
            cases forward <;> cases s.jamAt j <;> cases (s.checkWork j).jamRaised <;> simp
          rw [this]
        · rfl
    rw [hturn]
    by_cases hj : j = i
    · subst hj; simp [CheckWork.tasked]
    · simp [CheckWork.tasked, hj, Ne.symm hj]

theorem closeAt_within {s t : State} (h : s.Within t) (i : StationNo) : t.closeAt i = s.closeAt i := by
  rw [State.closeAt, State.closeAt, h.station i, h.phase]

theorem jamAt_within {s t : State} (h : s.Within t) {i : StationNo} (hrun : (t.checkWork i).jamRun = (s.checkWork i).jamRun) :
    t.jamAt i = s.jamAt i := by
  rw [State.jamAt, State.jamAt, h.station i, hrun]

theorem runTasks_sensing (forward : Bool) (l : List CountTask) (s : State) (j : StationNo) :
    (l.foldl (runTask forward) s).sensing j = (s.sensing j).tasked (s.closeAt j && decide (.windowClose j ∈ l))
      (forward && s.jamAt j && decide (.jam j ∈ l)) := by
  induction l generalizing s with
  | nil => simp [CheckWork.tasked]
  | cons task l ih =>
    have hturn := runTask_sensing forward s task j
    have hwithin := runTask_within forward s task
    have hrun : ((runTask forward s task).checkWork j).jamRun = (s.checkWork j).jamRun :=
      (congrArg CheckWork.jamRun hturn :)
    rw [List.foldl_cons, ih, hturn, CheckWork.tasked_tasked, closeAt_within hwithin, jamAt_within hwithin hrun,
      ← Bool.and_or_distrib_left, ← Bool.and_or_distrib_left]
    simp only [List.mem_cons, Bool.decide_or, eq_comm]

/-- The tasks of a count close the windows that end at its phase and raise, at a forward count, the jams that have run their
length, and leave every run and the detections. -/
theorem takeTasks_sensing (forward : Bool) (s : State) (j : StationNo) :
    (takeTasks forward s).sensing j = (s.sensing j).tasked (s.closeAt j) (forward && s.jamAt j) := by
  have h := runTasks_sensing forward (orderTasks (Config.rank s.countIndex) (s.dueTasks forward)) s j
  simp only [mem_orderTasks, mem_dueTasks_windowClose, mem_dueTasks_jam, State.closeDue_eq, State.jamDue_eq] at h
  have hclosed : (s.sensing j).windowClosed = (s.checkWork j).windowClosed := rfl
  have hraised : (s.sensing j).jamRaised = (s.checkWork j).jamRaised := rfl
  rw [show (takeTasks forward s).sensing j = _ from h, CheckWork.tasked, CheckWork.tasked, hclosed, hraised]
  congr 1
  · cases s.closeAt j <;> cases (s.checkWork j).windowClosed <;> rfl
  · cases forward <;> cases s.jamAt j <;> cases (s.checkWork j).jamRaised <;> rfl

theorem CountEnds.sensing {forward : Bool} {n t : State} (h : CountEnds forward n t) (j : StationNo) :
    t.sensing j = (n.sensing j).tasked (n.closeAt j) (forward && n.jamAt j) :=
  (congrFun (sensing_of_cu h.cu) j).trans (takeTasks_sensing forward n j)

end Sys2Proof.Machine
end

section
/-! PROOFS. Window close: when it is taken, and how it judges the product. -/

namespace Sys2Proof.Machine

/-! ## The presence verdict (R78, R79) -/

/-- Window close taken at a station, before its verdict. -/
def shut (i : StationNo) (s : State) : State := setCheckWork i (fun w => { w with windowClosed := true }) s

theorem checkWork_shut (i : StationNo) (s : State) : (shut i s).checkWork i = { s.checkWork i with windowClosed := true } :=
  checkWork_setCheckWork i _ s

theorem faultRun_shut (i j : StationNo) (s : State) : ((shut i s).checkWork j).faultRun = (s.checkWork j).faultRun := by
  by_cases hj : j = i
  · subst hj; rw [checkWork_shut]
  · rw [shut, checkWork_setCheckWork_other i j _ s hj]

/-- The mark of a product that a station fired for and that is missing. -/
def StationEntry.missMark (e : StationEntry) : Mark :=
  match e.kind with
  | .feed => .mainMiss
  | .carrier => .carrierMiss
  | _ => .insertMiss e.feeder

theorem appliesTo_of_kind {e : StationEntry} {c : Context} (h : e.kind = .feed ∨ e.kind = .carrier ∨
    e.kind = .insert ∧ c.values.callsFor e.feeder = true) : e.appliesTo c = true := by
  rcases h with h | h | ⟨h, hcall⟩
  · simp [StationEntry.appliesTo, h]
  · simp [StationEntry.appliesTo, h]
  · simp [StationEntry.appliesTo, hcall]

theorem not_appliesTo {e : StationEntry} {c : Context} (h : e.kind = .insert) (hcall : c.values.callsFor e.feeder = false) :
    e.appliesTo c = false := by
  simp [StationEntry.appliesTo, h, hcall]

theorem uncalled_iff (e : StationEntry) (c : Context) :
    (e.kind = .insert ∧ ¬ c.values.callsFor e.feeder = true) ↔ e.appliesTo c = false := by
  simp [StationEntry.appliesTo]

theorem presenceVerdict_applies {i : StationNo} {c : Context} {s : State} (h : (s.station i).appliesTo c = true) :
    presenceVerdict i c s =
      if (s.fireWork i).outcome = .fired then
        if (s.checkWork i).detected then cleanVerdict i s else faultVerdict i (s.station i).missMark c s
      else suspectAt (s.station i).offset s := by
  have hcalled : ¬ ((s.station i).kind = .insert ∧ ¬ c.values.callsFor (s.station i).feeder = true) :=
    fun hc => Bool.noConfusion (h.symm.trans ((uncalled_iff _ _).mp hc))
  rw [presenceVerdict, if_neg hcalled]
  refine if_congr Iff.rfl (if_congr Iff.rfl rfl ?_) rfl
  cases hk : (s.station i).kind <;> simp only [StationEntry.missMark, hk]

theorem presenceVerdict_uncalled {i : StationNo} {c : Context} {s : State} (h : (s.station i).appliesTo c = false) :
    presenceVerdict i c s = if (s.checkWork i).detected then faultVerdict i .insertExtra c s else cleanVerdict i s :=
  if_pos ((uncalled_iff _ _).mpr h)

theorem closeWindow_closed (i : StationNo) (s : State) : ((closeWindow i s).checkWork i).windowClosed = true := by
  have h := congrFun (closeWindow_sensing i s) i
  have hclosed : ((shut i s).checkWork i).windowClosed = true := by rw [checkWork_shut]
  exact (congrArg CheckWork.windowClosed h).trans hclosed

theorem presenceVerdict_lc {i : StationNo} {c : Context} {s : State} (h : (s.station i).faultLimit = 0) :
    (presenceVerdict i c s).lc = s.lc := by
  have hfault (m : Mark) : (faultVerdict i m c s).lc = s.lc := by rw [faultVerdict_off h]; rfl
  cases ha : (s.station i).appliesTo c with
  | true =>
    rw [presenceVerdict_applies ha]
    split
    · split
      exacts [rfl, hfault _]
    · rfl
  | false =>
    rw [presenceVerdict_uncalled ha]
    split
    exacts [hfault _, rfl]

/-! ## Window close on a context in a firing state -/

section Judged

variable {i : StationNo} {s : State} {c : Context}

theorem closeWindow_copy (hc : s.contentAt (s.station i).offset = .copy c) (hf : s.firing = true) :
    closeWindow i s = presenceVerdict i c (shut i s) := by
  rw [closeWindow, hc]
  exact if_pos hf

/-- The product of a station that fired is missing. -/
theorem closeWindow_misses (hc : s.contentAt (s.station i).offset = .copy c) (hf : s.firing = true)
    (ha : (s.station i).appliesTo c = true) (hout : (s.fireWork i).outcome = .fired) (hdet : (s.checkWork i).detected = false) :
    (closeWindow i s).contentAt (s.station i).offset = .copy { c with marks := c.marks.add (s.station i).missMark } := by
  have hdet' : ((shut i s).checkWork i).detected = false := by rw [checkWork_shut]; exact hdet
  rw [closeWindow_copy hc hf, presenceVerdict_applies (s := shut i s) ha, if_pos (show ((shut i s).fireWork i).outcome = .fired from hout), hdet',
    if_neg Bool.false_ne_true]
  exact contentAt_faultVerdict (s := shut i s) hc

/-- A clean verdict leaves the track and ends the run of faults. -/
theorem closeWindow_passes (hc : s.contentAt (s.station i).offset = .copy c) (hf : s.firing = true)
    (h : (s.station i).appliesTo c = true ∧ (s.fireWork i).outcome = .fired ∧ (s.checkWork i).detected = true ∨
      (s.station i).appliesTo c = false ∧ (s.checkWork i).detected = false) :
    (closeWindow i s).tu = s.tu ∧ ((closeWindow i s).checkWork i).faultRun = 0 := by
  have hdet : ((shut i s).checkWork i).detected = (s.checkWork i).detected := by rw [checkWork_shut]
  have hclean : closeWindow i s = cleanVerdict i (shut i s) := by
    rw [closeWindow_copy hc hf]
    rcases h with ⟨ha, hout, hyes⟩ | ⟨ha, hno⟩
    · rw [presenceVerdict_applies (s := shut i s) ha, if_pos (show ((shut i s).fireWork i).outcome = .fired from hout), if_pos (hdet.trans hyes)]
    · rw [presenceVerdict_uncalled (s := shut i s) ha, hdet.trans hno, if_neg Bool.false_ne_true]
  rw [hclean]
  refine ⟨rfl, ?_⟩
  rw [cleanVerdict, checkWork_setCheckWork]

/-- A station that did not fire is not judged. -/
theorem closeWindow_suspects (hc : s.contentAt (s.station i).offset = .copy c) (hf : s.firing = true)
    (ha : (s.station i).appliesTo c = true) (hout : (s.fireWork i).outcome = .skipped ∨ (s.fireWork i).outcome = .none) :
    (closeWindow i s).contentAt (s.station i).offset = .copy { c with marks := c.marks.add .suspect } ∧
    ((closeWindow i s).checkWork i).faultRun = (s.checkWork i).faultRun := by
  have hno : ¬ ((shut i s).fireWork i).outcome = .fired := fun h => by
    have h' : (s.fireWork i).outcome = .fired := h
    rw [h'] at hout
    exact hout.elim PitchOutcome.noConfusion PitchOutcome.noConfusion
  rw [closeWindow_copy hc hf, presenceVerdict_applies (s := shut i s) ha, if_neg hno]
  exact ⟨contentAt_markAt (s := shut i s) .suspect hc, faultRun_shut i i s⟩

/-- A product that the context does not call for. -/
theorem closeWindow_extra (hc : s.contentAt (s.station i).offset = .copy c) (hf : s.firing = true)
    (ha : (s.station i).appliesTo c = false) (hdet : (s.checkWork i).detected = true) :
    (closeWindow i s).contentAt (s.station i).offset = .copy { c with marks := c.marks.add .insertExtra } := by
  have hdet' : ((shut i s).checkWork i).detected = true := by rw [checkWork_shut]; exact hdet
  rw [closeWindow_copy hc hf, presenceVerdict_uncalled (s := shut i s) ha, if_pos hdet']
  exact contentAt_faultVerdict (s := shut i s) hc

end Judged

/-- Settles O36, a context at FEED and CARRIER. -/
theorem window_feed (i : StationNo) (s : State) (c : Context) (m : Mark) (hf : s.firing = true)
    (hc : s.contentAt (s.station i).offset = .copy c) (hlimit : (s.station i).faultLimit = 0)
    (hk : (s.station i).kind = .feed ∧ m = .mainMiss ∨ (s.station i).kind = .carrier ∧ m = .carrierMiss) :
    ((closeWindow i s).checkWork i).windowClosed = true ∧
    ((s.fireWork i).outcome = .fired → (s.checkWork i).detected = false →
      (closeWindow i s).contentAt (s.station i).offset = .copy { c with marks := c.marks.add m }) ∧
    ((s.fireWork i).outcome = .fired → (s.checkWork i).detected = true →
      (closeWindow i s).tu = s.tu ∧ ((closeWindow i s).checkWork i).faultRun = 0) ∧
    ((s.fireWork i).outcome = .skipped ∨ (s.fireWork i).outcome = .none →
      (closeWindow i s).contentAt (s.station i).offset = .copy { c with marks := c.marks.add .suspect } ∧
      ((closeWindow i s).checkWork i).faultRun = (s.checkWork i).faultRun) ∧
    (closeWindow i s).mu = s.mu ∧ (closeWindow i s).fu = s.fu ∧ (closeWindow i s).lc = s.lc := by
  have ha : (s.station i).appliesTo c = true := appliesTo_of_kind (hk.elim (fun h => .inl h.1) fun h => .inr (.inl h.1))
  have hm : (s.station i).missMark = m := by
    rcases hk with ⟨hk, rfl⟩ | ⟨hk, rfl⟩ <;> rw [StationEntry.missMark, hk]
  refine ⟨closeWindow_closed i s, fun hout hdet => hm ▸ closeWindow_misses hc hf ha hout hdet,
    fun hout hdet => closeWindow_passes hc hf (.inl ⟨ha, hout, hdet⟩), closeWindow_suspects hc hf ha, closeWindow_mu i s,
    closeWindow_fu i s, ?_⟩
  rw [closeWindow_copy hc hf]
  exact presenceVerdict_lc (s := shut i s) hlimit

/-- Settles O36, a context at INSERT. -/
theorem window_insert (i : StationNo) (s : State) (c : Context) (hf : s.firing = true)
    (hc : s.contentAt (s.station i).offset = .copy c) (_ : (s.station i).faultLimit = 0) (hk : (s.station i).kind = .insert) :
    ((closeWindow i s).checkWork i).windowClosed = true ∧
    (c.values.callsFor (s.station i).feeder = true → (s.fireWork i).outcome = .fired → (s.checkWork i).detected = false →
      (closeWindow i s).contentAt (s.station i).offset =
        .copy { c with marks := c.marks.add (.insertMiss (s.station i).feeder) }) ∧
    (c.values.callsFor (s.station i).feeder = true → (s.fireWork i).outcome = .skipped ∨ (s.fireWork i).outcome = .none →
      (closeWindow i s).contentAt (s.station i).offset = .copy { c with marks := c.marks.add .suspect } ∧
      ((closeWindow i s).checkWork i).faultRun = (s.checkWork i).faultRun) ∧
    (c.values.callsFor (s.station i).feeder = false → (s.checkWork i).detected = true →
      (closeWindow i s).contentAt (s.station i).offset = .copy { c with marks := c.marks.add .insertExtra }) ∧
    (c.values.callsFor (s.station i).feeder = true ∧ (s.fireWork i).outcome = .fired ∧ (s.checkWork i).detected = true ∨
        c.values.callsFor (s.station i).feeder = false ∧ (s.checkWork i).detected = false →
      (closeWindow i s).tu = s.tu ∧ ((closeWindow i s).checkWork i).faultRun = 0) := by
  have ha (hcall : c.values.callsFor (s.station i).feeder = true) : (s.station i).appliesTo c = true :=
    appliesTo_of_kind (.inr (.inr ⟨hk, hcall⟩))
  have hm : (s.station i).missMark = .insertMiss (s.station i).feeder := by rw [StationEntry.missMark, hk]
  refine ⟨closeWindow_closed i s, fun hcall hout hdet => hm ▸ closeWindow_misses hc hf (ha hcall) hout hdet,
    fun hcall => closeWindow_suspects hc hf (ha hcall), fun hcall => closeWindow_extra hc hf (not_appliesTo hk hcall), ?_⟩
  rintro (⟨hcall, hout, hdet⟩ | ⟨hcall, hdet⟩)
  · exact closeWindow_passes hc hf (.inl ⟨ha hcall, hout, hdet⟩)
  · exact closeWindow_passes hc hf (.inr ⟨not_appliesTo hk hcall, hdet⟩)

/-! ## Window close outside the firing states, on a gap and on a ghost -/

/-- A check not taken on a context: SUSPECT if it applies. -/
theorem presenceNotTaken_copy {i : StationNo} {s : State} {c : Context} (hc : s.contentAt (s.station i).offset = .copy c) :
    presenceNotTaken i s = if (s.station i).appliesTo c then suspectAt (s.station i).offset s else s := by
  rw [presenceNotTaken, hc]

theorem presenceNotTaken_rests {i : StationNo} {s : State} (h : (s.contentAt (s.station i).offset).isCopy = false) :
    presenceNotTaken i s = s := by
  unfold presenceNotTaken
  split
  · rename_i c hc
    rw [hc] at h
    exact Bool.noConfusion h
  · rfl

theorem closeWindow_stopped {i : StationNo} {s : State} {c : Context} (hf : s.firing = false)
    (hc : s.contentAt (s.station i).offset = .copy c) : closeWindow i s = presenceNotTaken i (shut i s) := by
  rw [closeWindow, hc]
  exact if_neg fun h => Bool.noConfusion (hf.symm.trans h)

/-- Settles O36, window close outside the firing states, on a gap and on a ghost. -/
theorem window_rest (i : StationNo) (s : State) :
    (∀ c, s.firing = false → s.contentAt (s.station i).offset = .copy c →
      ((closeWindow i s).checkWork i).faultRun = (s.checkWork i).faultRun ∧
      ((s.station i).kind = .feed ∨ (s.station i).kind = .carrier ∨
          (s.station i).kind = .insert ∧ c.values.callsFor (s.station i).feeder = true →
        (closeWindow i s).contentAt (s.station i).offset = .copy { c with marks := c.marks.add .suspect }) ∧
      ((s.station i).kind = .insert → c.values.callsFor (s.station i).feeder = false → (closeWindow i s).tu = s.tu)) ∧
    (s.contentAt (s.station i).offset = .empty →
      (closeWindow i s).cu.strayProduct =
        (if s.firing = true ∧ (s.checkWork i).detected = true then min (s.cu.strayProduct + 1) 65535 else s.cu.strayProduct) ∧
      (∀ j, ((closeWindow i s).checkWork j).faultRun = (s.checkWork j).faultRun) ∧
      (closeWindow i s).tu = s.tu ∧ (closeWindow i s).lc = s.lc ∧ (closeWindow i s).ll = s.ll) ∧
    (∀ g, s.contentAt (s.station i).offset = .ghost g →
      closeWindow i s = setCheckWork i (fun w => { w with windowClosed := true }) s) := by
  refine ⟨fun c hf hc => ?_, fun hc => ?_, fun g hg => by rw [closeWindow, hg]⟩
  · rw [closeWindow_stopped hf hc]
    have hcopy := presenceNotTaken_copy (s := shut i s) hc
    refine ⟨?_, fun hk => ?_, fun hk hcall => ?_⟩
    · rw [State.checkWork, presenceNotTaken_cu]; exact faultRun_shut i i s
    · rw [hcopy, if_pos (show ((shut i s).station i).appliesTo c = true from appliesTo_of_kind hk)]
      exact contentAt_markAt (s := shut i s) .suspect hc
    · rw [hcopy, show ((shut i s).station i).appliesTo c = false from not_appliesTo hk hcall, if_neg Bool.false_ne_true]
      rfl
  · have hgap : closeWindow i s = if s.firing = true ∧ (s.checkWork i).detected = true then
        { shut i s with cu := { (shut i s).cu with strayProduct := bump (shut i s).cu.strayProduct } } else shut i s := by
      rw [closeWindow, hc]; rfl
    rw [hgap]
    split
    · exact ⟨rfl, fun j => faultRun_shut i j s, rfl, rfl, rfl⟩
    · exact ⟨rfl, fun j => faultRun_shut i j s, rfl, rfl, rfl⟩

/-! ## When window close is taken (R77) -/

theorem judged_iff (k : StationKind) : k.judged = true ↔ k = .feed ∨ k = .insert ∨ k = .carrier := by
  cases k <;> simp [StationKind.judged]

theorem hasVerdict_iff (e : StationEntry) : e.hasVerdict = true ↔
    (e.kind = .feed ∨ e.kind = .insert ∨ e.kind = .carrier) ∧ e.sensor ≠ none := by
  rw [StationEntry.hasVerdict, Bool.and_eq_true, judged_iff, Option.isSome_iff_ne_none]

theorem closeAt_iff (s : State) (i : StationNo) : s.closeAt i = true ↔
    ((s.station i).kind = .feed ∨ (s.station i).kind = .insert ∨ (s.station i).kind = .carrier) ∧
      (s.station i).sensor ≠ none ∧ s.mu.phase = (s.station i).windowEnd := by
  rw [State.closeAt, Bool.and_eq_true, hasVerdict_iff, decide_eq_true_eq, and_assoc]

/-- Settles O36, the window-close task. -/
theorem runTask_windowClose (i : StationNo) (s : State) (forward : Bool) : runTask forward s (.windowClose i) =
    if ((s.station i).kind = .feed ∨ (s.station i).kind = .insert ∨ (s.station i).kind = .carrier) ∧
      (s.station i).sensor ≠ none ∧ (s.checkWork i).windowClosed = false ∧ s.mu.phase = (s.station i).windowEnd then
      closeWindow i s else s := by
  refine if_congr ?_ rfl rfl
  rw [State.closeDue_eq, Bool.and_eq_true, closeAt_iff, Bool.not_eq_true']
  constructor
  · rintro ⟨⟨hk, hsensor, hp⟩, hw⟩; exact ⟨hk, hsensor, hw, hp⟩
  · rintro ⟨hk, hsensor, hw, hp⟩; exact ⟨⟨hk, hsensor, hp⟩, hw⟩

/-- The new pitch begins with every window open. -/
theorem bounded_open (s : State) (i : StationNo) : ((bounded s).checkWork i).windowClosed = false := by
  have hopen (e : StationEntry) (w : CheckWork) : (newPitchWork e w).windowClosed = false := by
    rw [newPitchWork]; dsimp only; split <;> rfl
  rw [bounded, senseCount_closed, pitchBoundary_eq]
  generalize dispatchJob _ = u
  rw [State.checkWork, newPitchChecks, mapAll_get, hopen]

theorem State.Stops.pitch {s t : State} (h : s.Stops t) : t.mu.pitch = s.mu.pitch := by
  rw [h.mu]; split <;> rfl

theorem CountEnds.closed_iff {forward : Bool} {n t : State} (h : CountEnds forward n t) (i : StationNo) :
    (t.checkWork i).windowClosed = true ↔ (n.checkWork i).windowClosed = true ∨ n.closeAt i = true := by
  have hclosed : (t.checkWork i).windowClosed = ((n.checkWork i).windowClosed || n.closeAt i) :=
    congrArg CheckWork.windowClosed (h.sensing i)
  rw [hclosed, Bool.or_eq_true]

/-- Settles O36, window close by count. -/
theorem window_taken (p : Pins) (s : State) (cmd : Instr) (i : StationNo) (phase : Nat) (hs : s.Open)
    (hcmd : ForwardCommand p cmd s ∧ phase = (if s.mu.phase + 1 < s.mu.len then s.mu.phase + 1 else 0) ∨
      ReverseCommand p cmd s ∧ phase = s.mu.phase - 1) :
    ∃ t, exec cmd s = .next t ∧ t.mu.phase = phase ∧
      ((t.checkWork i).windowClosed = true ↔
        (s.checkWork i).windowClosed = true ∧ t.mu.pitch = s.mu.pitch ∨
        ((s.station i).kind = .feed ∨ (s.station i).kind = .insert ∨ (s.station i).kind = .carrier) ∧
          (s.station i).sensor ≠ none ∧ phase = (s.station i).windowEnd) := by
  by_cases hend : ForwardCommand p cmd s ∧ ¬ s.mu.phase + 1 < s.mu.len ∧ phase = 0
  · obtain ⟨hfw, hlen, rfl⟩ := hend
    obtain ⟨m, t, ht, h, -, hpitch, -⟩ := boundary_command hs hfw (Nat.not_lt.mp hlen)
    have htp : t.mu.pitch = s.mu.pitch + 1 :=
      (h.toStops.pitch.trans (congrArg MotionTiming.pitch (bounded_timing _))).trans (congrArg (· + 1) hpitch)
    have hst : (bounded { setPins p s with mu := m }).station i = s.station i := station_of_tables (bounded_tables _).1 i
    refine ⟨t, ht, h.phase.trans (bounded_phase _), ?_⟩
    rw [h.closed_iff, bounded_open, closeAt_iff, hst, bounded_phase, htp]
    simp
  · have hinside : ForwardCommand p cmd s ∧ phase = s.mu.phase + 1 ∧ s.mu.phase + 1 < s.mu.len ∨
        ReverseCommand p cmd s ∧ phase = s.mu.phase - 1 := by
      rcases hcmd with ⟨hfw, hphase⟩ | hrev
      · by_cases hlen : s.mu.phase + 1 < s.mu.len
        · exact .inl ⟨hfw, hphase.trans (if_pos hlen), hlen⟩
        · exact absurd ⟨hfw, hlen, hphase.trans (if_neg hlen)⟩ hend
      · exact .inr hrev
    obtain ⟨forward, n, t, ht, h, hin⟩ := inside_command hs hinside
    refine ⟨t, ht, h.phase.trans hin.atPhase, ?_⟩
    rw [h.closed_iff, hin.closed, closeAt_iff, station_of_tables hin.stations i, hin.atPhase, h.toStops.pitch, hin.pitch]
    simp

/-- Settles O36, a pitch that ends without window close. -/
theorem window_not_taken (i : StationNo) (s : State) (c : Context) (hc : s.contentAt (s.station i).offset = .copy c) :
    ((s.station i).sensor ≠ none → (s.checkWork i).windowClosed = false →
      ((s.station i).kind = .feed ∨ (s.station i).kind = .carrier ∨
        (s.station i).kind = .insert ∧ c.values.callsFor (s.station i).feeder = true) →
      (presenceCloseOut i s).contentAt (s.station i).offset = .copy { c with marks := c.marks.add .suspect } ∧
      (presenceCloseOut i s).cu = s.cu) ∧
    ((s.station i).kind = .insert → c.values.callsFor (s.station i).feeder = false → presenceCloseOut i s = s) := by
  refine ⟨fun hsensor hopen hk => ?_, fun hk hcall => ?_⟩
  · have hverdict : (s.station i).hasVerdict = true :=
      (hasVerdict_iff _).mpr ⟨by rcases hk with h | h | ⟨h, -⟩ <;> simp [h], hsensor⟩
    rw [presenceCloseOut, if_pos ⟨hverdict, by rw [hopen]; exact Bool.false_ne_true⟩, presenceNotTaken_copy hc,
      if_pos (appliesTo_of_kind hk)]
    exact ⟨contentAt_markAt .suspect hc, rfl⟩
  · unfold presenceCloseOut
    split
    · rw [presenceNotTaken_copy hc, not_appliesTo hk hcall, if_neg Bool.false_ne_true]
    · rfl

/-- Settles O36, a pitch that ends with nothing to judge. -/
theorem window_nothing (i : StationNo) (s : State) (h : (s.contentAt (s.station i).offset).isCopy = false ∨
    (s.checkWork i).windowClosed = true ∨ (s.station i).sensor = none) : presenceCloseOut i s = s := by
  rcases h with h | h | h
  · unfold presenceCloseOut
    split
    exacts [presenceNotTaken_rests h, rfl]
  · exact if_neg fun hc => hc.2 h
  · exact if_neg fun hc => ((hasVerdict_iff _).mp hc.1).2 h

/-- Settles O36: the verdicts, the count that takes window close, and a pitch that ends without it. -/
theorem windowCloseJudgesTheProduct : Obligations.WindowCloseJudgesTheProduct :=
  ⟨window_feed, window_insert, window_rest, window_taken, runTask_windowClose, window_not_taken, window_nothing⟩

end Sys2Proof.Machine
end

section
/-! PROOFS. The presence filter and the jam runs at a forward count, and the jam that faults the line. -/

namespace Sys2Proof.Machine

/-! ## One forward count (R76, R92) -/

/-- The sensing of a station at a forward count inside the pitch, before the tasks. -/
theorem raised_checkWork (s : State) (i : StationNo) : (raised s).checkWork i =
    jamCount (s.station i) s.pins (filterCount (s.station i) s.pins (s.mu.phase + 1) (s.checkWork i)) := by
  have hst : (endDuePulses (raisePhase (countForward s))).station i = s.station i :=
    station_of_tables ((congrArg FiringUnit.stations (senseCount_fu _)).symm.trans (raised_fu s).1) i
  have hwork : (endDuePulses (raisePhase (countForward s))).checkWork i = s.checkWork i := by
    rw [State.checkWork, endDuePulses_cu]; rfl
  have hsense (u : State) : (senseCount u).checkWork i =
      jamCount (u.station i) u.pins (filterCount (u.station i) u.pins u.mu.phase (u.checkWork i)) := by
    rw [State.checkWork, senseCount, mapAll_get]; rfl
  rw [raised, hsense, hst, hwork, endDuePulses_pins, endDuePulses_mu]
  rfl

theorem jamCount_keeps (e : StationEntry) (p : Pins) (w : CheckWork) :
    (jamCount e p w).presenceRun = w.presenceRun ∧ (jamCount e p w).detected = w.detected := by
  unfold jamCount; (repeat' split) <;> exact ⟨rfl, rfl⟩

theorem filterCount_keeps (e : StationEntry) (p : Pins) (phase : Nat) (w : CheckWork) :
    (filterCount e p phase w).jamRun = w.jamRun ∧ (filterCount e p phase w).jamRaised = w.jamRaised := by
  unfold filterCount; (repeat' split) <;> exact ⟨rfl, rfl⟩

section Station

variable {e : StationEntry} {k : Fin 16} {p : Pins}

theorem filterCount_eq (hf : e.kind.filtered = true) (hk : e.sensor = some k) (phase : Nat) (w : CheckWork) :
    filterCount e p phase w =
      if e.windowStart ≤ phase ∧ phase ≤ e.windowEnd ∧ p.sns.getLsbD k.val = true then
        { w with
          presenceRun := min (w.presenceRun + 1) 255
          detected := w.detected || decide (e.minDetect ≤ w.presenceRun + 1) }
      else { w with presenceRun := 0 } := by
  rw [filterCount, hk]
  exact if_pos hf

theorem jams_iff (j : StationKind) : j.jams = true ↔ j = .gate ∨ j = .stack := by cases j <;> simp [StationKind.jams]

theorem jamCount_eq (hj : e.kind = .gate ∨ e.kind = .stack) (hk : e.sensor = some k) (hl : 0 < e.jamLength) (w : CheckWork) :
    jamCount e p w =
      if p.sns.getLsbD k.val = true then { w with jamRun := min (w.jamRun + 1) 65535 }
      else { w with jamRun := 0, jamRaised := false } := by
  rw [jamCount, hk]
  exact if_pos ⟨(jams_iff _).mpr hj, hl⟩

end Station

/-! ## The jam that faults the line (R92, R162) -/

/-- A jam raised by the tasks of a count has faulted the line. -/
theorem takeTasks_jam {forward : Bool} {s : State} {j : StationNo} (hs : (s.checkWork j).jamRaised = false)
    (ht : ((takeTasks forward s).checkWork j).jamRaised = true) :
    (takeTasks forward s).lc.line = .faulted ∧ (takeTasks forward s).lc.faults.jam = true := by
  have hinv := foldl_runTask_inv
    (fun u => (u.checkWork j).jamRaised = true → u.lc.line = .faulted ∧ u.lc.faults.jam = true) forward
    (fun u task hu hraised => ?_) (orderTasks (Config.rank s.countIndex) (s.dueTasks forward)) s
    (fun h => Bool.noConfusion (hs.symm.trans h))
  · exact hinv ht
  · cases hbefore : (u.checkWork j).jamRaised with
    | true =>
      obtain ⟨hline, hjam⟩ := hu hbefore
      obtain ⟨hline', hjam'⟩ := (runTask_within forward u task).faulted hline
      exact ⟨hline', hjam' hjam⟩
    | false =>
      have hflag : ((runTask forward u task).checkWork j).jamRaised =
          ((u.checkWork j).jamRaised || (forward && u.jamAt j && decide (task = .jam j))) :=
        congrArg CheckWork.jamRaised (runTask_sensing forward u task j)
      rw [hbefore, Bool.false_or, hraised] at hflag
      have hdue : forward = true ∧ u.jamAt j = true ∧ task = .jam j := by
        have := hflag.symm
        rw [Bool.and_eq_true, Bool.and_eq_true, decide_eq_true_eq] at this
        exact ⟨this.1.1, this.1.2, this.2⟩
      obtain ⟨rfl, hat, rfl⟩ := hdue
      have hjam : runTask true u (.jam j) = raiseJam j u := if_pos ⟨rfl, by rw [State.jamDue_eq, hat, hbefore]; rfl⟩
      rw [hjam]
      obtain ⟨f, hfaults⟩ := stopFault_faults .jam (some j) (setCheckWork j (fun w => { w with jamRaised := true }) u)
      exact ⟨stopFault_line _ _ _, by rw [raiseJam, hfaults]; rfl⟩

/-- The runs and flags of a station after a count. -/
theorem CountEnds.runs {forward : Bool} {n t : State} (h : CountEnds forward n t) (i : StationNo) :
    (t.checkWork i).presenceRun = (n.checkWork i).presenceRun ∧ (t.checkWork i).detected = (n.checkWork i).detected ∧
    (t.checkWork i).jamRun = (n.checkWork i).jamRun ∧
    (t.checkWork i).jamRaised = ((n.checkWork i).jamRaised || forward && n.jamAt i) :=
  ⟨(congrArg CheckWork.presenceRun (h.sensing i) :), (congrArg CheckWork.detected (h.sensing i) :),
    (congrArg CheckWork.jamRun (h.sensing i) :), (congrArg CheckWork.jamRaised (h.sensing i) :)⟩

/-! ## The obligation -/

/-- Settles O35, the presence filter. -/
theorem presence_counts (p : Pins) (a b : Bool) (s : State) (i : StationNo) (k : Fin 16) (hs : s.Open)
    (hsrc : s.mu.profile.source = .encoder) (hedge : (s.mu.encA, s.mu.encB, a, b) ∈ forwardEdges)
    (hlen : s.mu.phase + 1 < s.mu.len) (hf : (s.station i).kind.filtered = true) (hk : (s.station i).sensor = some k) :
    ∃ t, exec (.encoderEdge p a b) s = .next t ∧
      ((s.station i).windowStart ≤ s.mu.phase + 1 → s.mu.phase + 1 ≤ (s.station i).windowEnd →
        p.sns.getLsbD k.val = true →
        (t.checkWork i).presenceRun = min ((s.checkWork i).presenceRun + 1) 255 ∧
        ((t.checkWork i).detected = true ↔ (s.checkWork i).detected = true ∨
          (s.station i).minDetect ≤ (s.checkWork i).presenceRun + 1)) ∧
      ((s.mu.phase + 1 < (s.station i).windowStart ∨ (s.station i).windowEnd < s.mu.phase + 1 ∨
          p.sns.getLsbD k.val = false) →
        (t.checkWork i).presenceRun = 0 ∧ (t.checkWork i).detected = (s.checkWork i).detected) := by
  obtain ⟨t, ht, h⟩ := forwardEdge_inside (p := p) hs hsrc hedge hlen
  have hwork := raised_checkWork (edged p a b s) i
  obtain ⟨hrun, hdet, -⟩ := h.runs i
  rw [hwork, (jamCount_keeps _ _ _).1] at hrun
  rw [hwork, (jamCount_keeps _ _ _).2] at hdet
  have hfilter : filterCount ((edged p a b s).station i) (edged p a b s).pins ((edged p a b s).mu.phase + 1)
      ((edged p a b s).checkWork i) = _ := filterCount_eq (e := s.station i) (p := p) hf hk (s.mu.phase + 1) (s.checkWork i)
  rw [hfilter] at hrun hdet
  refine ⟨t, ht, fun hstart hend hsns => ?_, fun hout => ?_⟩
  · rw [hrun, hdet, if_pos ⟨hstart, hend, hsns⟩]
    simp
  · have hno : ¬ ((s.station i).windowStart ≤ s.mu.phase + 1 ∧ s.mu.phase + 1 ≤ (s.station i).windowEnd ∧
        p.sns.getLsbD k.val = true) := by
      rintro ⟨hstart, hend, hsns⟩
      rcases hout with hout | hout | hout
      · exact absurd hstart (Nat.not_le.mpr hout)
      · exact absurd hend (Nat.not_le.mpr hout)
      · exact Bool.noConfusion (hsns.symm.trans hout)
    rw [hrun, hdet, if_neg hno]
    exact ⟨rfl, rfl⟩

/-- Settles O35, the jam run. -/
theorem jam_counts (p : Pins) (a b : Bool) (s : State) (i : StationNo) (k : Fin 16) (hs : s.Open)
    (hsrc : s.mu.profile.source = .encoder) (hedge : (s.mu.encA, s.mu.encB, a, b) ∈ forwardEdges)
    (hlen : s.mu.phase + 1 < s.mu.len) (hj : (s.station i).kind = .gate ∨ (s.station i).kind = .stack)
    (hk : (s.station i).sensor = some k) (hl : 0 < (s.station i).jamLength) :
    ∃ t, exec (.encoderEdge p a b) s = .next t ∧
      (p.sns.getLsbD k.val = true →
        (t.checkWork i).jamRun = min ((s.checkWork i).jamRun + 1) 65535 ∧
        ((s.checkWork i).jamRaised = false → (s.station i).jamLength ≤ min ((s.checkWork i).jamRun + 1) 65535 →
          t.lc.line = .faulted ∧ t.lc.faults.jam = true ∧ (t.checkWork i).jamRaised = true) ∧
        ((s.checkWork i).jamRaised = true ∨ min ((s.checkWork i).jamRun + 1) 65535 < (s.station i).jamLength →
          (t.checkWork i).jamRaised = (s.checkWork i).jamRaised)) ∧
      (p.sns.getLsbD k.val = false → (t.checkWork i).jamRun = 0 ∧ (t.checkWork i).jamRaised = false) := by
  obtain ⟨t, ht, h⟩ := forwardEdge_inside (p := p) hs hsrc hedge hlen
  generalize hn : raised (edged p a b s) = n at h
  have hstation : n.station i = s.station i := hn ▸ station_of_tables (raised_fu (edged p a b s)).1 i
  obtain ⟨hfrun, hfraised⟩ := filterCount_keeps (s.station i) p (s.mu.phase + 1) (s.checkWork i)
  have hwork : n.checkWork i = _ :=
    (hn ▸ raised_checkWork (edged p a b s) i).trans (jamCount_eq (e := s.station i) (p := p) hj hk hl _)
  rw [show filterCount ((edged p a b s).station i) (edged p a b s).pins ((edged p a b s).mu.phase + 1)
    ((edged p a b s).checkWork i) = filterCount (s.station i) p (s.mu.phase + 1) (s.checkWork i) from rfl] at hwork
  generalize filterCount (s.station i) p (s.mu.phase + 1) (s.checkWork i) = w at hwork hfrun hfraised
  obtain ⟨-, -, hrun, hraised⟩ := h.runs i
  rw [Bool.true_and] at hraised
  have hat : n.jamAt i = decide ((s.station i).jamLength ≤ (n.checkWork i).jamRun) := by
    rw [State.jamAt, hstation, (jams_iff _).mpr hj, hk, decide_eq_true hl]
    simp
  refine ⟨t, ht, fun hsns => ?_, fun hsns => ?_⟩
  · rw [if_pos hsns, hfrun] at hwork
    have hraised' : (n.checkWork i).jamRaised = (s.checkWork i).jamRaised :=
      (congrArg CheckWork.jamRaised hwork).trans hfraised
    have hrun' : (n.checkWork i).jamRun = min ((s.checkWork i).jamRun + 1) 65535 := congrArg CheckWork.jamRun hwork
    rw [hrun'] at hat hrun
    refine ⟨hrun, fun hclear hreach => ?_, fun hrest => ?_⟩
    · have hset : (t.checkWork i).jamRaised = true := by rw [hraised, hat, decide_eq_true hreach, Bool.or_true]
      have hset' : ((takeTasks true n).checkWork i).jamRaised = true :=
        (congrArg (fun c : CheckUnit => c.work[i].jamRaised) h.cu).symm.trans hset
      obtain ⟨hline, hjam⟩ := takeTasks_jam (hraised'.trans hclear) hset'
      obtain ⟨hline', hjam'⟩ := h.ends.faulted hline
      exact ⟨hline', hjam' hjam, hset⟩
    · rw [hraised, hraised']
      rcases hrest with hrest | hrest
      · rw [hrest, Bool.true_or]
      · rw [hat, decide_eq_false (Nat.not_le.mpr hrest), Bool.or_false]
  · rw [if_neg (by rw [hsns]; exact Bool.false_ne_true)] at hwork
    rw [hraised, hat, hrun, hwork]
    exact ⟨rfl, by rw [decide_eq_false (Nat.not_le.mpr hl)]; rfl⟩

theorem runTask_jam (s : State) (i : StationNo) :
    ((s.checkWork i).jamRaised = true → runTask true s (.jam i) = s) ∧ runTask false s (.jam i) = s := by
  refine ⟨fun h => if_neg fun hc => ?_, by simp only [runTask, Bool.false_eq_true, false_and, if_false]⟩
  have := hc.2
  rw [State.jamDue_eq, h, Bool.not_true, Bool.and_false] at this
  exact Bool.noConfusion this

theorem jamInputActive_iff (s : State) : s.jamInputActive = true ↔ ∃ (i : StationNo) (k : Fin 16),
    ((s.station i).kind = .gate ∨ (s.station i).kind = .stack) ∧ 0 < (s.station i).jamLength ∧
    (s.station i).sensor = some k ∧ s.pins.sns.getLsbD k.val = true := by
  rw [State.jamInputActive, List.any_eq_true]
  refine exists_congr fun i => ?_
  simp only [mem_stationNos, true_and, Bool.and_eq_true, jams_iff, decide_eq_true_eq, and_assoc, exists_and_left]
  refine and_congr_right fun _ => and_congr_right fun _ => ?_
  cases (s.station i).sensor with
  | none => simp
  | some k => simp [sensorActive]

/-- Settles O35: the presence run, the jam run, a jam already raised, and the jam inputs. -/
theorem presenceFilterCounts : Obligations.PresenceFilterCounts :=
  ⟨presence_counts, jam_counts, runTask_jam, jamInputActive_iff⟩

end Sys2Proof.Machine
end

section
/-! PROOFS. The kicks that wait: how every command leaves their list and the record of the pitch's kick. -/

namespace Sys2Proof.Machine

/-! ## Work that takes no kick -/

/-- No kick is taken: the pitch's record stays, and kicks join the list at its end. -/
structure State.KicksStay (s t : State) : Prop where
  taken : t.fu.kickTaken = s.fu.kickTaken
  kicks : ∃ more, t.bu.kicks = s.bu.kicks ++ more

namespace State.KicksStay

theorem of_frame {s t : State} (hfu : t.fu.kickTaken = s.fu.kickTaken) (hbu : t.bu.kicks = s.bu.kicks) : s.KicksStay t :=
  ⟨hfu, [], by rw [hbu, List.append_nil]⟩

theorem of_units {s t : State} (hfu : t.fu = s.fu) (hbu : t.bu = s.bu) : s.KicksStay t :=
  of_frame (by rw [hfu]) (by rw [hbu])

theorem refl (s : State) : s.KicksStay s := of_frame rfl rfl

theorem trans {s t u : State} (h : s.KicksStay t) (k : t.KicksStay u) : s.KicksStay u := by
  obtain ⟨ht, a, ha⟩ := h
  obtain ⟨hu, b, hb⟩ := k
  exact ⟨hu.trans ht, a ++ b, by rw [hb, ha, List.append_assoc]⟩

theorem kicksTaken {s t : State} (h : s.KicksStay t) : s.KicksTaken t := .inl ⟨h.taken, h.kicks⟩

end State.KicksStay

theorem State.Coasts.kicksStay {s t : State} (h : s.Coasts t) : s.KicksStay t := ⟨h.kicksRest.taken, h.kicks⟩

theorem stopLine_kicks (l : LineState) (s : State) : s.KicksStay (stopLine l s) := by
  refine .of_frame ?_ (by rw [stopLine_bu])
  rw [stopLine_fu]
  split <;> rfl

theorem printerDone_kicks (t : Tag) (r : PrintResult) (s : State) : s.KicksStay (printerDone t r s) := by
  unfold printerDone
  split
  · exact .of_frame rfl rfl
  · split
    · split
      · dsimp only
        split
        · exact .of_frame rfl rfl
        · exact .of_units (printFailed_fu _ _) (printFailed_bu _ _)
      · exact ((stopFault_coasts _ _ s).trans (withdraw_coasts _)).kicksStay
    · exact ((stopFault_coasts _ _ s).trans (withdraw_coasts _)).kicksStay

theorem printerMessage_kicks (kind : Byte) (payload : List Byte) (s : State) : s.KicksStay (printerMessage kind payload s) := by
  have herror (u : State) : u.KicksStay (countPrinterError u) := .of_frame rfl rfl
  unfold printerMessage
  split
  · exact .of_units (printerCleared_fu s) (printerCleared_bu s)
  · split
    · exact .of_units (printerTaken_fu _ s) (printerTaken_bu _ s)
    · exact herror s
  · split
    · exact printerDone_kicks _ _ s
    · split
      · exact printerDone_kicks _ _ s
      · exact herror s
  · exact herror s

theorem printerOctet_kicks (o : Byte) (s : State) : s.KicksStay (printerOctet o s) := by
  have hset : s.KicksStay (setPrinterReceive (portOctet o s.pp.receive).1 s) := .of_frame rfl rfl
  unfold printerOctet
  dsimp only
  split
  · exact hset
  · exact hset.trans (.of_frame rfl rfl)
  · exact hset.trans (printerMessage_kicks _ _ _)

/-! ## The records of the line link -/

theorem modifyBundle_coasts (o : Word16) (f : Bundle → Bundle) (s : State) : s.Coasts (modifyBundle o f s) :=
  .of_frame rfl rfl rfl rfl

theorem place_kicks (r : Record) (s : State) : s.KicksStay (place r s) := .of_frame rfl rfl

theorem setReceive_kicks (r : ReceiveState) (s : State) : s.KicksStay (setReceive r s) := .of_frame rfl rfl

theorem setBuffer_kicks (f : FrameBuffer → FrameBuffer) (s : State) : s.KicksStay (setBuffer f s) := .of_frame rfl rfl

theorem freeReceiving_kicks (s : State) : s.KicksStay (freeReceiving s) :=
  .of_units (freeReceiving_fu s) (freeReceiving_bu s)

theorem completeResolution_kicks (s : State) : s.KicksStay (completeResolution s) := by
  have hstart (u : State) : u.KicksStay (startResolver u) := .of_units (startResolver_fu u) (startResolver_bu u)
  have hvacant (i : Fin 16) (c : StagedCopy) (u : State) : u.KicksStay (planVacant i c u) := by
    have hcount : u.Coasts (countExcepted c.ordinal (place (vacantRecord c u.mu.pitch) u)) := .of_frame rfl rfl rfl rfl
    have hfreed (v : State) : v.Coasts (freeEntry i (freeText c.blocks v)) := .of_frame rfl rfl rfl rfl
    exact ((hcount.trans (testComplete_coasts c.ordinal _)).trans (hfreed _)).kicksStay
  unfold completeResolution
  split
  · exact .refl s
  · dsimp only
    have hidle : s.KicksStay { s with au := { s.au with resolver := none } } := .of_frame rfl rfl
    split
    · refine State.KicksStay.trans (hidle.trans ?_) (hstart _)
      split
      · exact .of_frame rfl rfl
      · split
        · exact .of_frame rfl rfl
        · exact hvacant _ _ _
    · exact hidle.trans (hstart _)

theorem ownCopy_kicks (payload : List Byte) (s : State) : s.KicksStay (ownCopy payload s).1 := by
  unfold ownCopy
  split
  · exact freeReceiving_kicks s
  · split
    · refine State.KicksStay.trans (.of_units (holdEntry_fu s) (holdEntry_bu s)) ?_
      exact .of_frame (by rw [acceptCopy_fu]) (by rw [acceptCopy_bu]; rfl)
    · exact .refl s

theorem endReceipt_kicks (s : State) : s.KicksStay (endReceipt s) := by
  unfold endReceipt
  split
  · exact .refl s
  · split
    · split
      · exact (((modifyBundle_coasts _ _ s).trans (raiseNotice_coasts _ _)).trans (testComplete_coasts _ _)).kicksStay
      · exact .of_frame rfl rfl
    · exact .refl s

theorem ownBundleOpen_kicks (payload : List Byte) (s : State) : s.KicksStay (ownBundleOpen payload s).1 := by
  unfold ownBundleOpen
  split
  · exact .refl s
  · exact (endReceipt_kicks s).trans (.of_frame rfl rfl)

theorem checkedWrite_kicks {checks : List (Nat × Bool)} {effect : State → State} {s : State} (h : s.KicksStay (effect s)) :
    s.KicksStay (checkedWrite checks effect s).1 := by
  unfold checkedWrite
  split
  exacts [.refl s, h]

theorem stoppedWrite_kicks {checks : List (Nat × Bool)} {effect : State → State} {s : State} (h : s.KicksStay (effect s)) :
    s.KicksStay (stoppedWrite checks effect s).1 := by
  unfold stoppedWrite
  split
  exacts [checkedWrite_kicks h, .refl s]

theorem recomputeStation_kicks (i : StationNo) (s : State) : s.KicksStay (recomputeStation i s) :=
  .of_frame (by rw [recomputeStation_fu]; rfl) (by rw [recomputeStation_bu])

theorem setStation_kicks (i : StationNo) (e : StationEntry) (s : State) : s.KicksStay (setStation i e s) := by
  have hput : s.KicksStay (putStation i e s) := .of_frame rfl rfl
  exact (hput.trans (recomputeStation_kicks i _)).trans (.of_frame rfl rfl)

theorem setCurve_kicks (k : Fin 4) (c : Curve) (s : State) : s.KicksStay (setCurve k c s) := by
  have hput (f : CurveSlot → CurveSlot) : s.KicksStay (putCurve k f s) := .of_frame rfl rfl
  unfold setCurve
  split
  · refine forStations_inv (fun t => s.KicksStay t) _ (fun i u hu => ?_) _ (hput _)
    split
    · exact hu.trans (recomputeStation_kicks i u)
    · exact hu
  · exact hput _

theorem ownTableWrite_kicks (payload : List Byte) (s : State) : s.KicksStay (ownTableWrite payload s).1 := by
  have howner (t : Table) (index : Nat) (entry : List Byte) : s.KicksStay (ownerWrite t index entry s).1 := by
    cases t with
    | station => exact stoppedWrite_kicks (setStation_kicks _ _ s)
    | curve => exact checkedWrite_kicks (setCurve_kicks _ _ s)
    | plan => exact checkedWrite_kicks (.of_units (setPlan_fu _ _ s) (setPlan_bu _ _ s))
    | outputMap => exact stoppedWrite_kicks (.of_frame rfl rfl)
    | lineProfile => exact stoppedWrite_kicks (.of_frame rfl rfl)
  unfold ownTableWrite
  split
  · exact .refl s
  · split
    · exact .refl s
    · split
      · exact .refl s
      · split
        · exact .refl s
        · split
          · exact howner _ _ _
          · exact .of_frame rfl rfl

theorem lineStart_kicks (s : State) : s.KicksStay (lineStart s).1 := by
  unfold lineStart
  split
  · exact .refl s
  · split
    · exact .refl s
    · split
      · exact .of_units (acceptStart_fu s) (acceptStart_bu s)
      · exact .refl s

theorem lineRunOut_kicks (s : State) : s.KicksStay (lineRunOut s).1 := by
  unfold lineRunOut
  split
  · split
    · exact .of_frame rfl rfl
    · exact stopLine_kicks _ s
  · exact .refl s

theorem lineStopNow_kicks (s : State) : s.KicksStay (lineStopNow s).1 := by
  unfold lineStopNow
  split
  exacts [stopLine_kicks _ s, .refl s]

theorem lineClearFault_kicks (s : State) : s.KicksStay (lineClearFault s).1 := by
  unfold lineClearFault
  split
  · exact .refl s
  · split
    · exact .refl s
    · split
      · exact .refl s
      · exact .of_frame rfl rfl

theorem lineSetOverride_kicks (payload : List Byte) (s : State) : s.KicksStay (lineSetOverride payload s).1 := by
  unfold lineSetOverride
  split
  exacts [.refl s, .of_frame rfl rfl]

/-- A run reset keeps the kicks that wait (R150). -/
theorem lineRunReset_kicks (s : State) : s.KicksStay (lineRunReset s).1 := by
  unfold lineRunReset
  split
  · exact .of_frame (by rw [lineOk, runResetAll_fu]; rfl) (by rw [lineOk, runResetAll_bu]; rfl)
  · exact .refl s

theorem ownLineCommand_kicks (payload : List Byte) (s : State) : s.KicksStay (ownLineCommand payload s).1 := by
  unfold ownLineCommand
  split
  · exact .refl s
  · split
    · exact lineStart_kicks s
    · exact (addHold_coasts _ s).kicksStay
    · exact (reduceHolds_coasts _ s).kicksStay
    · exact lineRunOut_kicks s
    · exact lineStopNow_kicks s
    · exact lineClearFault_kicks s
    · exact lineSetOverride_kicks payload s
    · exact lineRunReset_kicks s
    · exact .refl s

theorem takeFrame_kicks (kind : Byte) (payload : List Byte) (s : State) : s.KicksStay (takeFrame kind payload s) := by
  refine State.KicksStay.trans ?_ (place_kicks _ _)
  unfold ownFrame
  split
  · exact ownCopy_kicks payload s
  · exact ownBundleOpen_kicks payload s
  · exact ownTableWrite_kicks payload s
  · exact .refl s
  · exact ownLineCommand_kicks payload s
  · exact .refl s
  · unfold ownFlagClear; dsimp only; (repeat' split) <;> exact .of_frame rfl rfl
  · unfold ownNoticeMask; dsimp only; (repeat' split) <;> exact .of_frame rfl rfl
  · unfold ownProtect; dsimp only; (repeat' split) <;> exact .of_frame rfl rfl
  · exact .refl s

theorem takeHeld_kicks (s : State) : s.KicksStay (takeHeld s) := by
  unfold takeHeld
  split
  · exact (setReceive_kicks _ s).trans (takeFrame_kicks _ _ _)
  · exact .refl s

theorem finish_kicks (s : State) : s.KicksStay (finish s) :=
  (takeHeld_kicks s).trans ((reportBacklog_coasts _).trans (beginSending_coasts _)).kicksStay

theorem receiveOctet_kicks (o : Byte) (s : State) : s.KicksStay (receiveOctet o s) := by
  unfold receiveOctet
  split
  · split <;> exact .of_frame rfl rfl
  · split <;> exact .of_frame rfl rfl
  · dsimp only
    split
    · exact .of_units (reserveEntry_fu _) (reserveEntry_bu _)
    · exact .of_frame rfl rfl
  · dsimp only
    split <;> exact .of_frame rfl rfl
  · exact .of_frame rfl rfl
  · refine (setBuffer_kicks (fun b => { b with crcLow := o }) s).trans ?_
    unfold checkFrame
    split
    · unfold takeOrHold
      split
      · exact (setReceive_kicks _ _).trans (takeFrame_kicks _ _ _)
      · exact .of_frame rfl rfl
    · exact .of_units (discardCrc_fu _) (discardCrc_bu _)
  · exact .of_frame rfl rfl

theorem frameGap_kicks (s : State) : s.KicksStay (frameGap s) := by
  unfold frameGap
  split
  · exact .refl s
  · exact .refl s
  · exact .of_units (by simp) (by simp)

theorem arriveFrame_kicks (kind : Byte) (payload : List Byte) (s : State) : s.KicksStay (arriveFrame kind payload s) := by
  unfold arriveFrame
  split
  · exact .of_frame rfl rfl
  · have hentry : s.KicksStay (if kind = 0x01 then holdEntry s else s) := by
      split
      exacts [.of_units (holdEntry_fu s) (holdEntry_bu s), .refl s]
    dsimp only
    generalize (if kind = 0x01 then holdEntry s else s) = u at hentry ⊢
    refine hentry.trans ?_
    split
    · refine State.KicksStay.trans ?_ (takeFrame_kicks _ _ _)
      split
      exacts [setReceive_kicks _ _, .refl _]
    · unfold holdFrame
      refine State.KicksStay.trans ?_ ((setBuffer_kicks _ _).trans (setReceive_kicks _ _))
      split
      exacts [freeReceiving_kicks _, .refl _]

/-! ## Counts -/

/-- A count takes at most the oldest kick, with the pitch's record; at the boundary the record is cleared before. -/
def State.KicksOn (s t : State) : Prop :=
  s.KicksTaken t ∨
  t.mu.pitch = s.mu.pitch + 1 ∧
    ∃ u : State, (∃ more, u.bu.kicks = s.bu.kicks ++ more) ∧ u.fu.kickTaken = false ∧ u.KicksTaken t

theorem forwardCount_kicks (s : State) : s.KicksOn (forwardCount s) := by
  by_cases hin : s.mu.phase + 1 < s.mu.len
  · refine .inl ?_
    have hraise : s.KicksStay (raised s) :=
      .of_frame (raised_fu s).2.2.2.2.1 (congrArg BundleUnit.kicks (raised_units s).2.2.2.2.2.1)
    rw [forwardCount_inside hin]
    exact hraise.kicksTaken.trans (takeTasks_within true _).kicksTaken
  · have hend : forwardCount s = takeTasks true (bounded s) := forwardCount_boundary (Nat.not_lt.mp hin)
    have htasks := takeTasks_within true (bounded s)
    have hclosed : ∃ more, (closedOut (countForward s)).bu.kicks = s.bu.kicks ++ more := by
      obtain ⟨more, hmore⟩ := (closedOut_coasts (countForward s)).kicks
      exact ⟨more, by rw [hmore, (begun_units (countForward s)).2.2.2.1]; rfl⟩
    have hopened : (opened (countForward s)).bu = (closedOut (countForward s)).bu := by rw [opened, newPitchFiring_bu]
    have hbounded : ∃ more, (bounded s).bu.kicks = s.bu.kicks ++ more := by
      obtain ⟨a, ha⟩ := hclosed
      obtain ⟨b, hb⟩ := (bounded_coasts s).kicks
      exact ⟨a ++ b, by rw [hb, hopened, ha, List.append_assoc]⟩
    rw [hend]
    exact .inr ⟨htasks.toStops.pitch.trans (congrArg MotionTiming.pitch (bounded_timing s)), bounded s, hbounded,
      (bounded_kicks s).2.2, htasks.kicksTaken⟩

theorem reverseCount_kicks (s : State) : s.KicksOn (reverseCount s) := by
  have hlower : s.KicksStay (lowered s) := .of_frame rfl rfl
  exact .inl (hlower.kicksTaken.trans (takeTasks_within false _).kicksTaken)

theorem encoderState_kicks (a b : Bool) (s : State) : s.KicksOn (encoderState a b s) := by
  have hset : s.KicksTaken (setEncoder a b s) := (State.KicksStay.of_frame rfl rfl).kicksTaken
  unfold encoderState
  dsimp only
  split
  · exact .inl hset
  · split
    · exact .inl hset
    · exact forwardCount_kicks (setEncoder a b s)
    · exact reverseCount_kicks (setEncoder a b s)
    · refine .inl (hset.trans ?_)
      have hcount : (setEncoder a b s).KicksStay { setEncoder a b s with
          mu := { (setEncoder a b s).mu with motionErrors := bump (setEncoder a b s).mu.motionErrors } } := .of_frame rfl rfl
      exact (hcount.trans (stopFault_coasts .motion none _).kicksStay).kicksTaken

theorem simulatedTick_kicks (s : State) : s.KicksOn (simulatedTick s) := by
  unfold simulatedTick
  split
  · exact .inl (State.KicksStay.refl s).kicksTaken
  · exact forwardCount_kicks { s with mu := { s.mu with sim := s.mu.sim.issue } }

/-! ## Every command -/

theorem eventWork_kicks {work : State → State} (h : EventWork work) (s : State) : s.KicksOn (work s) := by
  have stay {t : State} (k : s.KicksStay t) : s.KicksOn t := .inl k.kicksTaken
  cases h with
  | encoder a b => exact encoderState_kicks a b s
  | simulated => exact simulatedTick_kicks s
  | windowEnd => exact stay (.of_frame rfl rfl)
  | reader v => exact stay (.of_units (readerArrival_fu _ _) (readerArrival_bu _ _))
  | readerDiscard => exact stay (.of_frame rfl rfl)
  | readerGap => exact stay (.of_units (readerGap_fu s) (readerGap_bu s))
  | readerOctet o => exact stay (.of_units (readerOctet_fu o s) (readerOctet_bu o s))
  | cleared => exact stay (.of_units (printerCleared_fu _) (printerCleared_bu _))
  | taken t => exact stay (.of_units (printerTaken_fu t _) (printerTaken_bu t _))
  | done t r =>
    have hset : s.KicksStay (setPrinterReceive .idle s) := .of_frame rfl rfl
    exact stay (hset.trans (printerDone_kicks t r _))
  | printerDiscard => exact stay (.of_frame rfl rfl)
  | printerGap =>
    refine stay ?_
    unfold printerGap
    split
    exacts [.refl s, .of_frame rfl rfl]
  | printerOctet o => exact stay (printerOctet_kicks o s)
  | printerSent => exact stay (.of_frame rfl rfl)
  | linkOctet o => exact stay (receiveOctet_kicks o s)
  | frameGap => exact stay (frameGap_kicks s)
  | held => exact stay (takeHeld_kicks s)
  | frame kind payload => exact stay (arriveFrame_kicks kind payload s)
  | resolution => exact stay (completeResolution_kicks s)
  | estop => exact stay (stopFault_coasts _ _ s).kicksStay
  | ready => exact stay (.refl s)
  | sent =>
    refine stay ?_
    unfold frameSent
    split
    exacts [.of_frame rfl rfl, .refl s]

/-- No command but power-on reset takes more than the oldest kick. -/
theorem exec_kicks {c : Instr} {s t : State} (h : exec c s = .next t) (hc : ∀ p a b, c ≠ .powerOnReset p a b) :
    s.KicksOn t := by
  rcases exec_cases c s with ⟨p, a, b, hpor, -⟩ | ⟨p, -, he⟩ | ⟨p, work, hw, he⟩
  · exact absurd hpor (hc p a b)
  · rw [← Host.Outcome.next.inj (he.symm.trans h)]
    exact .inl (State.KicksStay.of_frame rfl rfl).kicksTaken
  · rcases event_next p work s t (he.symm.trans h) with ⟨-, rfl⟩ | ⟨hres, rfl⟩
    · exact .inl (State.KicksStay.refl _).kicksTaken
    · have hend := (finish_kicks (work (setPins p s))).kicksTaken
      rcases eventWork_kicks hw (setPins p s) with hk | ⟨hpitch, u, hu, hfree, hk⟩
      · exact .inl (hk.trans hend)
      · obtain ⟨t, ht, htiming⟩ := event_timing p work s hres
        have htf : finish (work (setPins p s)) = t :=
          Host.Outcome.next.inj ((event_open p work s hres).symm.trans ht)
        refine .inr ⟨?_, u, hu, hfree, hk.trans hend⟩
        rw [htf]
        exact (congrArg MotionTiming.pitch htiming).trans hpitch

/-- Settles O49, the kicks by command. -/
theorem kicks_in_order (c : Instr) (s t : State) (h : exec c s = .next t) (hc : ∀ p a b, c ≠ .powerOnReset p a b) :
    ((∃ more, t.bu.kicks = s.bu.kicks ++ more) ∨
      t.fu.kickTaken = true ∧ ∃ tray more, s.bu.kicks ++ more = tray :: t.bu.kicks) ∧
    (s.fu.kickTaken = true → t.mu.pitch = s.mu.pitch →
      t.fu.kickTaken = true ∧ ∃ more, t.bu.kicks = s.bu.kicks ++ more) := by
  rcases exec_kicks h hc with (⟨htaken, hmore⟩ | ⟨hfree, htaken, hkick⟩) | ⟨hpitch, u, ⟨a, ha⟩, hfree, hk⟩
  · exact ⟨.inl hmore, fun hs _ => ⟨htaken.trans hs, hmore⟩⟩
  · exact ⟨.inr ⟨htaken, hkick⟩, fun hs => Bool.noConfusion (hfree.symm.trans hs)⟩
  · refine ⟨?_, fun _ hp => absurd (hpitch.symm.trans hp) (by simp)⟩
    rcases hk with ⟨-, b, hb⟩ | ⟨-, htaken, tray, b, hb⟩
    · exact .inl ⟨a ++ b, by rw [hb, ha, List.append_assoc]⟩
    · exact .inr ⟨htaken, tray, a ++ b, by rw [← hb, ha, List.append_assoc]⟩

/-- Settles O49, a close. -/
theorem bundles_close (s : State) (done rest : List Bundle) (ht : s.bu.table = done ++ rest)
    (hdone : ∀ b ∈ done, b.complete = true) (hrest : ∀ b, rest.head? = some b → b.complete = false) :
    (closeBundles s).bu.table = rest ∧
    (closeBundles s).ll.upstream = s.ll.upstream ++
      done.map (fun b => Record.bundleClose b.number b.expected b.delivered b.excepted b.truncated b.digest) ∧
    (closeBundles s).bu.kicks = s.bu.kicks ++ (done.filter (fun b => decide (0 < b.delivered))).map Bundle.trayBreak ∧
    (closeBundles s).bu.nextOrdinal = s.bu.nextOrdinal ∧
    (closeBundles s).au = s.au ∧ (closeBundles s).tu = s.tu ∧ (closeBundles s).lc = s.lc := by
  rw [closeBundles_split ht hdone hrest]
  exact ⟨rfl, rfl, rfl, rfl, rfl, rfl, rfl⟩

/-- Settles O49: a close in ordinal order, and the kicks by command. -/
theorem bundlesCloseInOrder : Obligations.BundlesCloseInOrder := ⟨bundles_close, kicks_in_order⟩

end Sys2Proof.Machine
end

section
/-! PROOFS. What the stations' work at a boundary leaves of the track, the make-up queue and staging. -/

namespace Sys2Proof.Machine

/-! ## The relations -/

/-- The track keeps its length and its gate, staging its entries, and the starved pitches their count. -/
structure State.Frames (s t : State) : Prop where
  len : t.trackLen = s.trackLen
  gate : t.tu.gate = s.tu.gate
  starved : t.tu.starved = s.tu.starved
  admitted : t.admitted = s.admitted

/-- A context without its print tag. -/
def Context.untagged (c : Context) : Context := { c with tag := none }

/-- The gate besides takes no decision, and the make-up queue loses no more than tags. -/
structure State.Carries (s t : State) : Prop extends State.Frames s t where
  decided : t.gm.decided = s.gm.decided
  ghosts : t.gm.ghostDiverts = s.gm.ghostDiverts
  queue : t.gm.queue.map Context.untagged = s.gm.queue.map Context.untagged

/-- Every position's content besides is kept. -/
structure State.Tends (s t : State) : Prop extends State.Carries s t where
  contents : s.ContentsKept t

theorem State.Frames.trans {s t u : State} (h : s.Frames t) (k : t.Frames u) : s.Frames u :=
  ⟨k.len.trans h.len, k.gate.trans h.gate, k.starved.trans h.starved, k.admitted.trans h.admitted⟩

theorem State.Frames.of_units {s t : State} (htu : t.tu = s.tu) (hau : t.admitted = s.admitted) : s.Frames t :=
  ⟨by rw [State.trackLen, htu, State.trackLen], by rw [htu], by rw [htu], hau⟩

theorem State.Carries.trans {s t u : State} (h : s.Carries t) (k : t.Carries u) : s.Carries u :=
  ⟨h.toFrames.trans k.toFrames, k.decided.trans h.decided, k.ghosts.trans h.ghosts, k.queue.trans h.queue⟩

theorem State.Carries.of_gm {s t : State} (h : s.Frames t) (hgm : t.gm = s.gm) : s.Carries t :=
  ⟨h, by rw [hgm], by rw [hgm], by rw [hgm]⟩

namespace State.Tends

theorem trans {s t u : State} (h : s.Tends t) (k : t.Tends u) : s.Tends u :=
  ⟨h.toCarries.trans k.toCarries, h.contents.trans k.contents⟩

theorem of_units {s t : State} (htu : t.tu = s.tu) (hgm : t.gm = s.gm) (hau : t.admitted = s.admitted) : s.Tends t :=
  ⟨.of_gm (.of_units htu hau) hgm, .of_tu htu⟩

/-- A change of other units alone. -/
theorem of_frame {s t : State} (htu : t.tu = s.tu) (hgm : t.gm = s.gm) (hau : t.au = s.au) : s.Tends t :=
  of_units htu hgm (admitted_of_au hau)

theorem refl (s : State) : s.Tends s := of_frame rfl rfl rfl

end State.Tends

/-! ## The stations' work -/

theorem State.Suspected.kept {s t : State} (h : s.Suspected t) : s.ContentsKept t := fun pos => by
  rcases h pos with hp | hp <;> rw [hp]
  · exact .refl _
  · exact .mapContext _ (fun c => .mark c .suspect) _

theorem modifyContext_tends (pos : Nat) (f : Context → Context) (hf : ∀ c : Context, c.Kept (f c)) (s : State) :
    s.Tends (modifyContext pos f s) :=
  ⟨.of_gm ⟨trackLen_modifyContext pos f s, rfl, rfl, rfl⟩ rfl, modifyContext_kept pos f hf s⟩

theorem markAt_tends (pos : Nat) (m : Mark) (s : State) : s.Tends (markAt pos m s) :=
  modifyContext_tends pos _ (fun c => .mark c m) s

theorem stopLine_tends (l : LineState) (s : State) : s.Tends (stopLine l s) :=
  ⟨.of_gm ⟨trackLen_of_map _ (stopLine_cores s l), by rw [stopLine_tu], by rw [stopLine_tu],
    admitted_of_au (stopLine_au l s)⟩ (stopLine_gm l s), (stopLine_suspected l s).kept⟩

theorem stopFault_tends (c : FaultCause) (st : Option StationNo) (s : State) : s.Tends (stopFault c st s) := by
  unfold stopFault
  split
  · exact .of_frame (by simp [furtherFault]) (by simp [furtherFault]) (by simp [furtherFault])
  · exact (stopLine_tends .faulted s).trans (.of_frame (by simp [beginEpisode]) (by simp [beginEpisode]) (by simp [beginEpisode]))

theorem withdraw_queue (s : State) : (withdraw s).gm = { s.gm with queue := s.gm.queue.map Context.untagged } :=
  congrArg State.gm (withdraw_eq s)

theorem withdraw_tends (s : State) : s.Tends (withdraw s) := by
  have hqueue : (s.gm.queue.map Context.untagged).map Context.untagged = s.gm.queue.map Context.untagged := by
    rw [List.map_map]; rfl
  exact ⟨⟨⟨withdraw_trackLen s, by rw [withdraw_tu], by rw [withdraw_tu], admitted_of_au (withdraw_au s)⟩,
    by rw [withdraw_queue], by rw [withdraw_queue], by rw [withdraw_queue, hqueue]⟩, withdraw_kept s⟩

/-- The stations' work keeps every context but for marks, tags and verify results. -/
theorem stationWork_tends : StationWork State.Tends where
  refl := .refl
  trans := .trans
  mark := markAt_tends
  check _ _ _ := .of_frame rfl rfl rfl
  stray _ _ := .of_frame rfl rfl rfl
  sample _ _ := .of_frame (by simp) (by simp) (by simp)
  trigger _ _ := .of_frame rfl rfl rfl
  hold _ _ := .of_frame (by simp) (by simp) (by simp)
  notice _ _ := .of_frame (by simp) (by simp) (by simp)
  fault := stopFault_tends
  withdraw := withdraw_tends

theorem reportTrackClear_tends (s : State) : s.Tends (reportTrackClear s) := by
  unfold reportTrackClear
  split
  exacts [stopLine_tends .stopped s, .refl s]

/-! ## The tasks of a count at which neither the gate nor the stack has a fire point -/

theorem setFireWork_tends (i : StationNo) (f : FireWork → FireWork) (s : State) : s.Tends (setFireWork i f s) :=
  .of_frame rfl rfl rfl

theorem takeFirePoint_tends {i : StationNo} {s : State} (hg : (s.station i).kind ≠ .gate) (hs : (s.station i).kind ≠ .stack) :
    s.Tends (takeFirePoint i s) := by
  have hflag : s.Tends (flagged i s) := setFireWork_tends i _ s
  have hset (o : PitchOutcome) (u : State) : u.Tends (setOutcome i o u) := setFireWork_tends i _ u
  have hpulse (u : State) : u.Tends (fireWithPulse i u) := .of_frame (by simp) (by simp) (by simp)
  refine hflag.trans ?_
  change (flagged i s).Tends (if (flagged i s).firing then fireInFiring i (flagged i s)
    else stationMissed i (setOutcome i .skipped (flagged i s)))
  split
  · unfold fireInFiring
    split
    · rename_i h; exact absurd h hg
    · rename_i h; exact absurd h hs
    · split
      · exact (hpulse _).trans (stationWork_tends.printFired i _)
      · exact hset _ _
    · split
      · exact hpulse _
      · exact hset _ _
  · exact (hset _ _).trans (stationWork_tends.stationMissed i _)

/-- Neither the gate nor the stack has a fire point at this count. -/
def State.NoGateStack (s : State) : Prop :=
  ∀ i, (s.station i).kind = .gate ∨ (s.station i).kind = .stack → s.fireDue i = false

theorem runTask_tends {forward : Bool} {s : State} (h : s.NoGateStack) (task : CountTask) :
    s.Tends (runTask forward s task) := by
  have hif {t : State} {c : Prop} [Decidable c] (ht : c → s.Tends t) : s.Tends (if c then t else s) := by
    split
    exacts [ht ‹_›, .refl s]
  cases task with
  | firePoint i =>
    refine hif fun hdue => ?_
    have hno (hk : (s.station i).kind = .gate ∨ (s.station i).kind = .stack) : False :=
      Bool.noConfusion ((h i hk).symm.trans hdue)
    exact takeFirePoint_tends (fun hk => hno (.inl hk)) fun hk => hno (.inr hk)
  | windowClose i => exact hif fun _ => stationWork_tends.closeWindow i s
  | caliper i => exact hif fun _ => stationWork_tends.caliperCount i s
  | jam i => exact hif fun _ => stationWork_tends.raiseJam i s

theorem NoGateStack_within {s t : State} (h : s.NoGateStack) (k : s.Within t) : t.NoGateStack := fun i hi =>
  Bool.eq_false_iff.mpr fun hdue => Bool.noConfusion ((h i (k.station i ▸ hi)).symm.trans (k.due_back hdue))

theorem takeTasks_tends {forward : Bool} {s : State} (h : s.NoGateStack) : s.Tends (takeTasks forward s) := by
  have hall := foldl_runTask_inv (fun u => s.Within u ∧ s.Tends u) forward
    (fun u task hu => ⟨hu.1.trans (runTask_within forward u task), hu.2.trans (runTask_tends (NoGateStack_within h hu.1) task)⟩)
    (orderTasks (Config.rank s.countIndex) (s.dueTasks forward)) s ⟨.refl s, .refl s⟩
  exact hall.2.trans (.of_frame rfl rfl rfl)

theorem CountEnds.tends {forward : Bool} {n t : State} (h : CountEnds forward n t) (hno : n.NoGateStack) : n.Tends t :=
  (takeTasks_tends hno).trans (.of_frame h.tu h.gm h.au)

/-! ## One station's turn in the close-out -/

/-- Marks alone change, and no unit of the stations. -/
structure State.MarksOnly (s t : State) : Prop extends State.Tends s t where
  fu : t.fu = s.fu
  cu : t.cu = s.cu

theorem State.MarksOnly.trans {s t u : State} (h : s.MarksOnly t) (k : t.MarksOnly u) : s.MarksOnly u :=
  ⟨h.toTends.trans k.toTends, k.fu.trans h.fu, k.cu.trans h.cu⟩

theorem State.MarksOnly.refl (s : State) : s.MarksOnly s := ⟨.refl s, rfl, rfl⟩

theorem foldl_marks {f : StationNo → State → State} (h : ∀ (i : StationNo) (s : State), s.MarksOnly (f i s))
    (l : List StationNo) (s : State) : s.MarksOnly (l.foldl (fun s i => f i s) s) := by
  induction l generalizing s with
  | nil => exact .refl s
  | cons i l ih => exact (h i s).trans (ih _)

theorem actionCloseOut_marks (i : StationNo) (s : State) : s.MarksOnly (actionCloseOut i s) := by
  refine ⟨stationWork_tends.actionCloseOut i s, ?_, ?_⟩ <;> unfold actionCloseOut <;> split <;> simp

theorem presenceCloseOut_marks (i : StationNo) (s : State) : s.MarksOnly (presenceCloseOut i s) := by
  refine ⟨stationWork_tends.presenceCloseOut i s, ?_, ?_⟩ <;> unfold presenceCloseOut <;> split <;> simp

/-- A context at which a station's turn adds SUSPECT carries it on. -/
theorem turn_suspects {f : StationNo → State → State} (h : ∀ (i : StationNo) (s : State), s.MarksOnly (f i s)) {i : StationNo}
    {s : State} {c : Context} (hc : s.contentAt (s.station i).offset = .copy c)
    (hturn : ∀ (u : State) (d : Context), s.MarksOnly u → u.contentAt (s.station i).offset = .copy d → d.values = c.values →
      (f i u).contentAt (s.station i).offset = .copy { d with marks := d.marks.add .suspect }) :
    ∃ d, (forStations f s).contentAt (s.station i).offset = .copy d ∧ c.Kept d ∧ d.marks.suspect = true := by
  obtain ⟨u, front, back, hall, hfront, -⟩ := forStations_turn f i s
  have hu : s.MarksOnly u := hfront ▸ foldl_marks h front s
  have hafter : (f i u).MarksOnly (forStations f s) := hall ▸ foldl_marks h back (f i u)
  have hbefore := hu.contents (s.station i).offset
  rw [hc] at hbefore
  obtain ⟨d, hd, hkept⟩ := hbefore
  have hlater := hafter.contents (s.station i).offset
  rw [hturn u d hu hd hkept.values] at hlater
  obtain ⟨e, he, hkept'⟩ := hlater
  exact ⟨e, he, hkept.trans ((Context.Kept.mark d .suspect).trans hkept'), hkept'.suspect rfl⟩

end Sys2Proof.Machine
end

section
/-! PROOFS. The boundary, part by part: the close-out with the stack and the gate, the shift and the release, and the rest. -/

namespace Sys2Proof.Machine

/-! ## The close-out of the stations (R64, R70, R77) -/

/-- The ended pitch closed out, but for the stack and the gate. -/
def judged (line : LineState) (s : State) : State :=
  forStations printCloseOut (checkCloseOut line.firing (forStations actionCloseOut s))

theorem closeOut_eq (line : LineState) (ended : PitchIndex) (s : State) :
    closeOut line ended s = gateCloseOut ended (stackCloseOut ended (judged line s)) := rfl

theorem judged_tends (line : LineState) (s : State) : s.Tends (judged line s) :=
  ((stationWork_tends.forStations stationWork_tends.actionCloseOut s).trans (stationWork_tends.checkCloseOut _ _)).trans
    (stationWork_tends.forStations stationWork_tends.printCloseOut _)

/-- The stations' work counts for no bundle. -/
theorem stationWork_bu : StationWork (fun s t => t.bu = s.bu) where
  refl _ := rfl
  trans h k := k.trans h
  mark _ _ _ := rfl
  check _ _ _ := rfl
  stray _ _ := rfl
  sample _ _ := by simp
  trigger _ _ := rfl
  hold _ _ := by simp
  notice _ _ := by simp
  fault _ _ _ := by simp
  withdraw _ := by simp

theorem judged_bu (line : LineState) (s : State) : (judged line s).bu = s.bu :=
  stationWork_bu.trans (stationWork_bu.trans (stationWork_bu.forStations stationWork_bu.actionCloseOut s)
    (stationWork_bu.checkCloseOut _ _)) (stationWork_bu.forStations stationWork_bu.printCloseOut _)

/-- A station that did not do what it should have done at a context in the pitch that ends. -/
def State.Missed (s : State) (i : StationNo) (c : Context) : Prop :=
  (s.fireWork i).fired = false ∧ (s.station i).Serves c ∨
  (s.checkWork i).windowClosed = false ∧ (s.station i).sensor ≠ none ∧
    ((s.station i).kind = .feed ∨ (s.station i).kind = .carrier ∨
      (s.station i).kind = .insert ∧ c.values.callsFor (s.station i).feeder = true)

theorem MarksOnly_station {s t : State} (h : s.MarksOnly t) (i : StationNo) : t.station i = s.station i :=
  station_of_tables (by rw [h.fu]) i

/-- The context of a station that missed it carries SUSPECT through the close-out. -/
theorem judged_suspects {line : LineState} {s : State} {i : StationNo} {c : Context}
    (hc : s.contentAt (s.station i).offset = .copy c) (h : s.Missed i c) :
    ∃ d, (judged line s).contentAt (s.station i).offset = .copy d ∧ c.Kept d ∧ d.marks.suspect = true := by
  generalize ha : forStations actionCloseOut s = a
  have haction : s.MarksOnly a := ha ▸ foldl_marks actionCloseOut_marks stationNos s
  have later {u : State} {d : Context} (hu : u.Tends (judged line s)) (hd : u.contentAt (s.station i).offset = .copy d)
      (hkept : c.Kept d) (hsus : d.marks.suspect = true) :
      ∃ e, (judged line s).contentAt (s.station i).offset = .copy e ∧ c.Kept e ∧ e.marks.suspect = true := by
    have hcontent := hu.contents (s.station i).offset
    rw [hd] at hcontent
    obtain ⟨e, he, hke⟩ := hcontent
    exact ⟨e, he, hkept.trans hke, hke.suspect hsus⟩
  have hcheck : a.Tends (judged line s) := by
    rw [judged, ha]
    exact (stationWork_tends.checkCloseOut _ _).trans (stationWork_tends.forStations stationWork_tends.printCloseOut _)
  rcases h with ⟨hfired, hserves⟩ | ⟨hopen, hsensor, hkind⟩
  · obtain ⟨d, hd, hkept, hsus⟩ := turn_suspects actionCloseOut_marks hc fun u d hu hd hv => by
      have hst := MarksOnly_station hu i
      have hserves' : (u.station i).Serves d := by rw [hst, StationEntry.Serves, hv]; exact hserves
      have hfired' : (u.fireWork i).fired = false := by rw [State.fireWork, hu.fu]; exact hfired
      rw [actionCloseOut_served (by rw [hst]; exact hd) hserves' hfired', hst]
      exact contentAt_markAt .suspect hd
    exact later hcheck (ha ▸ hd) hkept hsus
  · have hst := MarksOnly_station haction i
    have hcontent := haction.contents (s.station i).offset
    rw [hc] at hcontent
    obtain ⟨b, hb, hkb⟩ := hcontent
    obtain ⟨d, hd, hkept, hsus⟩ := turn_suspects (s := a) (i := i) (c := b) presenceCloseOut_marks (by rw [hst]; exact hb)
      fun u d hu hd hv => by
        have hst' : u.station i = s.station i := (MarksOnly_station hu i).trans hst
        have hopen' : (u.checkWork i).windowClosed = false := by
          rw [State.checkWork, hu.cu, haction.cu]; exact hopen
        rw [hst] at hd ⊢
        have hnot := (window_not_taken i u d (by rw [hst']; exact hd)).1 (by rw [hst']; exact hsensor) hopen'
          (by rw [hst', hv, hkb.values]; exact hkind)
        rw [hst'] at hnot
        exact hnot.1
    rw [hst] at hd
    have hrest : (forStations presenceCloseOut a).Tends (judged line s) := by
      rw [judged, ha]
      exact ((stationWork_tends.forStations stationWork_tends.abandonMeasurement _).trans
        (stationWork_tends.verifyJudgement _ _)).trans (stationWork_tends.forStations stationWork_tends.printCloseOut _)
    exact later hrest hd (hkb.trans hkept) hsus

/-! ## The stack's close-out (R143) -/

theorem setContent_frames (pos : Nat) (c : Content) (s : State) : s.Carries (setContent pos c s) :=
  .of_gm ⟨trackLen_setContent pos c s, rfl, rfl, rfl⟩ rfl

/-- A context lost at T − 1 leaves the other positions, the queue and staging. -/
theorem lose_carries (c : Context) (pitch : PitchIndex) (s : State) : s.Carries (lose c pitch s) ∧
    ∀ pos, pos + 1 < s.trackLen → (s.contentAt pos).Kept ((lose c pitch s).contentAt pos) := by
  generalize hw : setContent (s.trackLen - 1) .empty s = w
  generalize hx : testComplete c.copy.ordinal (exited (countExcepted c.copy.ordinal)
    (c.attempted.record .exception (some .lost) pitch) c s) = x
  have hexit : w.Tends x := by
    rw [← hx, ← hw]
    refine .of_units ((testComplete_tu _ _).trans rfl) ((testComplete_gm _ _).trans rfl) ?_
    exact exited_admitted _ _ _ _ fun _ => rfl
  have hafter : w.Tends (lose c pitch s) := by
    rw [lose_eq, hx]
    exact hexit.trans (reportTrackClear_tends x)
  refine ⟨(hw ▸ setContent_frames _ _ s : s.Carries w).trans hafter.toCarries, fun pos hpos => ?_⟩
  have hcontent := hafter.contents pos
  rwa [← hw, contentAt_setContent_other _ pos _ s (by omega)] at hcontent

theorem stackCloseOut_carries (ended : PitchIndex) (s : State) : s.Carries (stackCloseOut ended s) ∧
    ∀ pos, pos + 1 < s.trackLen → (s.contentAt pos).Kept ((stackCloseOut ended s).contentAt pos) := by
  unfold stackCloseOut
  split
  · rename_i c hc
    generalize hw : setContent (s.trackLen - 1) (.copy (c.mark .suspect)) s = w
    obtain ⟨hlose, hothers⟩ := lose_carries (c.mark .suspect) ended w
    have hset : s.Carries w := hw ▸ setContent_frames _ _ s
    refine ⟨hset.trans hlose, fun pos hpos => ?_⟩
    have hcontent := hothers pos (by rw [hset.len]; exact hpos)
    rwa [← hw, contentAt_setContent_other _ pos _ s (by omega), hw] at hcontent
  · exact ⟨(State.Tends.refl s).toCarries, fun _ _ => .refl _⟩

/-- What the retry limit and the mode of every bundle in the table meet. -/
def State.BundlesMeet (P : Nat → BundleMode → Prop) (s : State) : Prop := ∀ b ∈ s.bu.table, P b.retryLimit b.mode

theorem modifyBundle_meet {P : Nat → BundleMode → Prop} {s : State} (h : s.BundlesMeet P) (o : Word16) (f : Bundle → Bundle)
    (hf : ∀ b, (f b).retryLimit = b.retryLimit ∧ (f b).mode = b.mode := by intro; exact ⟨rfl, rfl⟩) :
    (modifyBundle o f s).BundlesMeet P := by
  intro b hb
  obtain ⟨d, hd, rfl⟩ := List.mem_map.mp hb
  split
  · rw [(hf d).1, (hf d).2]; exact h d hd
  · exact h d hd

theorem testComplete_meet {P : Nat → BundleMode → Prop} {o : Word16} {s : State} (h : s.BundlesMeet P) :
    (testComplete o s).BundlesMeet P := by
  unfold testComplete
  split
  · exact h
  · split
    · have hset := modifyBundle_meet h o (fun b => { b with complete := true })
      exact fun b hb => hset b ((List.dropWhile_suffix Bundle.complete).subset hb)
    · exact h

theorem stackCloseOut_meet {P : Nat → BundleMode → Prop} {ended : PitchIndex} {s : State} (h : s.BundlesMeet P) :
    (stackCloseOut ended s).BundlesMeet P := by
  unfold stackCloseOut
  split
  · rename_i c hc
    generalize hw : setContent (s.trackLen - 1) (.copy (c.mark .suspect)) s = w
    have hset : w.BundlesMeet P := hw ▸ h
    have hexit : (exited (countExcepted (c.mark .suspect).copy.ordinal)
        ((c.mark .suspect).attempted.record .exception (some .lost) ended) (c.mark .suspect) w).BundlesMeet P :=
      modifyBundle_meet hset (c.mark .suspect).copy.ordinal (fun b => { b with excepted := b.excepted + 1 })
    intro b hb
    rw [lose_eq, reportTrackClear_bu] at hb
    exact testComplete_meet hexit b hb
  · exact h

/-! ## The gate's close-out (R113) -/

theorem sweep_starved (o : Word16) (pitch : PitchIndex) (g : Nat) (s : State) :
    (sweep o pitch g s).tu.starved = s.tu.starved := by
  induction g generalizing s with
  | zero => rfl
  | succ g ih =>
    rw [sweep, ih]
    unfold sweepAt
    split
    · split <;> rfl
    · rfl

theorem reportTrackClear_starved (s : State) : (reportTrackClear s).tu.starved = s.tu.starved := (reportTrackClear_tends s).starved

theorem decideGate_starved (atFirePoint : Bool) (g : Nat) (pitch : PitchIndex) (s : State) :
    (decideGate atFirePoint g pitch s).2.tu.starved = s.tu.starved := by
  unfold decideGate
  split
  · rfl
  · rw [divertGhost, reportTrackClear_starved]; rfl
  · dsimp only
    split
    · rfl
    · unfold divert
      dsimp only
      split
      · rw [reportTrackClear_starved, exceptAtGate_tu]; rfl
      · rw [reportTrackClear_starved, sendToMakeUp, sweep_starved]; rfl

theorem gateCloseOut_decided {ended : PitchIndex} {s : State} (h : s.gm.decided = true) : gateCloseOut ended s = s := by
  unfold gateCloseOut
  split
  · rfl
  · exact if_pos h

theorem gateCloseOut_undecided {ended : PitchIndex} {s : State} {g : Nat} (hg : s.tu.gate = some g)
    (h : s.gm.decided = false) : gateCloseOut ended s = (decideGate false g ended s).2 := by
  rw [gateCloseOut, hg]
  exact if_neg fun hd => Bool.noConfusion (h.symm.trans hd)

theorem gateCloseOut_frames (ended : PitchIndex) (s : State) : s.Frames (gateCloseOut ended s) := by
  obtain ⟨⟨hgate, hlen, -⟩, -⟩ := gateCloseOut_spec s ended
  refine ⟨hlen, hgate, ?_, ?_⟩ <;> unfold gateCloseOut <;> split
  · rfl
  · split
    exacts [rfl, decideGate_starved _ _ _ _]
  · rfl
  · split
    exacts [rfl, decideGate_admitted _ _ _ _]

/-- A decision at the close-out passes nothing: g is empty behind it. -/
theorem gateCloseOut_empties {ended : PitchIndex} {s : State} {g : Nat} (hg : s.tu.gate = some g) (h : s.gm.decided = false) :
    (gateCloseOut ended s).contentAt g = .empty := by
  rw [gateCloseOut_undecided hg h]
  cases hc : s.contentAt g with
  | empty => rw [decideGate_empty hc]; exact hc
  | ghost t => rw [decideGate_ghost hc]; exact (divertGhost_spec s g).2.1
  | copy c =>
    have hdivert : (decideGate false g ended s).2 = divert (decisionMarks false g ended s c) g ended s := by
      simp only [decideGate, hc]; rfl
    rw [hdivert]
    exact (divert_spec s _ g ended).2.1

theorem gateCloseOut_ghost {ended : PitchIndex} {s : State} {g : Nat} (hg : s.tu.gate = some g) (h : s.gm.decided = false)
    (hc : (s.contentAt g).isGhost = true) :
    (gateCloseOut ended s).gm.ghostDiverts = min (s.gm.ghostDiverts + 1) 65535 := by
  rw [gateCloseOut_undecided hg h]
  cases hcontent : s.contentAt g with
  | ghost t => rw [decideGate_ghost hcontent, (ghost_diverted s).2.2.1]
  | empty => rw [hcontent] at hc; exact Bool.noConfusion hc
  | copy c => rw [hcontent] at hc; exact Bool.noConfusion hc

theorem decisionMarks_keeps (atFirePoint : Bool) (g : Nat) (pitch : PitchIndex) (s : State) (c : Context) :
    c.Kept (decisionMarks atFirePoint g pitch s c) := by
  have hmark (m : Mark) : c.Kept (c.mark m) := .mark c m
  have hconfirm : c.Kept (decisionMarks false g pitch s c) := by
    unfold decisionMarks
    simp only [Bool.false_and, Bool.false_eq_true, if_false]
    split
    · exact .refl c
    · split
      exacts [hmark _, .refl c]
  have hforced : decisionMarks atFirePoint g pitch s c = if atFirePoint && s.firing && s.fu.divertAll then
      (decisionMarks false g pitch s c).mark .forced else decisionMarks false g pitch s c := by
    simp only [decisionMarks, Bool.false_and, Bool.false_eq_true, if_false]
  rw [hforced]
  split
  exacts [hconfirm.trans (.mark _ _), hconfirm]

/-- A context within every bundle's limit is in the make-up queue behind the decision, one attempt more on it. -/
theorem gateCloseOut_copy {ended : PitchIndex} {s : State} {g : Nat} {c : Context} (hg : s.tu.gate = some g)
    (h : s.gm.decided = false) (hc : s.contentAt g = .copy c)
    (hmeet : s.BundlesMeet fun limit mode => c.faulted + 1 ≤ limit ∧ mode = .remake) :
    ∃ d ∈ (gateCloseOut ended s).gm.queue, d.copy = c.copy ∧ d.attempts = min (c.attempts + 1) 255 := by
  generalize hd : decisionMarks false g ended s c = d
  have hkept : c.Kept d := hd ▸ decisionMarks_keeps false g ended s c
  have hdivert : (decideGate false g ended s).2 = divert d g ended s := by
    simp only [decideGate, hc, hd]; rfl
  have hfaulted : d.diverted.faulted ≤ c.faulted + 1 := by
    have : d.diverted.faulted = if d.marks.hasFault then d.faulted + 1 else d.faulted := rfl
    rw [this, hkept.faulted]
    split <;> omega
  have hreason : (s.bundle d.copy.ordinal).bind (fun b => exceptionReason b d.diverted) = none := by
    cases hb : s.bundle d.copy.ordinal with
    | none => rfl
    | some b =>
      obtain ⟨hlimit, hmode⟩ := hmeet b (List.mem_of_find?_eq_some hb)
      rw [Option.bind_some, exceptionReason, if_neg (by omega), if_neg (by rw [hmode]; exact fun hs => nomatch hs.1)]
  have hqueue : (divert d g ended s).gm.queue =
      (sendToMakeUp d.diverted g ended (setContent g .empty s)).gm.queue := by
    simp only [divert, hreason, reportTrackClear_gm]
  refine ⟨d.diverted, ?_, hkept.copy, ?_⟩
  · rw [gateCloseOut_undecided hg h, hdivert, hqueue, sendToMakeUp, (sweep_units _ _ _ _).1]
    exact mem_foldl_insertContext.mpr (.inr (mem_insertContext.mpr (.inl rfl)))
  · exact congrArg bump255 hkept.attempts

/-! ## The shift and the release (R65 to R69) -/

theorem shiftTrack_frames (s : State) : s.Carries (shiftTrack s) := by
  have heq : shiftTrack s = { s with tu := { s.tu with track := (shiftTrack s).tu.track } } := by
    unfold shiftTrack; split <;> rfl
  refine .of_gm ⟨trackLen_shiftTrack s, ?_, ?_, ?_⟩ ?_ <;> rw [heq]
  rfl

theorem contentAt_shiftTrack_zero (s : State) : (shiftTrack s).contentAt 0 = .empty := by
  rw [contentAt_shiftTrack]; exact if_pos (.inl rfl)

theorem contentAt_shiftTrack_succ {s : State} {pos : Nat} (h : pos + 1 < s.trackLen) :
    (shiftTrack s).contentAt (pos + 1) = s.contentAt pos := by
  rw [contentAt_shiftTrack, if_neg (by omega)]
  rfl

/-- In every line state but RUNNING nothing is released. -/
theorem release_stopped {line : LineState} (h : line ≠ .running) (s : State) : release line s = clearStarvedRun s := if_neg h

theorem release_remake {s : State} {c : Context} {rest : List Context} (h : s.gm.queue = c :: rest) :
    release .running s = clearStarvedRun (setContent 0 (.copy (c.renewed .remake)) { s with gm := { s.gm with queue := rest } }) := by
  rw [release, if_pos rfl, releaseRunning, h]

theorem oldestEntry_some {s : State} {i : Fin 16} (h : s.au.order.head? = some i) :
    s.oldestEntry = some (i, s.au.staging[i]) := by rw [State.oldestEntry, h]; rfl

theorem release_first {s : State} {i : Fin 16} {c : StagedCopy} {v : PlanValues} (hq : s.gm.queue = [])
    (hi : s.au.order.head? = some i) (hv : s.au.staging[i] = .resolved c v) :
    release .running s = clearStarvedRun (setContent 0 (.copy (firstRelease c v)) (freeEntry i s)) := by
  rw [release, if_pos rfl, releaseRunning, hq]
  dsimp only
  rw [oldestEntry_some hi, hv]

theorem release_starved {s : State} (hq : s.gm.queue = [])
    (h : ∀ i c v, s.au.order.head? = some i → s.au.staging[i] ≠ .resolved c v) : release .running s = starvedPitch s := by
  rw [release, if_pos rfl, releaseRunning, hq]
  dsimp only
  split
  · rename_i i c v hold
    obtain ⟨j, hj, hold⟩ := Option.map_eq_some_iff.mp hold
    obtain ⟨rfl, hv⟩ := Prod.mk.inj hold
    exact absurd hv (h j c v hj)
  · rfl

/-- What every release leaves: the positions above 0, and the gate. -/
theorem release_leaves (line : LineState) (s : State) : (release line s).trackLen = s.trackLen ∧
    (release line s).gm.ghostDiverts = s.gm.ghostDiverts ∧
    ∀ pos, (release line s).contentAt (pos + 1) = s.contentAt (pos + 1) := by
  have hset (c : Content) (u : State) (htu : u.tu = s.tu) :
      (clearStarvedRun (setContent 0 c u)).trackLen = s.trackLen ∧
      ∀ pos, (clearStarvedRun (setContent 0 c u)).contentAt (pos + 1) = s.contentAt (pos + 1) :=
    ⟨(trackLen_setContent 0 c u).trans (by rw [State.trackLen, htu, State.trackLen]), fun pos =>
      (contentAt_setContent_other 0 (pos + 1) c u (Nat.succ_ne_zero pos)).trans (contentAt_of_tu htu _)⟩
  by_cases hl : line = .running
  · subst hl
    cases hq : s.gm.queue with
    | cons c rest =>
      obtain ⟨hlen, hcontent⟩ := hset (.copy (c.renewed .remake)) { s with gm := { s.gm with queue := rest } } rfl
      rw [release_remake hq]
      exact ⟨hlen, rfl, hcontent⟩
    | nil =>
      by_cases hfirst : ∃ i c v, s.au.order.head? = some i ∧ s.au.staging[i] = .resolved c v
      · obtain ⟨i, c, v, hi, hv⟩ := hfirst
        obtain ⟨hlen, hcontent⟩ := hset (.copy (firstRelease c v)) (freeEntry i s) rfl
        rw [release_first hq hi hv]
        exact ⟨hlen, rfl, hcontent⟩
      · rw [release_starved hq fun i c v hi hv => hfirst ⟨i, c, v, hi, hv⟩]
        unfold starvedPitch
        dsimp only
        split
        · exact ⟨rfl, rfl, fun _ => rfl⟩
        · exact ⟨by rw [State.trackLen, raiseNotice_tu]; rfl, by rw [raiseNotice_gm],
            fun pos => (contentAt_of_tu (raiseNotice_tu _ _) _).trans rfl⟩
  · rw [release_stopped hl]
    exact ⟨rfl, rfl, fun _ => rfl⟩

/-! ## Behind the release -/

theorem makeJob_tends (lead : Nat) (c : Context) (s : State) : s.Tends (makeJob lead c s) := by
  have htag (u : State) : u.Tends (modifyContext lead (fun c => { c with tag := some s.pp.nextTag }) u) :=
    modifyContext_tends lead (fun c => { c with tag := some s.pp.nextTag })
      (fun _ => by exact ⟨rfl, rfl, rfl, rfl, rfl, rfl, id⟩) u
  have hport (p : PrinterPort) : s.Tends { s with pp := p } := .of_frame rfl rfl rfl
  exact (hport _).trans (htag _)

theorem newPitchChecks_tends (s : State) : s.Tends (newPitchChecks s) := .of_frame (by simp) (by simp) (by simp)

theorem senseCount_tends (s : State) : s.Tends (senseCount s) := .of_frame (by simp) (by simp) (by simp)

theorem dispatchJob_tends (s : State) : s.Tends (dispatchJob s) := by
  unfold dispatchJob
  split
  · exact .refl s
  · split
    · exact .refl s
    · dsimp only
      split
      · split
        · exact markAt_tends _ _ s
        · split
          · exact makeJob_tends _ _ s
          · exact (stopFault_tends _ _ s).trans (markAt_tends _ _ _)
      · exact .refl s

theorem bounded_tends (s : State) :
    (newPitchGate (release s.lc.line (shiftTrack (opened (countForward s))))).Tends (bounded s) := by
  have hline : (countForward s).lc.line = s.lc.line := rfl
  rw [bounded, pitchBoundary_eq, hline]
  exact ((dispatchJob_tends _).trans (newPitchChecks_tends _)).trans (senseCount_tends _)

end Sys2Proof.Machine
end

section
/-! PROOFS. The boundary as one event: the track shifts and the feed releases, and the gate is closed out. -/

namespace Sys2Proof.Machine

/-! ## The states of one boundary -/

theorem Content.Kept.ghost {x y : Content} (h : x.Kept y) (hx : x.isGhost = true) : y.isGhost = true := by
  cases x with
  | ghost u => exact h
  | empty => exact Bool.noConfusion hx
  | copy d => exact Bool.noConfusion hx

theorem Content.Kept.empty {x y : Content} (h : x.Kept y) (hx : x = .empty) : y = .empty := by
  subst hx; exact h

/-- What the boundary of `s` passes through: the pitch closed out at the stations (`j`), at the stack (`k`) and at the
gate (`c`), and the fire points of the new pitch computed (`o`). -/
structure Boundary (s j k c o : State) : Prop where
  settles : s.Tends j
  bundles : j.bu = s.bu
  suspects : ∀ (i : StationNo) (x : Context), s.contentAt (s.station i).offset = .copy x → s.Missed i x →
    ∃ d, j.contentAt (s.station i).offset = .copy d ∧ x.Kept d ∧ d.marks.suspect = true
  stackClosed : k = stackCloseOut s.mu.pitch j
  gateClosed : c = gateCloseOut s.mu.pitch k
  opens : c.Tends o
  track : o.tu = c.tu

/-- The feed released for the pitch that begins, and the gate-decided flag cleared. -/
def released (s o : State) : State := newPitchGate (release s.lc.line (shiftTrack o))

theorem judged_settles {s b j : State} (hb : begun (countForward s) = b) (hj : judged s.lc.line b = j) :
    s.Tends j ∧ j.bu = s.bu ∧ ∀ (i : StationNo) (x : Context), s.contentAt (s.station i).offset = .copy x → s.Missed i x →
      ∃ d, j.contentAt (s.station i).offset = .copy d ∧ x.Kept d ∧ d.marks.suspect = true := by
  obtain ⟨-, hfu, -, hbu, htu, hau, hgm, hcu⟩ := begun_units (countForward s)
  rw [hb] at hfu hbu htu hau hgm hcu
  have hbegun : s.Tends b := .of_frame htu hgm hau
  have hst (i : StationNo) : b.station i = s.station i := station_of_tables (congrArg FiringUnit.stations hfu) i
  refine ⟨hj ▸ hbegun.trans (judged_tends _ _), hj ▸ (judged_bu _ _).trans hbu, fun i x hx hmiss => ?_⟩
  have hmiss' : b.Missed i x := by
    rw [State.Missed, hst, State.fireWork, State.checkWork, hfu, hcu]
    exact hmiss
  have hx' : b.contentAt (b.station i).offset = .copy x := by
    rw [hst]
    exact (contentAt_of_tu htu _).trans hx
  rw [← hst, ← hj]
  exact judged_suspects hx' hmiss'

theorem boundary_passes (s : State) : ∃ j k c o, Boundary s j k c o ∧ (released s o).Tends (bounded s) := by
  have hend : (released s (opened (countForward s))).Tends (bounded s) := bounded_tends s
  have hopened : opened (countForward s) = newPitchFiring (closedOut (countForward s)) := rfl
  have hclosed : closedOut (countForward s) = closeOut s.lc.line s.mu.pitch (begun (countForward s)) := rfl
  generalize hb : begun (countForward s) = b at hclosed
  generalize hj : judged s.lc.line b = j
  rw [closeOut_eq, hj] at hclosed
  obtain ⟨hsettles, hbundles, hsuspects⟩ := judged_settles hb hj
  generalize closedOut (countForward s) = c at hclosed hopened
  generalize opened (countForward s) = o at hopened hend
  refine ⟨j, _, c, o, ⟨hsettles, hbundles, hsuspects, rfl, hclosed, ?_, ?_⟩, hend⟩ <;> rw [hopened]
  · exact .of_frame (newPitchFiring_tu c) (newPitchFiring_gm c) (newPitchFiring_au c)
  · exact newPitchFiring_tu c

namespace Boundary

variable {s j k c o : State}

/-! ## The close-out -/

theorem stack_carries (h : Boundary s j k c o) : s.Carries k ∧
    ∀ pos, pos + 1 < s.trackLen → (s.contentAt pos).Kept (k.contentAt pos) := by
  obtain ⟨hcarries, hkept⟩ := stackCloseOut_carries s.mu.pitch j
  rw [← h.stackClosed] at hcarries hkept
  exact ⟨h.settles.toCarries.trans hcarries, fun pos hpos =>
    (h.settles.contents pos).trans (hkept pos (h.settles.len ▸ hpos))⟩

theorem frames (h : Boundary s j k c o) : s.Frames c := by
  rw [h.gateClosed]
  exact h.stack_carries.1.toFrames.trans (gateCloseOut_frames _ k)

theorem gate_of_decided (h : Boundary s j k c o) (hd : s.gm.decided = true) : c = k :=
  h.gateClosed.trans (gateCloseOut_decided (h.stack_carries.1.decided.trans hd))

theorem suspects_closed (h : Boundary s j k c o) (hd : s.gm.decided = true) {i : StationNo} {x : Context}
    (hlen : (s.station i).offset + 1 < s.trackLen) (hx : s.contentAt (s.station i).offset = .copy x) (hmiss : s.Missed i x) :
    ∃ d, c.contentAt (s.station i).offset = .copy d ∧ d.marks.suspect = true := by
  obtain ⟨d, hd', -, hsus⟩ := h.suspects i x hx hmiss
  have hkept := (stackCloseOut_carries s.mu.pitch j).2 _ (h.settles.len.symm ▸ hlen)
  rw [← h.stackClosed, ← h.gate_of_decided hd, hd'] at hkept
  obtain ⟨e, he, hke⟩ := hkept
  exact ⟨e, he, hke.suspect hsus⟩

section Undecided

variable {g : Nat} (h : Boundary s j k c o) (hd : s.gm.decided = false) (hg : s.tu.gate = some g)
include h hd hg

theorem gate_stands : k.tu.gate = some g ∧ k.gm.decided = false :=
  ⟨h.stack_carries.1.gate.trans hg, h.stack_carries.1.decided.trans hd⟩

theorem gate_empties : c.contentAt g = .empty := by
  rw [h.gateClosed]
  exact gateCloseOut_empties (h.gate_stands hd hg).1 (h.gate_stands hd hg).2

theorem gate_ghost (hlen : g + 1 < s.trackLen) (hghost : (s.contentAt g).isGhost = true) :
    c.gm.ghostDiverts = min (s.gm.ghostDiverts + 1) 65535 := by
  obtain ⟨hgate, hopen⟩ := h.gate_stands hd hg
  rw [h.gateClosed, gateCloseOut_ghost hgate hopen ((h.stack_carries.2 g hlen).ghost hghost), h.stack_carries.1.ghosts]

theorem gate_copy {x : Context} (hlen : g + 1 < s.trackLen) (hx : s.contentAt g = .copy x)
    (hmeet : ∀ b ∈ s.bu.table, x.faulted + 1 ≤ b.retryLimit ∧ b.mode = .remake) :
    ∃ d ∈ c.gm.queue, d.copy = x.copy ∧ d.attempts = min (x.attempts + 1) 255 := by
  obtain ⟨hgate, hopen⟩ := h.gate_stands hd hg
  have hkept := h.stack_carries.2 g hlen
  rw [hx] at hkept
  obtain ⟨d, hd', hkd⟩ := hkept
  have hmeet' : k.BundlesMeet fun limit mode => d.faulted + 1 ≤ limit ∧ mode = .remake := by
    rw [h.stackClosed]
    exact stackCloseOut_meet (by rw [State.BundlesMeet, h.bundles, hkd.faulted]; exact hmeet)
  obtain ⟨e, he, hcopy, hattempts⟩ := gateCloseOut_copy (ended := s.mu.pitch) hgate hopen hd' hmeet'
  exact ⟨e, h.gateClosed ▸ he, hcopy.trans hkd.copy, by rw [hattempts, hkd.attempts]⟩

end Undecided

/-! ## The shift and the release -/

theorem shift_carries (h : Boundary s j k c o) : c.Carries (shiftTrack o) := h.opens.toCarries.trans (shiftTrack_frames o)

theorem shift_frames (h : Boundary s j k c o) : s.Frames (shiftTrack o) := h.frames.trans h.shift_carries.toFrames

theorem shift_au (h : Boundary s j k c o) :
    (shiftTrack o).au.order = s.au.order ∧ (shiftTrack o).au.staging = s.au.staging :=
  ⟨(congrArg AdmissionUnit.order h.shift_frames.admitted :), (congrArg AdmissionUnit.staging h.shift_frames.admitted :)⟩

theorem shift_queue (h : Boundary s j k c o) (hd : s.gm.decided = true) :
    (shiftTrack o).gm.queue.map Context.untagged = s.gm.queue.map Context.untagged := by
  rw [h.shift_carries.queue, h.gate_of_decided hd, h.stack_carries.1.queue]

theorem contentAt_released (h : Boundary s j k c o) {pos : Nat} (hpos : pos + 1 < s.trackLen) :
    (released s o).contentAt (pos + 1) = c.contentAt pos := by
  have hlen : pos + 1 < o.trackLen := by rw [h.opens.len, h.frames.len]; exact hpos
  calc (released s o).contentAt (pos + 1) = (shiftTrack o).contentAt (pos + 1) := (release_leaves s.lc.line (shiftTrack o)).2.2 pos
    _ = o.contentAt pos := contentAt_shiftTrack_succ hlen
    _ = c.contentAt pos := contentAt_of_tu h.track pos

theorem released_len (h : Boundary s j k c o) : (released s o).trackLen = s.trackLen :=
  (release_leaves s.lc.line (shiftTrack o)).1.trans h.shift_frames.len

theorem released_ghosts (h : Boundary s j k c o) : (released s o).gm.ghostDiverts = c.gm.ghostDiverts :=
  (release_leaves s.lc.line (shiftTrack o)).2.1.trans h.shift_carries.ghosts

/-- Outside RUNNING position 0 stays vacant. -/
theorem released_stopped (h : Boundary s j k c o) (hl : s.lc.line ≠ .running) : (released s o).contentAt 0 = .empty ∧
    (released s o).au.order = s.au.order ∧ (released s o).tu.starved = s.tu.starved ∧
    (released s o).gm.queue = (shiftTrack o).gm.queue := by
  rw [released, release_stopped hl]
  exact ⟨contentAt_shiftTrack_zero o, h.shift_au.1, h.shift_frames.starved, rfl⟩

theorem shift_pos (h : Boundary s j k c o) (hlen : 1 ≤ s.trackLen) : 0 < (shiftTrack o).trackLen := by
  rw [h.shift_frames.len]; exact hlen

theorem released_first (h : Boundary s j k c o) {i : Fin 16} {x : StagedCopy} {v : PlanValues} (hlen : 1 ≤ s.trackLen)
    (hl : s.lc.line = .running) (hq : (shiftTrack o).gm.queue = []) (hi : s.au.order.head? = some i)
    (hv : s.au.staging[i] = .resolved x v) :
    (released s o).contentAt 0 = .copy (firstRelease x v) ∧ (released s o).au.staging[i] = .free := by
  obtain ⟨horder, hstaging⟩ := h.shift_au
  have hpos := h.shift_pos hlen
  rw [← horder] at hi
  rw [← hstaging] at hv
  rw [released, hl]
  generalize shiftTrack o = u at hi hv hq hpos
  rw [release_first hq hi hv]
  exact ⟨contentAt_setContent_self 0 _ (freeEntry i u) hpos, freeEntry_staging i u⟩

theorem released_remake (h : Boundary s j k c o) {x : Context} {rest : List Context} (hlen : 1 ≤ s.trackLen)
    (hl : s.lc.line = .running) (hq : (shiftTrack o).gm.queue = x :: rest) :
    (released s o).contentAt 0 = .copy (x.renewed .remake) ∧ (released s o).gm.queue = rest := by
  have hpos := h.shift_pos hlen
  rw [released, hl]
  generalize shiftTrack o = u at hq hpos
  rw [release_remake hq]
  exact ⟨contentAt_setContent_self 0 _ { u with gm := { u.gm with queue := rest } } hpos, rfl⟩

/-! ## The end of the boundary event -/

variable {t : State}

theorem moves_up (h : Boundary s j k c o) (hall : (released s o).Tends t) (hd : s.gm.decided = true) {pos : Nat}
    (hlen : pos + 1 < s.trackLen) : (s.contentAt pos).Kept (t.contentAt (pos + 1)) := by
  have hkept := hall.contents (pos + 1)
  rw [h.contentAt_released hlen, h.gate_of_decided hd] at hkept
  exact (h.stack_carries.2 pos hlen).trans hkept

/-- A context below T − 1 moves up with its counts, and with SUSPECT where a station missed it. -/
theorem copy_moves (h : Boundary s j k c o) (hall : (released s o).Tends t) (hd : s.gm.decided = true) {pos : Nat} {x : Context}
    (hlen : pos + 1 < s.trackLen) (hx : s.contentAt pos = .copy x) :
    ∃ d, t.contentAt (pos + 1) = .copy d ∧ x.Kept d ∧
      ∀ i, (s.station i).offset = pos → s.Missed i x → d.marks.suspect = true := by
  have hkept := h.moves_up hall hd hlen
  rw [hx] at hkept
  obtain ⟨d, hd', hkd⟩ := hkept
  refine ⟨d, hd', hkd, fun i hi hmiss => ?_⟩
  subst hi
  obtain ⟨e, he, hsus⟩ := h.suspects_closed hd hlen hx hmiss
  have hlater := hall.contents ((s.station i).offset + 1)
  rw [h.contentAt_released hlen, he, hd'] at hlater
  obtain ⟨d', hdd, hkept'⟩ := hlater
  obtain rfl := Content.copy.inj hdd
  exact hkept'.suspect hsus

theorem first_released (h : Boundary s j k c o) (hall : (released s o).Tends t) (hd : s.gm.decided = true)
    (hlen : 1 ≤ s.trackLen) {i : Fin 16} {x : StagedCopy} {v : PlanValues} (hl : s.lc.line = .running) (hq : s.gm.queue = [])
    (hi : s.au.order.head? = some i) (hv : s.au.staging[i] = .resolved x v) :
    t.au.staging[i] = .free ∧ ∃ d, t.contentAt 0 = .copy d ∧ (firstRelease x v).Kept d := by
  have hempty : (shiftTrack o).gm.queue = [] := by
    have hqueue := h.shift_queue hd
    rw [hq] at hqueue
    exact List.map_eq_nil_iff.mp hqueue
  obtain ⟨hzero, hfree⟩ := h.released_first hlen hl hempty hi hv
  have hstaging : t.au.staging = (released s o).au.staging := (congrArg AdmissionUnit.staging hall.admitted :)
  have hcontent := hall.contents 0
  rw [hzero] at hcontent
  exact ⟨by rw [hstaging]; exact hfree, hcontent⟩

theorem remake_released (h : Boundary s j k c o) (hall : (released s o).Tends t) (hd : s.gm.decided = true)
    (hlen : 1 ≤ s.trackLen) {x : Context} {rest : List Context} (hl : s.lc.line = .running) (hq : s.gm.queue = x :: rest) :
    t.gm.queue.map Context.copy = rest.map Context.copy ∧
    ∃ d, t.contentAt 0 = .copy d ∧ (x.renewed .remake).Kept d := by
  have hshift := h.shift_queue hd
  rw [hq, List.map_cons] at hshift
  obtain ⟨e, rest', hqueue, huntag, hrest⟩ := List.map_eq_cons_iff.mp hshift
  obtain ⟨hzero, hreleased⟩ := h.released_remake hlen hl hqueue
  have hcopies (l : List Context) : l.map Context.copy = (l.map Context.untagged).map Context.copy := by
    rw [List.map_map]; rfl
  have hrenew : e.renewed .remake = x.renewed .remake := (congrArg (Context.renewed · .remake) huntag :)
  have hcontent := hall.contents 0
  rw [hzero, hrenew] at hcontent
  exact ⟨by rw [hcopies, hall.queue, hreleased, hrest, ← hcopies], hcontent⟩

/-- Position g is emptied before the shift where the gate had not decided. -/
theorem undecided (h : Boundary s j k c o) (hall : (released s o).Tends t) {g : Nat} (hd : s.gm.decided = false)
    (hg : s.tu.gate = some g) (hlen : g + 1 < s.trackLen) : t.contentAt (g + 1) = .empty := by
  have hcontent := hall.contents (g + 1)
  rwa [h.contentAt_released hlen, h.gate_empties hd hg] at hcontent

theorem diverted (h : Boundary s j k c o) (hall : (released s o).Tends t) {g : Nat} {x : Context} (hd : s.gm.decided = false)
    (hg : s.tu.gate = some g) (hlen : g + 1 < s.trackLen) (hl : s.lc.line ≠ .running) (hx : s.contentAt g = .copy x)
    (hmeet : ∀ b ∈ s.bu.table, x.faulted + 1 ≤ b.retryLimit ∧ b.mode = .remake) :
    ∃ d ∈ t.gm.queue, d.copy = x.copy ∧ d.attempts = min (x.attempts + 1) 255 := by
  obtain ⟨d, hmem, hcopy, hattempts⟩ := h.gate_copy hd hg hlen hx hmeet
  have hqueue : t.gm.queue.map Context.untagged = c.gm.queue.map Context.untagged := by
    rw [hall.queue, (h.released_stopped hl).2.2.2, h.shift_carries.queue]
  have hmem' : d.untagged ∈ t.gm.queue.map Context.untagged := by rw [hqueue]; exact List.mem_map_of_mem hmem
  obtain ⟨e, he, huntag⟩ := List.mem_map.mp hmem'
  have hecopy : e.copy = d.copy := (congrArg Context.copy huntag :)
  have heattempts : e.attempts = d.attempts := (congrArg Context.attempts huntag :)
  exact ⟨e, he, hecopy.trans hcopy, heattempts.trans hattempts⟩

theorem stopped (h : Boundary s j k c o) (hall : (released s o).Tends t) (hl : s.lc.line ≠ .running) :
    t.contentAt 0 = .empty ∧ t.au.order = s.au.order ∧ t.tu.starved = s.tu.starved := by
  obtain ⟨hzero, horder, hstarved, -⟩ := h.released_stopped hl
  have hcontent := hall.contents 0
  rw [hzero] at hcontent
  have hlater : t.au.order = (released s o).au.order := (congrArg AdmissionUnit.order hall.admitted :)
  exact ⟨hcontent, hlater.trans horder, hall.starved.trans hstarved⟩

end Boundary

/-! ## The shift and the release by themselves -/

/-- Settles O34, the shift. -/
theorem shift_moves (s : State) (_ : 1 ≤ s.trackLen) :
    (shiftTrack s).trackLen = s.trackLen ∧ (shiftTrack s).contentAt 0 = .empty ∧
    (∀ pos, pos + 1 < s.trackLen → (shiftTrack s).contentAt (pos + 1) = s.contentAt pos) ∧
    shiftTrack s = { s with tu := { s.tu with track := (shiftTrack s).tu.track } } :=
  ⟨trackLen_shiftTrack s, contentAt_shiftTrack_zero s, fun _ => contentAt_shiftTrack_succ, by unfold shiftTrack; split <;> rfl⟩

/-- Settles O34, the release. -/
theorem release_fills (s : State) (line : LineState) (hlen : 1 ≤ s.trackLen) :
    (line ≠ .running → release line s = { s with tu := { s.tu with starvedRun := false } }) ∧
    (∀ c rest, line = .running → s.gm.queue = c :: rest →
      (release line s).contentAt 0 = .copy { c with
        origin := .remake, marks := MarkSet.empty, tag := none, verifyResult := none } ∧
      (release line s).gm.queue = rest ∧ (release line s).au = s.au ∧ (release line s).tu.starvedRun = false) ∧
    (∀ i c v, line = .running → s.gm.queue = [] → s.au.order.head? = some i → s.au.staging[i] = .resolved c v →
      (release line s).contentAt 0 = .copy { copy := c, values := v, origin := .main, attempts := 0, faulted := 0
                                             marks := MarkSet.empty, tag := none, verifyResult := none } ∧
      (release line s).au.staging[i] = .free ∧ i ∉ (release line s).au.order ∧
      (release line s).au.blocksUsed = s.au.blocksUsed) ∧
    (line = .running → s.gm.queue = [] → (∀ i c v, s.au.order.head? = some i → s.au.staging[i] ≠ .resolved c v) →
      (release line s).tu.track = s.tu.track ∧ (release line s).tu.starved = min (s.tu.starved + 1) 65535 ∧
      (release line s).tu.starvedRun = true ∧ (release line s).au = s.au ∧
      (s.tu.starvedRun = true → (release line s).ll = s.ll) ∧
      (s.tu.starvedRun = false → (release line s).ll.flags.getLsbD 10 = true)) := by
  refine ⟨fun h => release_stopped h s, fun c rest hl hq => ?_, fun i c v hl hq hi hv => ?_, fun hl hq hno => ?_⟩
  · rw [hl, release_remake hq]
    exact ⟨contentAt_setContent_self 0 _ { s with gm := { s.gm with queue := rest } } hlen, rfl, rfl, rfl⟩
  · rw [hl, release_first hq hi hv]
    refine ⟨contentAt_setContent_self 0 _ (freeEntry i s) hlen, freeEntry_staging i s, fun hmem => ?_, rfl⟩
    have hmem' : i ∈ s.au.order.filter (fun j => decide (j ≠ i)) := hmem
    simp at hmem'
  · rw [hl, release_starved hq hno, starvedPitch]
    cases hrun : s.tu.starvedRun with
    | true => exact ⟨rfl, rfl, rfl, rfl, fun _ => rfl, fun h => Bool.noConfusion h⟩
    | false =>
      rw [if_neg Bool.false_ne_true, raiseNotice_tu, raiseNotice_au]
      refine ⟨rfl, rfl, rfl, rfl, fun h => Bool.noConfusion h, fun _ => ?_⟩
      rw [raiseNotice_ll]
      exact getLsbD_setFlag _ 10 (by decide)

/-! ## The boundary event -/

/-- The gate and the stack get no fire point at 0. -/
theorem bounded_noGateStack {s : State} (h : ∀ i, (s.station i).kind = .gate ∨ (s.station i).kind = .stack →
    0 < (s.station i).phi ∧ ∀ k : Fin 4, (s.station i).curve = some k →
      clampedAdvance (if s.fu.curves[k].pending then s.fu.curves[k].shadow else s.fu.curves[k].active) s.mu.speed <
        (s.station i).phi) : (bounded s).NoGateStack := by
  obtain ⟨hst, hsp, hcu⟩ := bounded_tables s
  intro i hi
  rw [station_of_tables hst i] at hi
  obtain ⟨hphi, hcurve⟩ := h i hi
  have hfires : (s.station i).kind.fires = true := by rcases hi with hi | hi <;> rw [hi] <;> rfl
  have hlate : (bounded s).advance (s.station i) < (s.station i).phi := by
    rw [State.advance]
    cases hk : (s.station i).curve with
    | none => exact hphi
    | some k =>
      have hactive : s.fu.curves[k].applied.active =
          if s.fu.curves[k].pending then s.fu.curves[k].shadow else s.fu.curves[k].active := by
        unfold CurveSlot.applied; split <;> rfl
      dsimp only
      rw [hcu, hsp, hactive]
      exact hcurve k hk
  refine Bool.eq_false_iff.mpr fun hdue => ?_
  obtain ⟨-, -, he⟩ := ((bounded s).fireDue_iff i).mp hdue
  rw [bounded_firePoint s i hfires, bounded_phase, State.firePointOf] at he
  omega

/-- Settles O34, the boundary of an encoder edge. -/
theorem boundary_shifts (p : Pins) (a b : Bool) (s : State) (hs : s.Open) (hsrc : s.mu.profile.source = .encoder)
    (hedge : (s.mu.encA, s.mu.encB, a, b) ∈ forwardEdges) (hend : s.mu.len ≤ s.mu.phase + 1) (hlen : 1 ≤ s.trackLen)
    (hno : ∀ i, (s.station i).kind = .gate ∨ (s.station i).kind = .stack → 0 < (s.station i).phi ∧
      ∀ k : Fin 4, (s.station i).curve = some k →
        clampedAdvance (if s.fu.curves[k].pending then s.fu.curves[k].shadow else s.fu.curves[k].active) s.mu.speed <
          (s.station i).phi) :
    ∃ t, exec (.encoderEdge p a b) s = .next t ∧ t.trackLen = s.trackLen ∧ t.gm.decided = false ∧
      (s.gm.decided = true →
        (∀ pos c, pos + 1 < s.trackLen → s.contentAt pos = .copy c →
          ∃ d, t.contentAt (pos + 1) = .copy d ∧ d.copy = c.copy ∧ d.values = c.values ∧ d.origin = c.origin ∧
            d.attempts = c.attempts ∧ d.faulted = c.faulted ∧ d.verifyResult = c.verifyResult ∧
            (∀ i, (s.station i).offset = pos →
              (s.fireWork i).fired = false ∧
                ((s.station i).kind = .feed ∨ (s.station i).kind = .carrier ∨ (s.station i).kind = .seal ∨
                  (s.station i).kind = .insert ∧ c.values.callsFor (s.station i).feeder = true) ∨
              (s.checkWork i).windowClosed = false ∧ (s.station i).sensor ≠ none ∧
                ((s.station i).kind = .feed ∨ (s.station i).kind = .carrier ∨
                  (s.station i).kind = .insert ∧ c.values.callsFor (s.station i).feeder = true) →
              d.marks.suspect = true)) ∧
        (∀ pos, pos + 1 < s.trackLen → (s.contentAt pos).isGhost = true → (t.contentAt (pos + 1)).isGhost = true) ∧
        (∀ pos, pos + 1 < s.trackLen → s.contentAt pos = .empty → t.contentAt (pos + 1) = .empty) ∧
        (∀ i c v, s.lc.line = .running → s.gm.queue = [] → s.au.order.head? = some i → s.au.staging[i] = .resolved c v →
          t.au.staging[i] = .free ∧ ∃ d, t.contentAt 0 = .copy d ∧ d.copy = c ∧ d.values = v ∧ d.origin = .main ∧
            d.attempts = 0 ∧ d.faulted = 0 ∧ d.verifyResult = none) ∧
        (∀ c rest, s.lc.line = .running → s.gm.queue = c :: rest →
          t.gm.queue.map Context.copy = rest.map Context.copy ∧
          ∃ d, t.contentAt 0 = .copy d ∧ d.copy = c.copy ∧ d.values = c.values ∧ d.origin = .remake ∧
            d.attempts = c.attempts ∧ d.faulted = c.faulted ∧ d.verifyResult = none)) ∧
      (∀ g, s.gm.decided = false → s.tu.gate = some g → g + 1 < s.trackLen →
        t.contentAt (g + 1) = .empty ∧
        ((s.contentAt g).isGhost = true → t.gm.ghostDiverts = min (s.gm.ghostDiverts + 1) 65535) ∧
        (∀ c, s.lc.line ≠ .running → s.contentAt g = .copy c →
          (∀ d ∈ s.bu.table, c.faulted + 1 ≤ d.retryLimit ∧ d.mode = .remake) →
          ∃ d ∈ t.gm.queue, d.copy = c.copy ∧ d.attempts = min (c.attempts + 1) 255)) ∧
      (s.lc.line ≠ .running → t.contentAt 0 = .empty ∧ t.au.order = s.au.order ∧ t.tu.starved = s.tu.starved) := by
  obtain ⟨t, ht, h⟩ := forwardEdge_boundary (p := p) hs hsrc hedge hend
  obtain ⟨j, k, c, o, hb, hrest⟩ := boundary_passes (edged p a b s)
  have hall : (released (edged p a b s) o).Tends t := hrest.trans (h.tends (bounded_noGateStack hno))
  refine ⟨t, ht, hall.len.trans hb.released_len, hall.decided, fun hd => ⟨fun pos x hpos hx => ?_,
    fun pos hpos hg => (hb.moves_up hall hd hpos).ghost hg, fun pos hpos hx => (hb.moves_up hall hd hpos).empty hx,
    fun i x v hl hq hi hv => ?_, fun x rest hl hq => ?_⟩,
    fun g hd hg hpos => ⟨hb.undecided hall hd hg hpos, fun hghost =>
      hall.ghosts.trans (hb.released_ghosts.trans (hb.gate_ghost hd hg hpos hghost)),
      fun x hl hx hmeet => hb.diverted hall hd hg hpos hl hx hmeet⟩,
    fun hl => hb.stopped hall hl⟩
  · obtain ⟨d, hd', hk, hsus⟩ := hb.copy_moves hall hd hpos hx
    exact ⟨d, hd', hk.copy, hk.values, hk.origin, hk.attempts, hk.faulted, hk.verifyResult, hsus⟩
  · obtain ⟨hfree, d, hd', hk⟩ := hb.first_released hall hd hlen hl hq hi hv
    exact ⟨hfree, d, hd', hk.copy, hk.values, hk.origin, hk.attempts, hk.faulted, hk.verifyResult⟩
  · obtain ⟨hqueue, d, hd', hk⟩ := hb.remake_released hall hd hlen hl hq
    exact ⟨hqueue, d, hd', hk.copy, hk.values, hk.origin, hk.attempts, hk.faulted, hk.verifyResult⟩

/-! ## The displaced flag (R65, R166) -/

theorem trackOccupied_iff (s : State) : s.trackOccupied = true ↔ ∃ pos, (s.contentAt pos).occupied = true := by
  rw [State.trackOccupied, List.any_eq_true]
  constructor
  · rintro ⟨c, hmem, hc⟩
    obtain ⟨pos, hpos, rfl⟩ := List.mem_iff_getElem.mp hmem
    exact ⟨pos, by rw [State.contentAt, List.getD_eq_getElem?_getD, List.getElem?_eq_getElem hpos]; exact hc⟩
  · rintro ⟨pos, hpos⟩
    rw [State.contentAt, List.getD_eq_getElem?_getD] at hpos
    cases hget : s.tu.track[pos]? with
    | none => rw [hget] at hpos; exact Bool.noConfusion hpos
    | some c =>
      rw [hget] at hpos
      exact ⟨c, List.mem_of_getElem? hget, hpos⟩

/-- Settles O34, the displaced flag. -/
theorem boundary_displaced (p : Pins) (a b : Bool) (s : State) (hs : s.Open) (hsrc : s.mu.profile.source = .encoder)
    (hedge : (s.mu.encA, s.mu.encB, a, b) ∈ forwardEdges) (hend : s.mu.len ≤ s.mu.phase + 1) :
    ∃ t, exec (.encoderEdge p a b) s = .next t ∧
      (t.lc.displaced = true ↔ s.lc.displaced = true ∨
        (s.lc.line = .stopped ∨ s.lc.line = .faulted) ∧ ∃ pos, (s.contentAt pos).occupied = true) := by
  obtain ⟨t, ht, h⟩ := forwardEdge_boundary (p := p) hs hsrc hedge hend
  have hflag : t.lc.displaced = (begun (countForward (edged p a b s))).lc.displaced :=
    ((bounded_stops _).trans h.toStops).displaced
  have hbegun (u : State) : (begun u).lc.displaced = true ↔ u.lc.displaced = true ∨
      (u.lc.line = .stopped ∨ u.lc.line = .faulted) ∧ u.trackOccupied = true := by
    have hreport : begun u = if (u.lc.line = .stopped ∨ u.lc.line = .faulted) ∧ u.trackOccupied = true then
        { motionBoundary u with lc := { (motionBoundary u).lc with displaced := true } } else motionBoundary u := rfl
    rw [hreport]
    split
    · rename_i hc; exact ⟨fun _ => .inr hc, fun _ => rfl⟩
    · rename_i hc; exact ⟨.inl, fun hor => hor.resolve_right hc⟩
  refine ⟨t, ht, ?_⟩
  rw [hflag, hbegun, trackOccupied_iff]
  exact Iff.rfl

/-- Settles O34: the shift, the release, the boundary of an encoder edge, and the displaced flag. -/
theorem theTrackShiftsAndReleases : Obligations.TheTrackShiftsAndReleases :=
  ⟨shift_moves, release_fills, boundary_shifts, boundary_displaced⟩

end Sys2Proof.Machine
end
